-- ==== Sys2Proof/Word.lean ====
section
/-! DEFINITION. The word types of the SV7 and the keyed tables its state is made of. -/

namespace Sys2Proof

/-- A byte of memory. -/
abbrev Byte := BitVec 8
/-- A vector register of one thread (R25). -/
abbrev W32 := BitVec 32
/-- A scalar register (R48), and an instruction word (R74). -/
abbrev W64 := BitVec 64
/-- One bit for each lane of a warp. -/
abbrev Mask := BitVec 32

/-- A table with natural-number keys, kept with its keys strictly rising. -/
abbrev Tab (α : Type) := List (Nat × α)

end Sys2Proof
end

