-- ==== Sys2Proof/Config.lean ====
section
/-! DEFINITION. What the spec leaves open: free values and free choices, as constants with no body, and what an implementation fixes. -/

namespace Sys2Proof.Config

/-- The n-th free choice among the outcomes that a rule lists ("the outcome is one of", R4). DEDUCED, safe (log 60). -/
opaque freeNat : Nat → Nat

/-- The digest of a boot image (R322): the contents of the images are no part of the spec. DESIGN CHOICE, safe (log 42). -/
opaque imageDigest : Nat → BitVec 384

/-- The digest of the signed policy (R325), by the number that names the policy. DESIGN CHOICE, safe (log 42). -/
opaque policyDigest : Nat → BitVec 384

/-- ECDSA P-384 with the identity key over a digest (R323, R325): the key cannot be read. -/
opaque sign : BitVec 384 → BitVec 768

/-- The identity public key (R323): the two coordinates of a P-384 point. DESIGN CHOICE, safe (log 42). -/
opaque publicKey : BitVec 768

/-- The vendor's certificate over the public key (R323). DESIGN CHOICE, safe (log 42). -/
opaque vendorCert : List Byte

/-- An SFU result whose rounding the model's bounded search does not decide: OP index and operand. -/
opaque sfuTie : Nat → W32 → W32

/-- How far a core's reading of the clock stands from the module's, in cycles (R67: below 64). -/
opaque clockSkew : Nat → BitVec 6

/-- Bytes whose layout the spec does not give: of a spill entry (R295), or of a save frame (R351), by number and position. DESIGN CHOICE, unsafe (log 31). -/
opaque frameByte : Nat → Nat → Byte

end Sys2Proof.Config
end

