-- ==== Sys2Proof/Syntax.lean ====
section
/-! DEFINITION. The instructions of YZ1 and the operations and events of the module: one constructor of Instr per row of the opcode table. -/

namespace Sys2Proof

/-- The scopes of R55, in the order of their encodings 000 to 110. -/
inductive Scope where
  | th | wp | wg | cl | die | dev | sys
  deriving DecidableEq, Repr

/-- Access widths (R86 WIDTH 000 to 111). -/
inductive Width where
  | u8 | s8 | u16 | s16 | w32 | w64 | w128 | w256
  deriving DecidableEq, Repr

/-- Rounding modes (R86 RND). -/
inductive Rnd where
  | rn | rz | ru | rd | rna
  deriving DecidableEq, Repr

/-- Comparison codes 0 to 9 (R86 CMP). -/
inductive Cmp where
  | eq | ne | lt | le | gt | ge | ltu | leu | gtu | geu
  deriving DecidableEq, Repr

/-- Index scales (R86 SCL). -/
inductive Scl where
  | x1 | x2 | x4 | x8 | x16
  deriving DecidableEq, Repr

/-- Predicate combinations (R111). -/
inductive PredOp where
  | and | or | xor | andn
  deriving DecidableEq, Repr

/-- The folds of SCAN and REDUX (R115). -/
inductive FoldOp where
  | add | min | max | minu | maxu | and | or | xor
  deriving DecidableEq, Repr

/-- The type codes 0 to 14 of CVT (R86). -/
inductive TypeCode where
  | s8 | s16 | s32 | s64 | u8 | u16 | u32 | u64 | f64 | f32 | f16 | bf16 | e4m3 | e5m2 | slot
  deriving DecidableEq, Repr

/-- The head of a warp instruction (R81): DIST and GUARD (negate bit, predicate index). -/
structure Head where
  dist : BitVec 3
  guard : BitVec 4
  deriving DecidableEq, Repr

/-- A value operand of a V3 or VI word: an 8-bit vector specifier (254 is qa, 255 is qm, R87) or, with its kind bit 1, a scalar (R89). -/
inductive Src where
  | v (r : BitVec 8)
  | s (r : BitVec 6)
  deriving DecidableEq, Repr

/-- The second source of a scalar operation (R84, I). -/
inductive SSrc where
  | reg (r : BitVec 6)
  | imm (x : BitVec 36)
  deriving DecidableEq, Repr

/-- The destination of MFSR: a vector register (DK = 0) or a scalar (DK = 1) (R211). -/
inductive MDst where
  | v (r : BitVec 8)
  | s (r : BitVec 6)
  deriving DecidableEq, Repr

/-- The comparison operand of MWAIT (R162). -/
inductive MX where
  | reg (r : BitVec 6)
  | imm (x : BitVec 7)
  deriving DecidableEq, Repr

/-- A memory operand of LD and ST (R51): IDX 0xFF is no index. -/
structure MemOp where
  base : BitVec 6
  idx : BitVec 8
  scl : Scl
  off : BitVec 16
  deriving DecidableEq, Repr

/-- The address, scope, space and width fields of an atomic or a reduction (R147). -/
structure AMem where
  base : BitVec 6
  idx : BitVec 8
  scl : Scl
  sc : Scope
  scr : Bool
  wide : Bool
  deriving DecidableEq, Repr

/-- The driver's answer to a private grow fault (R335). -/
inductive GrowAnswer where
  | mapped (phwm : BitVec 20)
  | declined
  deriving DecidableEq, Repr

/-- Where an uncorrectable error is found (R356). -/
inductive ErrSite where
  | memory (pa : Nat)
  | dieCopy (die ctx pa : Nat)
  | scratch (wg addr : Nat)
  | register (warp reg lane : Nat)
  | accumulator (wg tile idx : Nat)
  deriving DecidableEq, Repr

/-- One write that Scarab makes while a record is open (R342). -/
inductive ScarabEffect where
  | scalar (r : BitVec 6) (x : W64)
  | vector (r : BitVec 8) (lane : BitVec 5) (x : W32)
  | predicate (p : BitVec 3) (lane : BitVec 5) (b : Bool)
  | fpflags (x : BitVec 6)
  | scratch (addr : Nat) (data : List Byte)
  | memory (va : Nat) (data : List Byte)
  deriving DecidableEq, Repr

/-- Operations of ATOM and RED (R149). -/
inductive AtomOp where
  | add | min | max | minu | maxu | and | or | xor | exch | cas | fadd
  deriving DecidableEq, Repr

/-- A transaction of a UALink peer (R279); an atomic is of 4 bytes, or of 8, with its operand and CAS's swap value. -/
inductive PeerOp where
  | read (n : Nat)
  | write (data : List Byte)
  | atomic (op : AtomOp) (wide : Bool) (x swp : W64)
  deriving DecidableEq, Repr

/-- A peer's transaction with the ID of the accelerator that it comes from (R279, R324). -/
structure PeerReq where
  who : Nat
  op : PeerOp
  deriving DecidableEq, Repr

/-- What a participant of a reduction contributes (R237), or that it has failed (R363). -/
inductive Contribution where
  | wfx (x : BitVec 96)
  | fp32 (x : W32)
  | fp64 (x : W64)
  | failed
  deriving DecidableEq, Repr

/-- The rows of spec/opcode_table.json. Rows 0 to 173 are instruction words; the rest are operations and events, whose operands name the unit that acts. -/
inductive Instr where
  -- control and team, class 0 (R117-R129)
  | nop (h : Head)
  | bra (h : Head) (off : BitVec 32)
  | bnz (h : Head) (sc : BitVec 6) (off : BitVec 32)
  | bz (h : Head) (sc : BitVec 6) (off : BitVec 32)
  | call (h : Head) (lv : BitVec 8) (off : BitVec 32)
  | ret (h : Head) (lv : BitVec 8)
  | exit (h : Head)
  | tcall (h : Head) (off : BitVec 32)
  | tcallW (h : Head) (off : BitVec 32)
  | tret (h : Head)
  | tquit (h : Head)
  | tstat (h : Head) (sd : BitVec 6) (n : BitVec 3)
  | tstatCancel (h : Head) (sd : BitVec 6)
  | tbar (h : Head)
  -- scalar, class 0 (R100)
  | sMov (h : Head) (sd : BitVec 6) (y : SSrc)
  | movh (h : Head) (sd : BitVec 6) (imm : BitVec 32)
  | sIadd (h : Head) (sd sa : BitVec 6) (y : SSrc)
  | sIsub (h : Head) (sd sa : BitVec 6) (y : SSrc)
  | sMul (h : Head) (sd sa : BitVec 6) (y : SSrc)
  | sMulhu (h : Head) (sd sa : BitVec 6) (y : SSrc)
  | sAnd (h : Head) (sd sa : BitVec 6) (y : SSrc)
  | sOr (h : Head) (sd sa : BitVec 6) (y : SSrc)
  | sXor (h : Head) (sd sa : BitVec 6) (y : SSrc)
  | sShl (h : Head) (sd sa : BitVec 6) (y : SSrc)
  | sShr (h : Head) (sd sa : BitVec 6) (y : SSrc)
  | sSar (h : Head) (sd sa : BitVec 6) (y : SSrc)
  | sMin (h : Head) (sd sa : BitVec 6) (y : SSrc)
  | sMax (h : Head) (sd sa : BitVec 6) (y : SSrc)
  | sset (h : Head) (cc : Cmp) (sd sa sb : BitVec 6)
  | sPopc (h : Head) (sd sa : BitVec 6)
  | sClz (h : Head) (sd sa : BitVec 6)
  -- vector integer, class 1 (R101)
  | mov (h : Head) (d : BitVec 8) (a : Src)
  | movImm (h : Head) (d : BitVec 8) (imm : W32)
  | iadd (h : Head) (d : BitVec 8) (a b : Src)
  | iaddImm (h : Head) (d : BitVec 8) (a : Src) (imm : W32)
  | isub (h : Head) (d : BitVec 8) (a b : Src)
  | isubImm (h : Head) (d : BitVec 8) (a : Src) (imm : W32)
  | mul (h : Head) (d : BitVec 8) (a b : Src)
  | mulImm (h : Head) (d : BitVec 8) (a : Src) (imm : W32)
  | mulhu (h : Head) (d : BitVec 8) (a b : Src)
  | mulhuImm (h : Head) (d : BitVec 8) (a : Src) (imm : W32)
  | mulhi (h : Head) (d : BitVec 8) (a b : Src)
  | mulhiImm (h : Head) (d : BitVec 8) (a : Src) (imm : W32)
  | imad (h : Head) (d : BitVec 8) (a b c : Src)
  | and (h : Head) (d : BitVec 8) (a b : Src)
  | andImm (h : Head) (d : BitVec 8) (a : Src) (imm : W32)
  | or (h : Head) (d : BitVec 8) (a b : Src)
  | orImm (h : Head) (d : BitVec 8) (a : Src) (imm : W32)
  | xor (h : Head) (d : BitVec 8) (a b : Src)
  | xorImm (h : Head) (d : BitVec 8) (a : Src) (imm : W32)
  | shl (h : Head) (d : BitVec 8) (a b : Src)
  | shlImm (h : Head) (d : BitVec 8) (a : Src) (imm : W32)
  | shr (h : Head) (d : BitVec 8) (a b : Src)
  | shrImm (h : Head) (d : BitVec 8) (a : Src) (imm : W32)
  | sar (h : Head) (d : BitVec 8) (a b : Src)
  | sarImm (h : Head) (d : BitVec 8) (a : Src) (imm : W32)
  | min (h : Head) (uns : Bool) (d : BitVec 8) (a b : Src)
  | max (h : Head) (uns : Bool) (d : BitVec 8) (a b : Src)
  | sel (h : Head) (d : BitVec 8) (a b : Src) (pc : BitVec 3)
  | popc (h : Head) (d : BitVec 8) (a : Src)
  | clz (h : Head) (d : BitVec 8) (a : Src)
  | brev (h : Head) (d : BitVec 8) (a : Src)
  -- FP32, class 1 (R103, R104)
  | fadd (h : Head) (rnd : Rnd) (sat : Bool) (d : BitVec 8) (a b : Src)
  | fsub (h : Head) (rnd : Rnd) (sat : Bool) (d : BitVec 8) (a b : Src)
  | fmul (h : Head) (rnd : Rnd) (sat : Bool) (d : BitVec 8) (a b : Src)
  | ffma (h : Head) (rnd : Rnd) (sat : Bool) (d : BitVec 8) (a b c : Src)
  | fmin (h : Head) (d : BitVec 8) (a b : Src)
  | fmax (h : Head) (d : BitVec 8) (a b : Src)
  -- FP64 and packed 16-bit, class 2 (R105, R106)
  | faddF64 (h : Head) (rnd : Rnd) (sat : Bool) (d : BitVec 8) (a b : Src)
  | fsubF64 (h : Head) (rnd : Rnd) (sat : Bool) (d : BitVec 8) (a b : Src)
  | fmulF64 (h : Head) (rnd : Rnd) (sat : Bool) (d : BitVec 8) (a b : Src)
  | ffmaF64 (h : Head) (rnd : Rnd) (sat : Bool) (d : BitVec 8) (a b c : Src)
  | fminF64 (h : Head) (d : BitVec 8) (a b : Src)
  | fmaxF64 (h : Head) (d : BitVec 8) (a b : Src)
  | hadd2 (h : Head) (bf : Bool) (rnd : Rnd) (sat : Bool) (d : BitVec 8) (a b : Src)
  | hsub2 (h : Head) (bf : Bool) (rnd : Rnd) (sat : Bool) (d : BitVec 8) (a b : Src)
  | hmul2 (h : Head) (bf : Bool) (rnd : Rnd) (sat : Bool) (d : BitVec 8) (a b : Src)
  | hfma2 (h : Head) (bf : Bool) (rnd : Rnd) (sat : Bool) (d : BitVec 8) (a b c : Src)
  | hmin2 (h : Head) (bf : Bool) (d : BitVec 8) (a b : Src)
  | hmax2 (h : Head) (bf : Bool) (d : BitVec 8) (a b : Src)
  -- SFU and conversion, class 3 (R107, R108, R200-R203)
  | rcp (h : Head) (fsel : Bool) (d : BitVec 8) (a : Src)
  | rsqrt (h : Head) (fsel : Bool) (d : BitVec 8) (a : Src)
  | sqrt (h : Head) (fsel : Bool) (d : BitVec 8) (a : Src)
  | ex2 (h : Head) (fsel : Bool) (d : BitVec 8) (a : Src)
  | lg2 (h : Head) (fsel : Bool) (d : BitVec 8) (a : Src)
  | sin (h : Head) (fsel : Bool) (d : BitVec 8) (a : Src)
  | cos (h : Head) (fsel : Bool) (d : BitVec 8) (a : Src)
  | frnd (h : Head) (fsel : Bool) (rnd : Rnd) (d : BitVec 8) (a : Src)
  | cvt (h : Head) (fsel : Bool) (rnd : Rnd) (sat : Bool) (dt st : TypeCode) (fs : BitVec 3) (d : BitVec 8) (a : Src)
  | pack4 (h : Head) (fsel : Bool) (d : BitVec 8) (a : Src) (fs : BitVec 3)
  | unpack4 (h : Head) (fsel : Bool) (d : BitVec 8) (a : Src) (fs : BitVec 3)
  -- compare and predicate (R109-R111)
  | icmp (h : Head) (cc : Cmp) (pd : BitVec 3) (a b : Src)
  | icmpImm (h : Head) (cc : Cmp) (pd : BitVec 3) (a : Src) (imm : W32)
  | fcmp (h : Head) (cc : Cmp) (pd : BitVec 3) (a b : Src)
  | fcmpF64 (h : Head) (cc : Cmp) (pd : BitVec 3) (a b : Src)
  | pcomb (h : Head) (op : PredOp) (pd pa pb : BitVec 3)
  -- lane exchange, class 4 (R112-R116)
  | shflXor (h : Head) (fsel : Bool) (d a : BitVec 8) (n : BitVec 5)
  | shflUp (h : Head) (fsel : Bool) (d a : BitVec 8) (n : BitVec 5)
  | shflDown (h : Head) (fsel : Bool) (d a : BitVec 8) (n : BitVec 5)
  | shflIdx (h : Head) (fsel : Bool) (d a : BitVec 8) (n : BitVec 5)
  | shflIdxReg (h : Head) (fsel : Bool) (d a b : BitVec 8)
  | voteAll (h : Head) (fsel : Bool) (pd pa : BitVec 3)
  | voteAny (h : Head) (fsel : Bool) (pd pa : BitVec 3)
  | voteBallot (h : Head) (fsel : Bool) (sd : BitVec 6) (pa : BitVec 3)
  | scan (h : Head) (fsel : Bool) (op : FoldOp) (incl : Bool) (d a : BitVec 8)
  | redux (h : Head) (fsel : Bool) (op : FoldOp) (sd : BitVec 6) (a : BitVec 8)
  -- memory, class 5 (R138-R143, R335)
  | ld (h : Head) (fsel : Bool) (w : Width) (sc : Scope) (d : BitVec 8) (m : MemOp)
  | ldScr (h : Head) (fsel : Bool) (w : Width) (sc : Scope) (d : BitVec 8) (m : MemOp)
  | ldCon (h : Head) (fsel : Bool) (w : Width) (d : BitVec 8) (m : MemOp)
  | ldPrv (h : Head) (fsel : Bool) (w : Width) (d : BitVec 8) (m : MemOp)
  | st (h : Head) (fsel : Bool) (w : Width) (sc : Scope) (d : BitVec 8) (m : MemOp)
  | copyStart (h : Head) (fsel : Bool) (s : BitVec 6) (base : BitVec 6) (off : BitVec 16)
  | stScr (h : Head) (fsel : Bool) (w : Width) (sc : Scope) (d : BitVec 8) (m : MemOp)
  | stPrv (h : Head) (fsel : Bool) (w : Width) (d : BitVec 8) (m : MemOp)
  | lds (h : Head) (fsel : Bool) (sc : Scope) (sd : BitVec 6) (base : BitVec 6) (off : BitVec 16)
  -- atomics, class 6 (R147-R151)
  | atomAdd (h : Head) (fsel : Bool) (m : AMem) (d b : BitVec 8)
  | atomMin (h : Head) (fsel : Bool) (m : AMem) (d b : BitVec 8)
  | atomMax (h : Head) (fsel : Bool) (m : AMem) (d b : BitVec 8)
  | atomMinu (h : Head) (fsel : Bool) (m : AMem) (d b : BitVec 8)
  | atomMaxu (h : Head) (fsel : Bool) (m : AMem) (d b : BitVec 8)
  | atomAnd (h : Head) (fsel : Bool) (m : AMem) (d b : BitVec 8)
  | atomOr (h : Head) (fsel : Bool) (m : AMem) (d b : BitVec 8)
  | atomXor (h : Head) (fsel : Bool) (m : AMem) (d b : BitVec 8)
  | atomExch (h : Head) (fsel : Bool) (m : AMem) (d b : BitVec 8)
  | atomCas (h : Head) (fsel : Bool) (m : AMem) (d b c : BitVec 8)
  | atomFadd (h : Head) (fsel : Bool) (m : AMem) (d b : BitVec 8)
  | redAdd (h : Head) (fsel : Bool) (m : AMem) (d : BitVec 8)
  | redMin (h : Head) (fsel : Bool) (m : AMem) (d : BitVec 8)
  | redMax (h : Head) (fsel : Bool) (m : AMem) (d : BitVec 8)
  | redFadd (h : Head) (fsel : Bool) (m : AMem) (d : BitVec 8)
  | redOr (h : Head) (fsel : Bool) (m : AMem) (d : BitVec 8)
  -- synchronisation, class 6 (R152-R163)
  | fence (h : Head) (fsel : Bool) (sc : Scope)
  | acq (h : Head) (fsel : Bool) (sc : Scope)
  | rel (h : Head) (fsel : Bool) (sc : Scope)
  | relN (h : Head) (fsel : Bool) (wide : Bool) (d : BitVec 8) (base : BitVec 6) (off : BitVec 16)
  | bar (h : Head) (fsel : Bool) (n : BitVec 5)
  | barArrive (h : Head) (fsel : Bool) (n : BitVec 5)
  | barWait (h : Head) (fsel : Bool) (n : BitVec 5)
  | pbarArrive (h : Head) (fsel : Bool) (n : BitVec 5)
  | pbarWait (h : Head) (fsel : Bool) (n : BitVec 5)
  | mwait (h : Head) (fsel : Bool) (scr wide : Bool) (sc : Scope) (cc : Cmp) (base : BitVec 6) (off : BitVec 16) (x : MX)
  -- asynchronous copy and tiles, class 7 (R174-R179)
  | cwait (h : Head) (fsel : Bool) (ms base : BitVec 6) (off : BitVec 16)
  | cwaitTile (h : Head) (fsel : Bool) (ms tile : BitVec 6) (hi : Bool)
  | ctest (h : Head) (fsel : Bool) (sd ms base : BitVec 6) (off : BitVec 16)
  | ctestTile (h : Head) (fsel : Bool) (sd ms tile : BitVec 6) (hi : Bool)
  | publish (h : Head) (fsel : Bool) (sc : Scope) (nm1 base : BitVec 6) (off : BitVec 16)
  | tdef (h : Head) (fsel : Bool) (tile base : BitVec 6) (off : BitVec 16) (ms : BitVec 6)
  | twait (h : Head) (fsel : Bool) (tile : BitVec 6)
  | tfree (h : Head) (tile : BitVec 6)
  -- matrix stream, class 8 (R188-R197)
  | mldb (ta : BitVec 6) (fs : BitVec 3)
  | mmaP (acc : BitVec 3) (ta : BitVec 6) (fs : BitVec 3) (rows : BitVec 2)
  | mclr (acc km1 : BitVec 3)
  | mscl (acc : BitVec 3) (ss : BitVec 6)
  | accst (acc : BitVec 3) (ss : BitVec 6) (imm : BitVec 14) (fs : BitVec 3)
  | accld (acc : BitVec 3) (ss : BitVec 6) (imm : BitVec 14) (fs : BitVec 3)
  | accq (acc : BitVec 3) (rm1 : BitVec 6)
  | mbarArrive (n : BitVec 5)
  | mbarWait (n : BitVec 5)
  | mloop (km1 : BitVec 8) (imm : BitVec 14)
  | mend
  -- plane pack, class 7 (R198, R199)
  | packp (h : Head) (fsel : Bool) (a : Src) (s : BitVec 6) (fs : BitVec 3) (r : BitVec 8)
  | unpackp (h : Head) (fsel : Bool) (d : BitVec 8) (s : BitVec 6) (fs : BitVec 3) (r : BitVec 8)
  -- system, class 9 (R205-R215)
  | mfsr (h : Head) (d : MDst) (sel : BitVec 8)
  | mtsr (h : Head) (sel : BitVec 8) (a : Src)
  | yield (h : Head) (d k : BitVec 8)
  | syscall (h : Head) (n : BitVec 16)
  | trap (h : Head) (n : BitVec 16)
  | brk (h : Head) (n : BitVec 16)
  | ipf (h : Head) (base : BitVec 6) (off : BitVec 16) (nm1 : BitVec 8)
  | regq (h : Head) (w1 w2 : BitVec 5) (k : BitVec 36)
  | cctlWb (h : Head) (sc : Scope) (base : BitVec 6) (off : BitVec 16)
  | cctlInv (h : Head) (sc : Scope) (base : BitVec 6) (off : BitVec 16)
  | cctlWbinv (h : Head) (sc : Scope) (base : BitVec 6) (off : BitVec 16)
  | qstat (h : Head) (sd : BitVec 6) (qm : Bool)
  -- issue and completion events
  | clauseStart (core slice : Nat)
  | longLatencyCompletion (op : Nat) (lanes : Mask)
  | accessPerform (op idx : Nat)
  | icacheMissFill (warp : Nat)
  | watchdogFault (warp : Nat)
  | quotaTransferApply (wg : Nat)
  | workgroupDeadlock (wg : Nat)
  | sequencerTaskLoad (wg : Nat)
  | monitorWake (mon : Nat)
  | monitorEntryArm (mon : Nat)
  | monitorSwapOut (cluster : Nat)
  | clusterRequeue (cluster : Nat)
  | diffApply (pkt : Nat)
  | diffAck (pkt : Nat)
  | lockHandoffReceive (msg : Nat)
  -- copies and publish
  | bteChunkStart (copy chunk : Nat)
  | chunkComplete (copy chunk : Nat)
  | copyFault (copy chunk : Nat)
  | tileDrainDone (copy : Nat)
  | publishSwitch (op : Nat)
  | pageRetire (ctx page : Nat)
  -- rings, placement, grids
  | rtailWrite (ctx : BitVec 6) (ring : BitVec 3) (x : BitVec 32)
  | ringEntryAdmit (ctx : BitVec 6) (ring : BitVec 3)
  | haltClear (ctx : BitVec 6) (ring : BitVec 3)
  | gridEligible (grid : Nat)
  | clusterPull (die : BitVec 3) (group : Nat) (cores : List Nat)
  | starvationPreempt (grid : Nat)
  | gridComplete (grid : Nat)
  | preRequest (ctx : BitVec 6)
  | clusterSave (cluster : Nat)
  | clusterRestore (cluster : Nat) (die : BitVec 3) (group : Nat) (cores : List Nat)
  -- traps
  | trapRecordEnqueue (core : Nat)
  | replay (core : Nat)
  | skip (core : Nat)
  | jump (core : Nat) (a : W64)
  | endRecord (core : Nat)
  | answer (core : Nat)
  | singleStep (warp : Nat) (splitB : Bool)
  | growFaultService (warp : Nat) (ans : GrowAnswer)
  -- capacity tier, translation, contexts
  | farPageFault (warp : Nat) (cold : Nat)
  | swapComplete (swap : Nat)
  | ctmigBringNear (ctx : BitVec 6) (x : W64)
  | ctmigMoveFar (ctx : BitVec 6) (x : W64)
  | ctmigOffline (ctx : BitVec 6) (x : W64)
  | ctmigReserved (ctx : BitVec 6) (x : W64)
  | tlbinv (ctx : BitVec 6) (x : W64)
  | tlbinvComplete (ctx : BitVec 6)
  | contextEnable (ctx : BitVec 6) (x : W64)
  | contextDisable (ctx : BitVec 6) (x : W64)
  -- Obper groups
  | ogctlGo (g : Nat) (x : W64)
  | drainingMarkAck (g core : Nat)
  | ogDrainDone (g : Nat)
  | ogDrainTimeout (g : Nat)
  | ogDarkTimer (g : Nat)
  | ogTrainUp (g : Nat) (lanes : BitVec 16)
  | ogTrainTimeout (g : Nat)
  | ogMappingDone (g : Nat)
  -- bring-up (here because compiled code has no object of a constructor past the 244th)
  | moduleReset (bad : Option (BitVec 3))
  | registerWrite (off : Nat) (x : W64)
  | scarabWrite (id : Nat) (e : ScarabEffect)
  -- bias and the host link
  | bflipSetCtx (x : W64)
  | bflipToHost (x : W64)
  | bflipToDev (x : W64)
  | bflipReserved (x : W64)
  | d2hDrainComplete (page : Nat)
  | h2dDrainComplete (page : Nat)
  | biasSnoopTimeout (line : Nat)
  | memrd (pa : Nat) (cache : Bool)
  | memwr (pa : Nat) (data : List Byte)
  | birsp (line : Nat) (shared : Bool) (writeback : Option (List Byte))
  | bisnpdataMonitor (line : Nat)
  | poolBisnpinv (line : Nat)
  | poolBisnpdata (line : Nat)
  -- failures
  | linkDown (g link : Nat)
  | meshLinkFail (link : Nat) (parts : BitVec 4)
  | cdieFence (die : BitVec 3)
  | poisonErrorEvict (die : BitVec 3) (ctx pa : Nat) (twin : Bool)
  | reductionContribution (red who : Nat) (x : Contribution)
  | reductionTimeout (red : Nat)
  -- management
  | measext (x : W64)
  | meassel (x : W64)
  | attcmdGo (x : W64)
  | quoteDone
  | pwrreq (x : W64)
  | powerCapThrottle
  | fireflyBeacon
  | retm (x : W64)
  | uncorrectableError (site : ErrSite)
  | linkRetrain (g link : Nat)
  | peerTransaction (g port : Nat) (pa : Nat) (op : PeerReq)
  deriving DecidableEq, Repr

end Sys2Proof
end

