-- ==== Sys2Proof/Machine/Float.lean ====
section
/-! DEFINITION. Binary floating-point formats, the one rounding procedure, and the FP operations as exact values rounded once (R102-R110, R217-R221). -/

namespace Sys2Proof.Machine

/-- Sticky flags, in the bit order of R68: NV, DZ, OF, UF, NX, SAT. -/
abbrev Fl := BitVec 6

def flNV : Fl := 1
def flDZ : Fl := 2
def flOF : Fl := 4
def flUF : Fl := 8
def flNX : Fl := 16
def flSAT : Fl := 32

/-- A format of R218: exponent width, fraction width, and whether it is E4M3. -/
structure Fmt where
  ew : Nat
  mw : Nat
  e4m3 : Bool
  deriving DecidableEq, Repr

def fp64 : Fmt := ⟨11, 52, false⟩
def fp32 : Fmt := ⟨8, 23, false⟩
def fp16 : Fmt := ⟨5, 10, false⟩
def bf16 : Fmt := ⟨8, 7, false⟩
def e4m3 : Fmt := ⟨4, 3, true⟩
def e5m2 : Fmt := ⟨5, 2, false⟩

def Fmt.prec (f : Fmt) : Nat := f.mw + 1
def Fmt.bits (f : Fmt) : Nat := 1 + f.ew + f.mw
def Fmt.bias (f : Fmt) : Int := 2 ^ (f.ew - 1) - 1
def Fmt.emin (f : Fmt) : Int := 1 - f.bias
def Fmt.emax (f : Fmt) : Int := if f.e4m3 then 8 else f.bias

/-- The largest significand at emax, as an integer of prec bits: E4M3 stops at 448. -/
def Fmt.maxMant (f : Fmt) : Nat := if f.e4m3 then 2 ^ f.prec - 2 else 2 ^ f.prec - 1

/-- The sign bit in place. -/
def Fmt.signed (f : Fmt) (neg : Bool) (mag : Nat) : Nat := mag + (if neg then 2 ^ (f.ew + f.mw) else 0)

/-- The canonical quiet NaN (R219). -/
def Fmt.nan (f : Fmt) : Nat :=
  if f.e4m3 then 0x7F else (2 ^ f.ew - 1) * 2 ^ f.mw + 2 ^ (f.mw - 1)

/-- An infinity; E4M3 has none and gives its NaN (R203). -/
def Fmt.inf (f : Fmt) (neg : Bool) : Nat := if f.e4m3 then f.nan else f.signed neg ((2 ^ f.ew - 1) * 2 ^ f.mw)

/-- The largest finite value of a sign. -/
def Fmt.largest (f : Fmt) (neg : Bool) : Nat :=
  f.signed neg (if f.e4m3 then 0x7E else (2 ^ f.ew - 1) * 2 ^ f.mw - 1)

/-- A decoded operand (R218, R219): a finite value is (-1)^neg * m * 2^e. -/
inductive FVal where
  | nan (signalling : Bool)
  | inf (neg : Bool)
  | fin (neg : Bool) (m : Nat) (e : Int)
  deriving DecidableEq, Repr

/-- Decoding of R218. -/
def Fmt.decode (f : Fmt) (x : Nat) : FVal :=
  let neg := decide (x / 2 ^ (f.ew + f.mw) % 2 = 1)
  let ex := x / 2 ^ f.mw % 2 ^ f.ew
  let fr := x % 2 ^ f.mw
  if f.e4m3 ∧ ex = 15 ∧ fr = 7 then .nan false
  else if !f.e4m3 ∧ ex = 2 ^ f.ew - 1 then
    if fr = 0 then .inf neg else .nan (decide (fr / 2 ^ (f.mw - 1) % 2 = 0))
  else if ex = 0 then .fin neg fr (f.emin - f.mw)
  else .fin neg (2 ^ f.mw + fr) ((ex : Int) - f.bias - f.mw)

/-- An exact result, before rounding: num is (-1)^neg times a value that is m * 2^e, or, when sticky, lies strictly between m * 2^e and (m + 1) * 2^e. -/
inductive Exact where
  | nan (nv : Bool)
  | inf (neg : Bool)
  | zero (neg : Bool)
  | num (neg : Bool) (m : Nat) (e : Int) (sticky : Bool)
  deriving DecidableEq, Repr

/-- Magnitude rounding of m * 2^(-s) to an integer by a mode (RoundInt of R220): the integer, and whether it differs. -/
def roundMag (mode : Rnd) (neg : Bool) (m : Nat) (s : Int) (sticky : Bool) : Nat × Bool :=
  if s ≤ 0 then (m * 2 ^ (-s).toNat, sticky) else
    let d := 2 ^ s.toNat
    let lo := m / d
    let rem := m % d
    let half := d / 2
    let inexact := rem != 0 || sticky
    let up := match mode with
      | .rz => false
      | .ru => !neg && inexact
      | .rd => neg && inexact
      | .rn => decide (half < rem) || (rem == half && (sticky || lo % 2 == 1))
      | .rna => decide (half ≤ rem)
    (if up then lo + 1 else lo, inexact)

/-- Round of R220 for a nonzero magnitude, with .sat of R102 and R203. -/
def Fmt.round (f : Fmt) (mode : Rnd) (sat neg : Bool) (m : Nat) (e : Int) (sticky : Bool) : Nat × Fl :=
  let p : Int := f.prec
  let lg : Int := (Nat.log2 m : Int) + e
  let q := max lg f.emin - p + 1
  let (n0, inexact) := roundMag mode neg m (q - e) sticky
  let (n, q) := if n0 = 2 ^ f.prec then (2 ^ (f.prec - 1), q + 1) else (n0, q)
  let qmax := f.emax - p + 1
  if q > qmax ∨ (q = qmax ∧ f.maxMant < n) then
    let toInf := match mode with
      | .rn => true
      | .rna => true
      | .rz => false
      | .ru => !neg
      | .rd => neg
    if toInf then
      if sat then (f.largest neg, flOF ||| flNX ||| flSAT) else (f.inf neg, flOF ||| flNX)
    else (f.largest neg, flOF ||| flNX)
  else
    let tiny := lg < f.emin &&
      decide ((roundMag mode neg m (lg - p + 1 - e) sticky).1 < 2 ^ (f.emin - lg + p - 1).toNat)
    let fl := (if inexact then flNX else 0) ||| (if inexact && tiny then flUF else 0)
    let mag := if n < 2 ^ (f.prec - 1) then n else ((q + p - 1 + f.bias).toNat) * 2 ^ f.mw + (n - 2 ^ (f.prec - 1))
    (f.signed neg mag, fl)

/-- The delivered bits and flags of an exact result (R102, R203, R220). -/
def Fmt.deliver (f : Fmt) (mode : Rnd) (sat : Bool) : Exact → Nat × Fl
  | .nan nv => (f.nan, if nv then flNV else 0)
  | .inf neg =>
    if f.e4m3 then (if sat then (f.largest neg, flSAT ||| flNV) else (f.nan, flNV))
    else if sat then (f.largest neg, flSAT) else (f.inf neg, 0)
  | .zero neg => (f.signed neg 0, 0)
  | .num neg m e sticky => f.round mode sat neg m e sticky

/-- An operand as an exact value. -/
def FVal.exact : FVal → Exact
  | .nan sg => .nan sg
  | .inf neg => .inf neg
  | .fin neg 0 _ => .zero neg
  | .fin neg (m + 1) e => .num neg (m + 1) e false

/-- A signed integer times a power of two as an exact value; an exact zero has the given sign. -/
def ofScaled (zneg : Bool) (v : Int) (e : Int) : Exact :=
  if v = 0 then .zero zneg else .num (decide (v < 0)) v.natAbs e false

/-- The signed integer (-1)^neg * m. -/
def signedInt (neg : Bool) (m : Nat) : Int := if neg then -(m : Int) else m

/-- a + b (R102, R103). -/
def faddEx (mode : Rnd) (a b : FVal) : Exact :=
  match a, b with
  | .nan sa, .nan sb => .nan (sa || sb)
  | .nan sa, _ => .nan sa
  | _, .nan sb => .nan sb
  | .inf na, .inf nb => if na = nb then .inf na else .nan true
  | .inf na, .fin _ _ _ => .inf na
  | .fin _ _ _, .inf nb => .inf nb
  | .fin na ma ea, .fin nb mb eb =>
    let e := min ea eb
    let v := signedInt na ma * 2 ^ (ea - e).toNat + signedInt nb mb * 2 ^ (eb - e).toNat
    ofScaled (if ma = 0 ∧ mb = 0 ∧ na = nb then na else mode == .rd) v e

/-- The operand with its sign changed; a NaN stays as it is. -/
def FVal.neg : FVal → FVal
  | .nan sg => .nan sg
  | .inf n => .inf !n
  | .fin n m e => .fin (!n) m e

/-- a * b (R102). -/
def fmulEx (a b : FVal) : Exact :=
  match a, b with
  | .nan sa, .nan sb => .nan (sa || sb)
  | .nan sa, _ => .nan sa
  | _, .nan sb => .nan sb
  | .inf na, .inf nb => .inf (na != nb)
  | .inf na, .fin nb mb _ => if mb = 0 then .nan true else .inf (na != nb)
  | .fin na ma _, .inf nb => if ma = 0 then .nan true else .inf (na != nb)
  | .fin na ma ea, .fin nb mb eb => if ma * mb = 0 then .zero (na != nb) else .num (na != nb) (ma * mb) (ea + eb) false

/-- A finite exact product as an operand of the final addition. -/
def Exact.toVal : Exact → FVal
  | .nan nv => .nan nv
  | .inf n => .inf n
  | .zero n => .fin n 0 0
  | .num n m e _ => .fin n m e

/-- a * b + c, rounded once (R102, R103): a product of 0 and infinity sets NV whatever c is. -/
def ffmaEx (mode : Rnd) (a b c : FVal) : Exact :=
  match fmulEx a b, c with
  | .nan nv, .nan sc => .nan (nv || sc)
  | p, c => faddEx mode p.toVal c

/-- A value comparison for finite and infinite operands: a < b. -/
def fltVal (a b : FVal) : Bool :=
  match a, b with
  | .nan _, _ => false
  | _, .nan _ => false
  | .inf na, .inf nb => na && !nb
  | .inf na, .fin _ _ _ => na
  | .fin _ _ _, .inf nb => !nb
  | .fin na ma ea, .fin nb mb eb =>
    let e := min ea eb
    decide (signedInt na ma * 2 ^ (ea - e).toNat < signedInt nb mb * 2 ^ (eb - e).toNat)

/-- The sign of an operand that is no NaN. -/
def FVal.isNeg : FVal → Bool
  | .nan _ => false
  | .inf n => n
  | .fin n _ _ => n

/-- a orders below b, with -0 below +0 (R104). -/
def fbelow (a b : FVal) : Bool := fltVal a b || (!fltVal b a && a.isNeg && !b.isNeg)

def FVal.isNan : FVal → Bool
  | .nan _ => true
  | _ => false

def FVal.isSignalling : FVal → Bool
  | .nan sg => sg
  | _ => false

/-- FMIN and FMAX (R104). -/
def Fmt.minmax (f : Fmt) (wantMax : Bool) (x y : Nat) : Nat × Fl :=
  let a := f.decode x
  let b := f.decode y
  let fl := if a.isSignalling || b.isSignalling then flNV else 0
  match a.isNan, b.isNan with
  | true, true => (f.nan, fl)
  | true, false => (y, fl)
  | false, true => (x, fl)
  | false, false => (if fbelow a b != wantMax then x else y, fl)

/-- FCMP (R110): quiet, -0 equals +0. -/
def Fmt.compare (f : Fmt) (cc : Cmp) (x y : Nat) : Bool × Fl :=
  let a := f.decode x
  let b := f.decode y
  let fl := if a.isSignalling || b.isSignalling then flNV else 0
  if a.isNan || b.isNan then (cc == .ne, fl) else
    let lt := fltVal a b
    let gt := fltVal b a
    (match cc with
      | .eq => !lt && !gt
      | .ne => lt || gt
      | .lt => lt
      | .le => !gt
      | .gt => gt
      | .ge => !lt
      | _ => false, fl)

/-- A two-operand operation of R103 in a format. -/
def Fmt.add (f : Fmt) (mode : Rnd) (sat : Bool) (x y : Nat) : Nat × Fl :=
  f.deliver mode sat (faddEx mode (f.decode x) (f.decode y))

def Fmt.sub (f : Fmt) (mode : Rnd) (sat : Bool) (x y : Nat) : Nat × Fl :=
  f.deliver mode sat (faddEx mode (f.decode x) (f.decode y).neg)

def Fmt.mul (f : Fmt) (mode : Rnd) (sat : Bool) (x y : Nat) : Nat × Fl :=
  f.deliver mode sat (fmulEx (f.decode x) (f.decode y))

def Fmt.fma (f : Fmt) (mode : Rnd) (sat : Bool) (x y z : Nat) : Nat × Fl :=
  f.deliver mode sat (ffmaEx mode (f.decode x) (f.decode y) (f.decode z))

/-! Integral rounding. -/

/-- FRND (R108): integral FP32 value; no flag but NV of a signalling NaN. -/
def frnd32 (mode : Rnd) (x : Nat) : Nat × Fl :=
  match fp32.decode x with
  | .nan sg => (fp32.nan, if sg then flNV else 0)
  | .inf neg => (fp32.inf neg, 0)
  | .fin neg m e =>
    if 0 ≤ e then (x, 0) else
      let n := (roundMag mode neg m (-e) false).1
      if n = 0 then (fp32.signed neg 0, 0) else ((fp32.round .rn false neg n 0 false).1, 0)

/-- An FP operand to an integer range (R203): rounded, then clamped with NV (and SAT with .sat). -/
def toIntRange (mode : Rnd) (sat : Bool) (lo hi : Int) : Exact → Int × Fl
  | .nan _ => (0, flNV)
  | .inf neg => (if neg then lo else hi, flNV ||| (if sat then flSAT else 0))
  | .zero _ => (0, 0)
  | .num neg m e sticky =>
    let (n, inexact) := roundMag mode neg m (-e) sticky
    let v := signedInt neg n
    if v < lo then (lo, flNV ||| (if sat then flSAT else 0))
    else if hi < v then (hi, flNV ||| (if sat then flSAT else 0))
    else (v, if inexact then flNX else 0)

/-! The SFU functions (R107): exact values to nearest even, by integer arithmetic with a bound on the error. -/

/-- Newton's integer square root from above. -/
def isqrtLoop : Nat → Nat → Nat → Nat
  | 0, _, x => x
  | k + 1, n, x => let y := (x + n / x) / 2; if y < x then isqrtLoop k n y else x

/-- The floor of the square root. -/
def isqrt (n : Nat) : Nat := if n = 0 then 0 else isqrtLoop 512 n (2 ^ (Nat.log2 n / 2 + 1))

/-- 1 / a. -/
def rcp32 (x : Nat) : Nat × Fl :=
  match fp32.decode x with
  | .nan sg => (fp32.nan, if sg then flNV else 0)
  | .inf neg => (fp32.signed neg 0, 0)
  | .fin neg m e =>
    if m = 0 then (fp32.inf neg, flDZ) else
      let k := Nat.log2 m + 40
      fp32.round .rn false neg (2 ^ k / m) (-(k : Int) - e) (2 ^ k % m != 0)

/-- A finite positive value with an even exponent. -/
def evenExp (m : Nat) (e : Int) : Nat × Int := if e % 2 = 0 then (m, e) else (2 * m, e - 1)

/-- The square root of a. -/
def sqrt32 (x : Nat) : Nat × Fl :=
  match fp32.decode x with
  | .nan sg => (fp32.nan, if sg then flNV else 0)
  | .inf neg => if neg then (fp32.nan, flNV) else (fp32.inf false, 0)
  | .fin neg m e =>
    if m = 0 then (fp32.signed neg 0, 0) else if neg then (fp32.nan, flNV) else
      let (m, e) := evenExp m e
      let n := m * 2 ^ 80
      let r := isqrt n
      fp32.round .rn false false r (e / 2 - 40) (r * r != n)

/-- 1 / the square root of a. -/
def rsqrt32 (x : Nat) : Nat × Fl :=
  match fp32.decode x with
  | .nan sg => (fp32.nan, if sg then flNV else 0)
  | .inf neg => if neg then (fp32.nan, flNV) else (fp32.signed false 0, 0)
  | .fin neg m e =>
    if m = 0 then (fp32.inf neg, flDZ) else if neg then (fp32.nan, flNV) else
      let (m, e) := evenExp m e
      let r := isqrt (2 ^ 120 / m)
      fp32.round .rn false false r (-60 - e / 2) (r * r * m != 2 ^ 120)

/-- Rounding of a value that lies strictly between lo and hi, in units of 2^e: decided when both ends round alike; otherwise the free value of Config (no operand is known to reach it). DEDUCED, unsafe (log 44). DESIGN CHOICE, safe (log 83). -/
def roundBetween (tag x : Nat) (neg : Bool) (lo hi : Nat) (e : Int) : Nat × Fl :=
  let a := fp32.round .rn false neg lo e true
  let b := fp32.round .rn false neg hi e true
  if a = b then a else ((Config.sfuTie tag (BitVec.ofNat 32 x)).toNat, flNX)

/-- 2 to the binary fraction whose next bits are given, by repeated square roots of 2: an interval in units of 2^-128. -/
def exp2Bits : List Bool → Nat → Nat → Nat → Nat → Nat × Nat
  | [], _, _, lo, hi => (lo, hi)
  | b :: bs, slo, shi, lo, hi =>
    let slo := isqrt (slo * 2 ^ 128)
    let shi := isqrt (shi * 2 ^ 128) + 1
    exp2Bits bs slo shi (if b then lo * slo / 2 ^ 128 else lo) (if b then hi * shi / 2 ^ 128 + 1 else hi)

/-- Bits of a fraction below 2^n, most significant first. -/
def fracBits (n x : Nat) : List Bool := (List.range n).map (fun i => x.testBit (n - 1 - i))

/-- 2^a. DEDUCED, unsafe (log 44). -/
def ex2of (x : Nat) : Nat × Fl :=
  match fp32.decode x with
  | .nan sg => (fp32.nan, if sg then flNV else 0)
  | .inf neg => if neg then (0, 0) else (fp32.inf false, 0)
  | .fin neg m e =>
    if m = 0 then (0x3F800000, 0)
    else if 7 < (Nat.log2 m : Int) + e then
      (if neg then fp32.round .rn false false 1 (-1000) true else (fp32.inf false, flOF ||| flNX))
    else if (Nat.log2 m : Int) + e < -27 then
      (if neg then fp32.round .rn false false (2 ^ 60 - 1) (-60) true else fp32.round .rn false false (2 ^ 60) (-60) true)
    else
      let n := signedInt neg m * 2 ^ (e + 64).toNat
      let ip := n / 2 ^ 64
      let fr := (n % 2 ^ 64).toNat
      if fr = 0 then fp32.round .rn false false 1 ip false
      else
        let (lo, hi) := exp2Bits (fracBits 64 fr) (2 ^ 129) (2 ^ 129) (2 ^ 128) (2 ^ 128)
        roundBetween 3 x false lo hi (ip - 128)

/-- Binary digits of log2 y for y in [1, 2) in units of 2^-160, rounding every square by r (0: down, 1: up). -/
def log2Loop : Nat → Nat → Nat → Nat → Nat
  | 0, _, _, acc => acc
  | k + 1, r, y, acc =>
    let z := y * y / 2 ^ 160 + r
    if 2 ^ 161 ≤ z then log2Loop k r (z / 2 + r) (2 * acc + 1) else log2Loop k r z (2 * acc)

/-- log2 a. -/
def lg2of (x : Nat) : Nat × Fl :=
  match fp32.decode x with
  | .nan sg => (fp32.nan, if sg then flNV else 0)
  | .inf neg => if neg then (fp32.nan, flNV) else (fp32.inf false, 0)
  | .fin neg m e =>
    if m = 0 then (fp32.inf true, flDZ) else if neg then (fp32.nan, flNV) else
      let k := Nat.log2 m
      let ip : Int := (k : Int) + e
      if m = 2 ^ k then fp32.deliver .rn false (ofScaled false ip 0)
      else
        let y := m * 2 ^ (160 - k)
        let lo := log2Loop 90 0 y 0
        let hi := log2Loop 90 1 y 0 + 1
        let a := ip * 2 ^ 90 + lo
        let b := ip * 2 ^ 90 + hi
        if 0 ≤ ip then roundBetween 4 x false a.toNat b.toNat (-90)
        else roundBetween 4 x true (-b).toNat (-a).toNat (-90)

/-- The floor of pi * 2^399, that is, of pi / 2 in units of 2^-400. -/
def halfPi : Nat :=
  0x1921fb54442d18469898cc51701b839a252049c1114cf98e804177d4c76273644a29410f31c6809bbdf2a33679a7486366056

/-- Sum of an alternating series whose next term is t * r2 / (j * (j + 1)), in units of 2^-200: positive and negative parts. -/
def altSeries : Nat → Nat → Nat → Nat → Bool → Nat → Nat → Nat × Nat
  | 0, _, _, _, _, p, n => (p, n)
  | k + 1, t, r2, j, sg, p, n =>
    altSeries k (t * r2 / 2 ^ 200 / (j * (j + 1))) r2 (j + 2) (!sg) (if sg then p + t else p) (if sg then n else n + t)

/-- sin r and cos r for r in [0, pi/2), in units of 2^-200, each within 2^10 units. -/
def sinUnits (r : Nat) : Nat := let s := altSeries 40 r (r * r / 2 ^ 200) 2 true 0 0; s.1 - s.2
def cosUnits (r : Nat) : Nat := let s := altSeries 40 (2 ^ 200) (r * r / 2 ^ 200) 1 true 0 0; s.1 - s.2

/-- The sine of (-1)^neg m 2^e shifted by a number of quarter turns. -/
def sinShifted (tag x : Nat) (neg : Bool) (m : Nat) (e : Int) (quarter : Nat) : Nat × Fl :=
  let a := if 0 ≤ e + 400 then m * 2 ^ (e + 400).toNat else m / 2 ^ (-(e + 400)).toNat
  let q := a / halfPi
  let r := (a - q * halfPi) / 2 ^ 200
  let quad := (q + quarter) % 4
  let v := if quad % 2 = 0 then sinUnits r else cosUnits r
  roundBetween tag x (neg != decide (2 ≤ quad)) (v - 2 ^ 10) (v + 2 ^ 10) (-200)

/-- sin a. -/
def sin32 (x : Nat) : Nat × Fl :=
  match fp32.decode x with
  | .nan sg => (fp32.nan, if sg then flNV else 0)
  | .inf _ => (fp32.nan, flNV)
  | .fin neg m e =>
    if m = 0 then (x, 0)
    else if (Nat.log2 m : Int) + e < -13 then fp32.round .rn false neg (m * 2 ^ 40 - 1) (e - 40) true
    else sinShifted 5 x neg m e 0

/-- cos a. -/
def cos32 (x : Nat) : Nat × Fl :=
  match fp32.decode x with
  | .nan sg => (fp32.nan, if sg then flNV else 0)
  | .inf _ => (fp32.nan, flNV)
  | .fin _ m e =>
    if m = 0 then (0x3F800000, 0)
    else if (Nat.log2 m : Int) + e < -13 then fp32.round .rn false false (2 ^ 60 - 1) (-60) true
    else sinShifted 6 x false m e 1

end Sys2Proof.Machine
end

