-- ==== Sys2Proof/Machine/Flags.lean ====
section
/-! DEFINITION. Integer arithmetic shared by the families (R100, R101, R109, R149), and the sticky flags as fpflags shows them (R68). Integer arithmetic sets no flag (R98). -/

namespace Sys2Proof.Machine

/-- Shift counts are read unsigned; a count of the width or more gives zeros, or copies of the sign. -/
def shlBy {n : Nat} (a b : BitVec n) : BitVec n := if n ≤ b.toNat then 0 else a <<< b.toNat
def shrBy {n : Nat} (a b : BitVec n) : BitVec n := if n ≤ b.toNat then 0 else a >>> b.toNat
def sarBy {n : Nat} (a b : BitVec n) : BitVec n := if n ≤ b.toNat then (if a.msb then BitVec.allOnes n else 0) else a.sshiftRight b.toNat

def minS {n : Nat} (a b : BitVec n) : BitVec n := if a.toInt ≤ b.toInt then a else b
def maxS {n : Nat} (a b : BitVec n) : BitVec n := if a.toInt ≤ b.toInt then b else a
def minU {n : Nat} (a b : BitVec n) : BitVec n := if a.toNat ≤ b.toNat then a else b
def maxU {n : Nat} (a b : BitVec n) : BitVec n := if a.toNat ≤ b.toNat then b else a

/-- The high half of a product, both operands unsigned or both signed. -/
def mulHighU {n : Nat} (a b : BitVec n) : BitVec n := BitVec.ofNat n (a.toNat * b.toNat / 2 ^ n)
def mulHighS {n : Nat} (a b : BitVec n) : BitVec n := BitVec.ofInt n (a.toInt * b.toInt / 2 ^ n)

/-- Compare of R86: the first six signed, the u forms unsigned. -/
def cmpInt {n : Nat} (cc : Cmp) (a b : BitVec n) : Bool :=
  match cc with
  | .eq => a == b
  | .ne => a != b
  | .lt => decide (a.toInt < b.toInt)
  | .le => decide (a.toInt ≤ b.toInt)
  | .gt => decide (b.toInt < a.toInt)
  | .ge => decide (b.toInt ≤ a.toInt)
  | .ltu => decide (a.toNat < b.toNat)
  | .leu => decide (a.toNat ≤ b.toNat)
  | .gtu => decide (b.toNat < a.toNat)
  | .geu => decide (b.toNat ≤ a.toNat)

/-- The number of 1 bits. -/
def popCount {n : Nat} (a : BitVec n) : Nat := (List.range n).foldl (fun c i => if a.getLsbD i then c + 1 else c) 0

/-- The number of leading zero bits, n for 0. -/
def leadingZeros {n : Nat} (a : BitVec n) : Nat := if a = 0 then n else n - 1 - Nat.log2 a.toNat

/-- Bit i to bit 31 - i. -/
def bitReverse (a : W32) : W32 := (List.range 32).foldl (fun r i => if a.getLsbD i then r ||| (1#32 <<< (31 - i)) else r) 0

/-- fpflags as MFSR reads it: bits [63:6] zero (R68). -/
def flagsWord (f : Fl) : W64 := f.setWidth 64

end Sys2Proof.Machine
end

