-- ==== Sys2Proof/Machine/Formats.lean ====
section
/-! DEFINITION. Format slots (R227), conversion between formats (R202, R203), the 4-bit block formats (R199, R200, R222-R224) and WFX96 (R225, R226). -/

namespace Sys2Proof.Machine

/-! Format slots. -/

/-- A format slot (R227). -/
structure Slot where
  fmt : Nat
  planes : Nat
  rnd : Rnd
  sat : Bool
  shift : Nat
  sbase : Nat
  deriving DecidableEq, Repr

def rndOf (n : Nat) : Rnd :=
  match n with | 0 => .rn | 1 => .rz | 2 => .ru | 3 => .rd | _ => .rna

/-- The fields of a slot word. -/
def slotOf (w : W64) : Slot :=
  let n := w.toNat
  { fmt := n / 2 ^ 59, planes := n / 2 ^ 55 % 16 + 1, rnd := rndOf (n / 2 ^ 52 % 8), sat := decide (n / 2 ^ 51 % 2 = 1),
    shift := n / 2 ^ 45 % 64, sbase := n % 2 ^ 45 * 4096 }

/-- The type code of FMT 0 to 13. -/
def typeOfFmt (n : Nat) : Option TypeCode :=
  match n with
  | 0 => some .s8 | 1 => some .s16 | 2 => some .s32 | 3 => some .s64 | 4 => some .u8 | 5 => some .u16 | 6 => some .u32
  | 7 => some .u64 | 8 => some .f64 | 9 => some .f32 | 10 => some .f16 | 11 => some .bf16 | 12 => some .e4m3
  | 13 => some .e5m2 | _ => none

def Slot.isBlock (f : Slot) : Bool := decide (14 ≤ f.fmt ∧ f.fmt ≤ 17)
def Slot.isWfx (f : Slot) : Bool := f.fmt == 18
def Slot.type (f : Slot) : Option TypeCode := typeOfFmt f.fmt

/-- The scale address of a block (R229). -/
def Slot.scaleAddr (f : Slot) (a : Nat) : Nat := (f.sbase + a / 2 ^ f.shift) % 2 ^ 57

/-- An FP type's format. -/
def fpType : TypeCode → Option Fmt
  | .f64 => some fp64 | .f32 => some fp32 | .f16 => some fp16 | .bf16 => some bf16 | .e4m3 => some e4m3 | .e5m2 => some e5m2
  | _ => none

/-- An integer type's width and signedness (R217). -/
def intType : TypeCode → Option (Nat × Bool)
  | .s8 => some (8, true) | .s16 => some (16, true) | .s32 => some (32, true) | .s64 => some (64, true)
  | .u8 => some (8, false) | .u16 => some (16, false) | .u32 => some (32, false) | .u64 => some (64, false)
  | _ => none

/-- A type whose operands are register pairs (R90). -/
def isWide : TypeCode → Bool
  | .s64 => true | .u64 => true | .f64 => true | _ => false

/-- Bytes of an element of a type. -/
def typeBytes : TypeCode → Nat
  | .s8 => 1 | .u8 => 1 | .e4m3 => 1 | .e5m2 => 1 | .s16 => 2 | .u16 => 2 | .f16 => 2 | .bf16 => 2 | .s32 => 4 | .u32 => 4
  | .f32 => 4 | .s64 => 8 | .u64 => 8 | .f64 => 8 | .slot => 4

/-- The value of an integer of a width held in low bits. -/
def intValue (bits : Nat) (sgn : Bool) (x : Nat) : Int :=
  let v := x % 2 ^ bits
  if sgn && decide (2 ^ (bits - 1) ≤ v) then (v : Int) - 2 ^ bits else v

def intLo (bits : Nat) (sgn : Bool) : Int := if sgn then -(2 ^ (bits - 1)) else 0
def intHi (bits : Nat) (sgn : Bool) : Int := if sgn then 2 ^ (bits - 1) - 1 else 2 ^ bits - 1

/-- An integer in its type's range as a register value: sub-word results are extended to 32 bits (R202). -/
def intBits (bits : Nat) (v : Int) : Nat := (v % 2 ^ (max bits 32)).toNat

/-- CVT of one value between non-slot types (R203). -/
def convert (mode : Rnd) (sat : Bool) (dt st : TypeCode) (x : Nat) : Nat × Fl :=
  match intType st, fpType st, intType dt, fpType dt with
  | some (sb, ss), _, some (db, ds), _ =>
    let v := intValue sb ss x
    if sat then
      let c := if v < intLo db ds then intLo db ds else if intHi db ds < v then intHi db ds else v
      (intBits db c, if c = v then 0 else flSAT)
    else (intBits db (intValue db ds (v % 2 ^ db).toNat), 0)
  | some (sb, ss), _, none, some f => f.deliver mode sat (ofScaled false (intValue sb ss x) 0)
  | none, some g, some (db, ds), _ =>
    let r := toIntRange mode sat (intLo db ds) (intHi db ds) (g.decode (x % 2 ^ g.bits)).exact
    (intBits db r.1, r.2)
  | none, some g, none, some f => f.deliver mode sat (g.decode (x % 2 ^ g.bits)).exact
  | _, _, _, _ => (0, 0)

/-! 4-bit blocks. -/

/-- Magnitudes of codes 0 to 7 of a block type (R199). -/
def blockMags (ty : Nat) : List Nat :=
  match ty with
  | 0 => [0, 1, 2, 3, 4, 5, 6, 7]
  | 1 => [0, 1, 2, 3, 4, 6, 8, 12]
  | 2 => [0, 1, 2, 4, 8, 16, 32, 64]
  | _ => [0, 1, 2, 3, 4, 5, 8, 16]

/-- Int(TYPE, c) of R223. -/
def blockInt (ty c : Nat) : Int :=
  if ty = 0 then (if c < 8 then (c : Int) else (c : Int) - 16)
  else
    let m : Int := (blockMags ty).getD (c % 8) 0
    if c < 8 then m else -m

/-- Type and exponent of a scale byte. -/
def scaleType (sg : Nat) : Nat := sg / 64 % 4
def scaleExp (sg : Nat) : Nat := sg % 64

/-- The binary exponent of W(sigma) (R223). -/
def scaleWeight (ty e : Nat) : Int := (e : Int) - (if ty = 1 then 33 else 32)

/-- m * 2^k at most n, for naturals. -/
def leScaled (m : Nat) (k : Int) (n : Nat) : Bool := decide (m * 2 ^ k.toNat ≤ n * 2 ^ (-k).toNat)

/-- The smallest e from 0 to 62 that passes a test, 62 when none does. -/
def smallestExp (ok : Nat → Bool) : Nat := ((List.range 63).find? ok).getD 62

/-- The code of a value's magnitude m * 2^k (in units of W) within a type's magnitudes, by a mode: index, clamped, inexact (R200). -/
def blockPick (mode : Rnd) (neg : Bool) (mags : List Nat) (m : Nat) (k : Int) : Nat × Bool × Bool :=
  let num := m * 2 ^ k.toNat
  let den := 2 ^ (-k).toNat
  let below := (mags.filter (fun x => decide (x * den ≤ num))).length - 1
  let lo := mags.getD below 0 * den
  if lo = num then (below, false, false)
  else if below = 7 then (7, true, true)
  else
    let hi := mags.getD (below + 1) 0 * den
    let a := num - lo
    let b := hi - num
    let up := match mode with
      | .rz => false
      | .ru => !neg
      | .rd => neg
      | .rn => decide (b < a) || (a == b && below % 2 == 1)
      | .rna => decide (b ≤ a)
    (if up then below + 1 else below, false, true)

/-- The signed code of a magnitude index. -/
def blockCode (ty : Nat) (neg : Bool) (i : Nat) : Nat :=
  if i = 0 then 0 else if neg then (if ty = 0 then 16 - i else 8 + i) else i

/-- Codes of a type are its largest magnitude 7, 12, 64 or 16 (R200). -/
def blockMax (ty : Nat) : Nat := (blockMags ty).getD 7 0

/-- PACK4 of 32 FP32 values (none: a lane not enabled): the scale byte, and code and flags of every element (R200). -/
def pack4 (ty : Nat) (mode : Rnd) (xs : List (Option Nat)) : Nat × List (Nat × Fl) :=
  let vals := xs.map (fun x => fp32.decode (x.getD 0))
  let bad := xs.any (fun x => match x with
    | some x => (match fp32.decode x with | .fin _ _ _ => false | _ => true)
    | none => false)
  if bad then
    (64 * ty + 63, vals.map (fun v => match v with | .fin _ _ _ => (0, 0) | _ => (0, flNV)))
  else
    let fits := fun e => vals.all (fun v => match v with
      | .fin _ m k => leScaled m (k - scaleWeight ty e) (blockMax ty)
      | _ => true)
    let allZero := vals.all (fun v => match v with | .fin _ m _ => m == 0 | _ => true)
    let e := if allZero then 0 else smallestExp fits
    (64 * ty + e, vals.map (fun v => match v with
      | .fin neg m k =>
        if m = 0 then (0, 0) else
          let r := blockPick mode neg (blockMags ty) m (k - scaleWeight ty e)
          (blockCode ty neg r.1, (if r.2.1 then flSAT else 0) ||| (if r.2.2 then flNX else 0))
      | _ => (0, 0)))

/-- The FP32 value of a block element, exact; the canonical NaN with NV for an invalid block (R201, R223). -/
def blockValue (sg c : Nat) : Nat × Fl :=
  if scaleExp sg = 63 then (fp32.nan, flNV)
  else ((fp32.deliver .rn false (ofScaled false (blockInt (scaleType sg) c) (scaleWeight (scaleType sg) (scaleExp sg)))).1, 0)

/-! WFX96. -/

def wfxMax : Int := 2 ^ 95 - 1
def wfxInvalid : Int := -(2 ^ 95)

/-- Clamp of R226. -/
def wfxClamp (y : Int) : Int × Fl :=
  if wfxMax < y then (wfxMax, flSAT) else if y < -wfxMax then (-wfxMax, flSAT) else (y, 0)

/-- Nearest-even rounding of (-1)^neg m 2^e to an integer, with inexactness. -/
def roundNE (neg : Bool) (m : Nat) (e : Int) : Int × Bool :=
  let r := roundMag .rn neg m (-e) false
  (signedInt neg r.1, r.2)

/-- ToWfx of R226. -/
def toWfx (lam : Nat) : Exact → Int × Fl
  | .nan _ => (wfxInvalid, flNV)
  | .inf _ => (wfxInvalid, flNV)
  | .zero _ => (0, 0)
  | .num neg m e _ =>
    let r := roundNE neg m (e + lam)
    let c := wfxClamp r.1
    (c.1, c.2 ||| (if r.2 then flNX else 0))

/-- AddWfx of R226. -/
def addWfx (a b : Int) : Int × Fl :=
  if a = wfxInvalid ∨ b = wfxInvalid then (wfxInvalid, flNV) else wfxClamp (a + b)

/-- FromWfx of R226; an invalid mark gives the canonical NaN with NV (R193). -/
def fromWfx (f : Fmt) (mode : Rnd) (sat : Bool) (lam : Nat) (v : Int) : Nat × Fl :=
  if v = wfxInvalid then (f.nan, flNV) else f.deliver mode sat (ofScaled false v (-(lam : Int)))

/-- A 96-bit two's-complement pattern as an integer, and back. -/
def wfxOfBits (x : Nat) : Int := intValue 96 true x
def wfxBits (v : Int) : Nat := (v % 2 ^ 96).toNat

/-! Plane rows (R185, R198, R199). -/

/-- A value clamped to p-bit two's complement; SAT when it was outside. -/
def clampP (p : Nat) (v : Int) : Int × Fl :=
  if v < intLo p true then (intLo p true, flSAT) else if intHi p true < v then (intHi p true, flSAT) else (v, 0)

/-- Round(v × 2^(32 − e)) of a finite value. -/
def scaledInt (mode : Rnd) (e : Nat) (neg : Bool) (m : Nat) (k : Int) : Int × Bool :=
  let r := roundMag mode neg m (-(k + 32 - e)) false
  (signedInt neg r.1, r.2)

/-- The scale byte and the integers of one row of one block, lanes not enabled supplying none (R198): sg is the block's own scale byte, which a block format reads. -/
def packRow (f : Slot) (xs : List (Option Nat)) (sg : Nat) : Nat × List (Int × Fl) :=
  let p := f.planes
  if f.isBlock then
    (sg, xs.map (fun x => match x with
      | some c => if scaleExp sg = 63 then (0, 0) else clampP p (blockInt (scaleType sg) (c % 16))
      | none => (0, 0)))
  else match f.type with
  | none => (0, xs.map (fun _ => (0, 0)))
  | some t =>
    match intType t, fpType t with
    | some (bits, sgn), _ =>
      (0x20, xs.map (fun x => match x with
        | some v => clampP p (intValue bits sgn (v % 2 ^ bits))
        | none => (0, 0)))
    | none, some g =>
      let vals := xs.map (fun x => x.map (fun v => g.decode (v % 2 ^ g.bits)))
      let odd := vals.any (fun v => match v with | some (.fin _ _ _) => false | none => false | _ => true)
      if odd then
        (63, vals.map (fun v => match v with | some (.fin _ _ _) => (0, 0) | none => (0, 0) | _ => (0, flNV)))
      else
        let zero := vals.all (fun v => match v with | some (.fin _ m _) => m == 0 | _ => true)
        let fits := fun e => vals.all (fun v => match v with
          | some (.fin neg m k) => decide ((scaledInt f.rnd e neg m k).1.natAbs ≤ 2 ^ (p - 1) - 1)
          | _ => true)
        let e := if zero then 0 else smallestExp fits
        (e, vals.map (fun v => match v with
          | some (.fin neg m k) =>
            let x := scaledInt f.rnd e neg m k
            let c := clampP p x.1
            (c.1, c.2 ||| (if x.2 || c.2 != 0 then flNX else 0))
          | _ => (0, 0)))
    | none, none => (0, xs.map (fun _ => (0, 0)))

/-- The word of plane j: bit l is bit j of lane l's integer. -/
def planeWord (xs : List Int) (j : Nat) : Nat :=
  ((xs.zipIdx).map (fun e => if (e.1 % 2 ^ (j + 1)).toNat / 2 ^ j % 2 = 1 then 2 ^ e.2 else 0)).sum

/-- The integer that bit l of the plane words gives. -/
def unplane (words : List Nat) (l : Nat) : Int :=
  let x := ((words.zipIdx).map (fun e => if e.1.testBit l then 2 ^ e.2 else 0)).sum
  intValue words.length true x

/-- What UNPACKP gives a lane: the integer for an integer slot, else its FP32 value under the scale byte (R199). -/
def unpackValue (f : Slot) (sg : Nat) (x : Int) : Nat × Fl :=
  match f.type.bind intType with
  | some _ => ((x % 2 ^ 32).toNat, 0)
  | none =>
    if scaleExp sg = 63 then (fp32.nan, flNV)
    else ((fp32.deliver .rn false (ofScaled false x (scaleWeight (scaleType sg) (scaleExp sg)))).1, 0)

end Sys2Proof.Machine
end

