-- ==== Sys2Proof/WellFormed.lean ====
section
/-! DEFINITION. The checks of R86 to R92 that depend on the word alone (R95 orders 1 and 5). -/

namespace Sys2Proof

/-- GUARD 0b1111 is illegal (R81). -/
def Head.wf (h : Head) : Bool := h.guard != 0xF#4

/-- A vector register outside any group: not a queue specifier (R91). -/
def regOk (r : BitVec 8) : Bool := r.toNat < 254

/-- A register pair (R90). -/
def pairOk (r : BitVec 8) : Bool := r.toNat % 2 == 0 && r.toNat < 254

/-- A register quad (R90). -/
def quadOk (r : BitVec 8) : Bool := r.toNat % 4 == 0 && r.toNat + 3 < 254

/-- A 32-bit destination of classes 1 to 3: qm but not qa (R91). -/
def dstOk (r : BitVec 8) : Bool := r.toNat != 254

/-- A 32-bit value operand of classes 1 to 3: qa but not qm (R91). -/
def Src.ok : Src → Bool
  | .v r => r.toNat != 255
  | .s _ => true

/-- A value operand that may not name a queue (packed 16-bit operands, R97's table; MTSR; PACKP). -/
def Src.plain : Src → Bool
  | .v r => regOk r
  | .s _ => true

/-- A 64-bit value operand (R90). -/
def Src.pair : Src → Bool
  | .v r => pairOk r
  | .s _ => true

/-- Scopes 000 to 010, which scratch accepts (R138, R147, R162). -/
def Scope.narrow : Scope → Bool
  | .th | .wp | .wg => true
  | .cl | .die | .dev | .sys => false

/-- IDX names a vector register, or is 0xFF with SCL 000 (R88). -/
def idxOk (idx : BitVec 8) (scl : Scl) : Bool := regOk idx || (idx == 0xFF#8 && scl == .x1)

def MemOp.wf (m : MemOp) : Bool := idxOk m.idx m.scl

/-- The data registers of a load or store of width w (R90, R138). -/
def dataOk (w : Width) (d : BitVec 8) : Bool :=
  match w with
  | .u8 | .s8 | .u16 | .s16 | .w32 => regOk d
  | .w64 => pairOk d
  | .w128 => quadOk d
  | .w256 => false

/-- The widths a store accepts (R138). -/
def Width.storeOk : Width → Bool
  | .u8 | .u16 | .w32 | .w64 | .w128 => true
  | .s8 | .s16 | .w256 => false

def AMem.wf (m : AMem) : Bool := idxOk m.idx m.scl && (!m.scr || m.sc.narrow)

/-- An operand of an atomic: a pair for .64 (R147). -/
def AMem.regOk (m : AMem) (r : BitVec 8) : Bool := if m.wide then pairOk r else Sys2Proof.regOk r

/-- Comparison codes that FP compares accept (R86). -/
def Cmp.fp : Cmp → Bool
  | .eq | .ne | .lt | .le | .gt | .ge => true
  | .ltu | .leu | .gtu | .geu => false

/-- Types held in register pairs (R90). -/
def TypeCode.wide : TypeCode → Bool
  | .s64 | .u64 | .f64 => true
  | _ => false

def cvtDstOk (t : TypeCode) (d : BitVec 8) : Bool := if t.wide then pairOk d else dstOk d

def cvtSrcOk (t : TypeCode) (a : Src) : Bool := if t.wide then a.pair else a.ok

/-- R202's checks of a CVT word. -/
def cvtOk (rnd : Rnd) (sat : Bool) (dt st : TypeCode) (fs : BitVec 3) : Bool :=
  if dt == .slot || st == .slot then dt != st && rnd == .rn && !sat else fs == 0#3

/-- Selectors whose value is per thread (R67, R211). -/
def selPerThread (sel : BitVec 8) : Bool := sel.toNat == 0 || sel.toNat == 7 || sel.toNat == 8 || sel.toNat == 9

/-- Selectors of 64 bits (R67). -/
def selWide (sel : BitVec 8) : Bool := sel.toNat == 0x0C || sel.toNat == 0x0D || sel.toNat == 0x0E

def MDst.wf (d : MDst) (sel : BitVec 8) : Bool :=
  match d with
  | .v r => if selWide sel then pairOk r else regOk r
  | .s _ => !selPerThread sel

/-- An instruction word; the other constructors are events. DEDUCED, safe (log 80). -/
def Instr.isWord : Instr → Bool
  | .nop _ | .bra _ _ | .bnz _ _ _ | .bz _ _ _ | .call _ _ _ | .ret _ _ | .exit _ | .tcall _ _ | .tcallW _ _
  | .tret _ | .tquit _ | .tstat _ _ _ | .tstatCancel _ _ | .tbar _ | .sMov _ _ _ | .movh _ _ _ | .sIadd _ _ _ _
  | .sIsub _ _ _ _ | .sMul _ _ _ _ | .sMulhu _ _ _ _ | .sAnd _ _ _ _ | .sOr _ _ _ _ | .sXor _ _ _ _ | .sShl _ _ _ _
  | .sShr _ _ _ _ | .sSar _ _ _ _ | .sMin _ _ _ _ | .sMax _ _ _ _ | .sset _ _ _ _ _ | .sPopc _ _ _ | .sClz _ _ _
  | .mov _ _ _ | .movImm _ _ _ | .iadd _ _ _ _ | .iaddImm _ _ _ _ | .isub _ _ _ _ | .isubImm _ _ _ _ | .mul _ _ _ _
  | .mulImm _ _ _ _ | .mulhu _ _ _ _ | .mulhuImm _ _ _ _ | .mulhi _ _ _ _ | .mulhiImm _ _ _ _ | .imad _ _ _ _ _
  | .and _ _ _ _ | .andImm _ _ _ _ | .or _ _ _ _ | .orImm _ _ _ _ | .xor _ _ _ _ | .xorImm _ _ _ _ | .shl _ _ _ _
  | .shlImm _ _ _ _ | .shr _ _ _ _ | .shrImm _ _ _ _ | .sar _ _ _ _ | .sarImm _ _ _ _ | .min _ _ _ _ _
  | .max _ _ _ _ _ | .sel _ _ _ _ _ | .popc _ _ _ | .clz _ _ _ | .brev _ _ _ | .fadd _ _ _ _ _ _ | .fsub _ _ _ _ _ _
  | .fmul _ _ _ _ _ _ | .ffma _ _ _ _ _ _ _ | .fmin _ _ _ _ | .fmax _ _ _ _ | .faddF64 _ _ _ _ _ _
  | .fsubF64 _ _ _ _ _ _ | .fmulF64 _ _ _ _ _ _ | .ffmaF64 _ _ _ _ _ _ _ | .fminF64 _ _ _ _ | .fmaxF64 _ _ _ _
  | .hadd2 _ _ _ _ _ _ _ | .hsub2 _ _ _ _ _ _ _ | .hmul2 _ _ _ _ _ _ _ | .hfma2 _ _ _ _ _ _ _ _ | .hmin2 _ _ _ _ _
  | .hmax2 _ _ _ _ _ | .rcp _ _ _ _ | .rsqrt _ _ _ _ | .sqrt _ _ _ _ | .ex2 _ _ _ _ | .lg2 _ _ _ _ | .sin _ _ _ _
  | .cos _ _ _ _ | .frnd _ _ _ _ _ | .cvt _ _ _ _ _ _ _ _ _ | .pack4 _ _ _ _ _ | .unpack4 _ _ _ _ _ | .icmp _ _ _ _ _
  | .icmpImm _ _ _ _ _ | .fcmp _ _ _ _ _ | .fcmpF64 _ _ _ _ _ | .pcomb _ _ _ _ _ | .shflXor _ _ _ _ _
  | .shflUp _ _ _ _ _ | .shflDown _ _ _ _ _ | .shflIdx _ _ _ _ _ | .shflIdxReg _ _ _ _ _ | .voteAll _ _ _ _
  | .voteAny _ _ _ _ | .voteBallot _ _ _ _ | .scan _ _ _ _ _ _ | .redux _ _ _ _ _ | .ld _ _ _ _ _ _
  | .ldScr _ _ _ _ _ _ | .ldCon _ _ _ _ _ | .ldPrv _ _ _ _ _ | .st _ _ _ _ _ _ | .copyStart _ _ _ _ _
  | .stScr _ _ _ _ _ _ | .stPrv _ _ _ _ _ | .lds _ _ _ _ _ _ | .atomAdd _ _ _ _ _ | .atomMin _ _ _ _ _
  | .atomMax _ _ _ _ _ | .atomMinu _ _ _ _ _ | .atomMaxu _ _ _ _ _ | .atomAnd _ _ _ _ _ | .atomOr _ _ _ _ _
  | .atomXor _ _ _ _ _ | .atomExch _ _ _ _ _ | .atomCas _ _ _ _ _ _ | .atomFadd _ _ _ _ _ | .redAdd _ _ _ _
  | .redMin _ _ _ _ | .redMax _ _ _ _ | .redFadd _ _ _ _ | .redOr _ _ _ _ | .fence _ _ _ | .acq _ _ _ | .rel _ _ _
  | .relN _ _ _ _ _ _ | .bar _ _ _ | .barArrive _ _ _ | .barWait _ _ _ | .pbarArrive _ _ _ | .pbarWait _ _ _
  | .mwait _ _ _ _ _ _ _ _ _ | .cwait _ _ _ _ _ | .cwaitTile _ _ _ _ _ | .ctest _ _ _ _ _ _ | .ctestTile _ _ _ _ _ _
  | .publish _ _ _ _ _ _ | .tdef _ _ _ _ _ _ | .twait _ _ _ | .tfree _ _ | .mldb _ _ | .mmaP _ _ _ _ | .mclr _ _
  | .mscl _ _ | .accst _ _ _ _ | .accld _ _ _ _ | .accq _ _ | .mbarArrive _ | .mbarWait _ | .mloop _ _ | .mend
  | .packp _ _ _ _ _ _ | .unpackp _ _ _ _ _ _ | .mfsr _ _ _ | .mtsr _ _ _ | .yield _ _ _ | .syscall _ _ | .trap _ _
  | .brk _ _ | .ipf _ _ _ _ | .regq _ _ _ _ | .cctlWb _ _ _ _ | .cctlInv _ _ _ _ | .cctlWbinv _ _ _ _ | .qstat _ _ _ => true
  | .clauseStart _ _ | .longLatencyCompletion _ _ | .accessPerform _ _ | .icacheMissFill _ | .watchdogFault _
  | .quotaTransferApply _ | .workgroupDeadlock _ | .sequencerTaskLoad _ | .monitorWake _ | .monitorEntryArm _
  | .monitorSwapOut _ | .clusterRequeue _ | .diffApply _ | .diffAck _ | .lockHandoffReceive _ | .bteChunkStart _ _
  | .chunkComplete _ _ | .copyFault _ _ | .tileDrainDone _ | .publishSwitch _ | .pageRetire _ _ | .rtailWrite _ _ _
  | .ringEntryAdmit _ _ | .haltClear _ _ | .gridEligible _ | .clusterPull _ _ _ | .starvationPreempt _
  | .gridComplete _ | .preRequest _ | .clusterSave _ | .clusterRestore _ _ _ _ | .trapRecordEnqueue _ | .replay _
  | .skip _ | .jump _ _ | .endRecord _ | .answer _ | .singleStep _ _ | .growFaultService _ _ | .farPageFault _ _
  | .swapComplete _ | .ctmigBringNear _ _ | .ctmigMoveFar _ _ | .ctmigOffline _ _ | .ctmigReserved _ _ | .tlbinv _ _
  | .tlbinvComplete _ | .contextEnable _ _ | .contextDisable _ _ | .ogctlGo _ _ | .drainingMarkAck _ _
  | .ogDrainDone _ | .ogDrainTimeout _ | .ogDarkTimer _ | .ogTrainUp _ _ | .ogTrainTimeout _ | .ogMappingDone _
  | .moduleReset _ | .registerWrite _ _ | .scarabWrite _ _ | .bflipSetCtx _ | .bflipToHost _ | .bflipToDev _
  | .bflipReserved _ | .d2hDrainComplete _ | .h2dDrainComplete _ | .biasSnoopTimeout _ | .memrd _ _ | .memwr _ _
  | .birsp _ _ _ | .bisnpdataMonitor _ | .poolBisnpinv _ | .poolBisnpdata _ | .linkDown _ _ | .meshLinkFail _ _
  | .cdieFence _ | .poisonErrorEvict _ _ _ _ | .reductionContribution _ _ _ | .reductionTimeout _ | .measext _
  | .meassel _ | .attcmdGo _ | .quoteDone | .pwrreq _ | .powerCapThrottle | .fireflyBeacon | .retm _
  | .uncorrectableError _ | .linkRetrain _ _ | .peerTransaction _ _ _ _ => false

/-- The top two bits of a 64-bit command register. -/
def cmdOp (x : W64) : Nat := x.toNat / 2 ^ 62

/-- The static checks of a word, and the ranges of an event's operands. DEDUCED, unsafe (log 6). -/
def Instr.wf : Instr → Bool
  | .nop h | .exit h | .tret h | .tquit h | .tbar h => h.wf
  | .bra h _ | .bnz h _ _ | .bz h _ _ => h.wf
  | .call h lv _ => h.wf && pairOk lv
  | .ret h lv => h.wf && pairOk lv
  | .tcall h _ | .tcallW h _ | .tstat h _ _ | .tstatCancel h _ => h.wf
  | .sMov h _ _ | .movh h _ _ => h.wf
  | .sIadd h _ _ _ | .sIsub h _ _ _ | .sMul h _ _ _ | .sMulhu h _ _ _ | .sAnd h _ _ _ | .sOr h _ _ _ | .sXor h _ _ _
  | .sShl h _ _ _ | .sShr h _ _ _ | .sSar h _ _ _ | .sMin h _ _ _ | .sMax h _ _ _ => h.wf
  | .sset h _ _ _ _ | .sPopc h _ _ | .sClz h _ _ => h.wf
  | .mov h d a | .popc h d a | .clz h d a | .brev h d a => h.wf && dstOk d && a.ok
  | .movImm h d _ => h.wf && dstOk d
  | .iadd h d a b | .isub h d a b | .mul h d a b | .mulhu h d a b | .mulhi h d a b | .and h d a b | .or h d a b
  | .xor h d a b | .shl h d a b | .shr h d a b | .sar h d a b => h.wf && dstOk d && a.ok && b.ok
  | .iaddImm h d a _ | .isubImm h d a _ | .mulImm h d a _ | .mulhuImm h d a _ | .mulhiImm h d a _ | .andImm h d a _
  | .orImm h d a _ | .xorImm h d a _ | .shlImm h d a _ | .shrImm h d a _ | .sarImm h d a _ => h.wf && dstOk d && a.ok
  | .imad h d a b c => h.wf && dstOk d && a.ok && b.ok && c.ok
  | .min h _ d a b | .max h _ d a b => h.wf && dstOk d && a.ok && b.ok
  | .sel h d a b _ => h.wf && dstOk d && a.ok && b.ok
  | .fadd h _ _ d a b | .fsub h _ _ d a b | .fmul h _ _ d a b => h.wf && dstOk d && a.ok && b.ok
  | .ffma h _ _ d a b c => h.wf && dstOk d && a.ok && b.ok && c.ok
  | .fmin h d a b | .fmax h d a b => h.wf && dstOk d && a.ok && b.ok
  | .faddF64 h _ _ d a b | .fsubF64 h _ _ d a b | .fmulF64 h _ _ d a b => h.wf && pairOk d && a.pair && b.pair
  | .ffmaF64 h _ _ d a b c => h.wf && pairOk d && a.pair && b.pair && c.pair
  | .fminF64 h d a b | .fmaxF64 h d a b => h.wf && pairOk d && a.pair && b.pair
  | .hadd2 h _ _ _ d a b | .hsub2 h _ _ _ d a b | .hmul2 h _ _ _ d a b => h.wf && dstOk d && a.plain && b.plain
  | .hfma2 h _ _ _ d a b c => h.wf && dstOk d && a.plain && b.plain && c.plain
  | .hmin2 h _ d a b | .hmax2 h _ d a b => h.wf && dstOk d && a.plain && b.plain
  | .rcp h _ d a | .rsqrt h _ d a | .sqrt h _ d a | .ex2 h _ d a | .lg2 h _ d a | .sin h _ d a | .cos h _ d a
  | .frnd h _ _ d a => h.wf && dstOk d && a.ok
  | .cvt h _ rnd sat dt sty fs d a => h.wf && cvtOk rnd sat dt sty fs && cvtDstOk dt d && cvtSrcOk sty a
  | .pack4 h _ d a _ | .unpack4 h _ d a _ => h.wf && dstOk d && a.ok
  | .icmp h _ _ a b => h.wf && a.ok && b.ok
  | .icmpImm h _ _ a _ => h.wf && a.ok
  | .fcmp h cc _ a b => h.wf && cc.fp && a.ok && b.ok
  | .fcmpF64 h cc _ a b => h.wf && cc.fp && a.pair && b.pair
  | .pcomb h _ _ _ _ => h.wf
  | .shflXor h _ d a _ | .shflUp h _ d a _ | .shflDown h _ d a _ | .shflIdx h _ d a _ => h.wf && regOk d && regOk a
  | .shflIdxReg h _ d a b => h.wf && regOk d && regOk a && regOk b
  | .voteAll h _ _ _ | .voteAny h _ _ _ | .voteBallot h _ _ _ => h.wf
  | .scan h _ _ _ d a => h.wf && regOk d && regOk a
  | .redux h _ _ _ a => h.wf && regOk a
  | .ld h _ w _ d m => h.wf && m.wf && dataOk w d
  | .ldScr h _ w sc d m => h.wf && m.wf && dataOk w d && sc.narrow
  | .ldCon h _ w d m | .ldPrv h _ w d m => h.wf && m.wf && dataOk w d
  | .st h _ w _ d m => h.wf && m.wf && dataOk w d && w.storeOk
  | .stScr h _ w sc d m => h.wf && m.wf && dataOk w d && w.storeOk && sc.narrow
  | .stPrv h _ w d m => h.wf && m.wf && dataOk w d && w.storeOk
  | .copyStart h _ s _ _ => h.wf && s.toNat % 4 == 0 && s != 0#6
  | .lds h _ _ _ _ _ => h.wf
  | .atomAdd h _ m d b | .atomMin h _ m d b | .atomMax h _ m d b | .atomMinu h _ m d b | .atomMaxu h _ m d b
  | .atomAnd h _ m d b | .atomOr h _ m d b | .atomXor h _ m d b | .atomExch h _ m d b =>
    h.wf && m.wf && m.regOk d && m.regOk b
  | .atomCas h _ m d b c => h.wf && m.wf && m.regOk d && m.regOk b && m.regOk c
  | .atomFadd h _ m d b => h.wf && m.wf && !m.wide && regOk d && regOk b
  | .redAdd h _ m d | .redMin h _ m d | .redMax h _ m d | .redOr h _ m d => h.wf && m.wf && m.regOk d
  | .redFadd h _ m d => h.wf && m.wf && !m.wide && regOk d
  | .fence h _ _ | .acq h _ _ | .rel h _ _ => h.wf
  | .relN h _ wide d _ _ => h.wf && (if wide then pairOk d else regOk d)
  | .bar h _ _ | .barArrive h _ _ | .barWait h _ _ | .pbarArrive h _ _ | .pbarWait h _ _ => h.wf
  | .mwait h _ scr _ sc _ _ _ _ => h.wf && sc != .sys && (!scr || sc.narrow)
  | .cwait h _ _ _ _ | .cwaitTile h _ _ _ _ | .ctest h _ _ _ _ _ | .ctestTile h _ _ _ _ _ => h.wf
  | .publish h _ sc _ _ _ => h.wf && (sc == .die || sc == .dev || sc == .sys)
  | .tdef h _ _ _ _ _ | .twait h _ _ | .tfree h _ => h.wf
  | .mldb _ _ | .mscl _ _ | .accst _ _ _ _ | .accld _ _ _ _ | .accq _ _ | .mbarArrive _ | .mbarWait _ | .mend => true
  | .mmaP acc _ _ _ => acc.toNat % 4 == 0
  | .mclr acc km1 => acc.toNat + km1.toNat < 8
  | .mloop _ imm => imm.msb
  | .packp h _ a _ _ _ => h.wf && a.plain
  | .unpackp h _ d _ _ _ => h.wf && regOk d
  | .mfsr h d sr => h.wf && d.wf sr
  | .mtsr h _ a => h.wf && a.plain
  | .yield h d _ => h.wf && d != 0#8
  | .syscall h _ | .trap h _ | .brk h _ => h.wf
  | .ipf h _ _ _ | .regq h _ _ _ => h.wf
  | .cctlWb h _ _ _ | .cctlInv h _ _ _ | .cctlWbinv h _ _ _ => h.wf
  | .qstat h _ _ => h.wf
  | .clauseStart core slice => core < 192 && slice < 4
  | .clusterPull _ group _ | .clusterRestore _ _ group _ => group < 3
  | .trapRecordEnqueue core | .replay core | .skip core | .jump core _ | .endRecord core | .answer core => core < 192
  | .bflipSetCtx x | .ctmigBringNear _ x => cmdOp x == 0
  | .bflipToHost x | .ctmigMoveFar _ x => cmdOp x == 1
  | .bflipToDev x | .ctmigOffline _ x => cmdOp x == 2
  | .bflipReserved x | .ctmigReserved _ x => cmdOp x == 3
  | .contextEnable _ x => x.getLsbD 0
  | .contextDisable _ x => !x.getLsbD 0
  | .ogctlGo g x => g < 12 && x.getLsbD 7
  | .drainingMarkAck g core => g < 12 && core < 192
  | .ogDrainDone g | .ogDrainTimeout g | .ogDarkTimer g | .ogTrainUp g _ | .ogTrainTimeout g | .ogMappingDone g => g < 12
  | .linkDown g link | .linkRetrain g link => g < 12 && link < 2
  | .peerTransaction g port _ _ => g < 12 && port < 4
  | .attcmdGo x => x.getLsbD 0
  | .longLatencyCompletion _ _ | .accessPerform _ _ | .icacheMissFill _ | .watchdogFault _ | .quotaTransferApply _
  | .workgroupDeadlock _ | .sequencerTaskLoad _ | .monitorWake _ | .monitorEntryArm _ | .monitorSwapOut _
  | .clusterRequeue _ | .diffApply _ | .diffAck _ | .lockHandoffReceive _ | .bteChunkStart _ _ | .chunkComplete _ _
  | .copyFault _ _ | .tileDrainDone _ | .publishSwitch _ | .pageRetire _ _ | .rtailWrite _ _ _ | .ringEntryAdmit _ _
  | .haltClear _ _ | .gridEligible _ | .starvationPreempt _ | .gridComplete _ | .preRequest _ | .clusterSave _
  | .singleStep _ _ | .growFaultService _ _ | .farPageFault _ _ | .swapComplete _ | .tlbinv _ _ | .tlbinvComplete _
  | .d2hDrainComplete _ | .h2dDrainComplete _ | .biasSnoopTimeout _ | .memrd _ _ | .memwr _ _ | .birsp _ _ _
  | .bisnpdataMonitor _ | .poolBisnpinv _ | .poolBisnpdata _ | .meshLinkFail _ _ | .cdieFence _
  | .poisonErrorEvict _ _ _ _ | .reductionContribution _ _ _ | .reductionTimeout _ | .moduleReset _ | .measext _
  | .meassel _ | .quoteDone | .pwrreq _ | .powerCapThrottle | .fireflyBeacon | .retm _ | .registerWrite _ _
  | .uncorrectableError _ | .scarabWrite _ _ => true

end Sys2Proof
end

