-- ==== Sys2Proof/Decode.lean ====
section
/-! DEFINITION. The encodings of R74 and R81 to R93: the encoder, the clause header, and the decoder, which reads a word's fields and accepts it exactly when they encode the same word and pass the checks. -/

namespace Sys2Proof

/-! Coded fields (R55, R86). -/

def Scope.code : Scope → BitVec 3
  | .th => 0 | .wp => 1 | .wg => 2 | .cl => 3 | .die => 4 | .dev => 5 | .sys => 6

def Scope.ofCode (c : BitVec 3) : Option Scope :=
  match c.toNat with
  | 0 => some .th | 1 => some .wp | 2 => some .wg | 3 => some .cl | 4 => some .die | 5 => some .dev | 6 => some .sys
  | _ => none

def Width.code : Width → BitVec 3
  | .u8 => 0 | .s8 => 1 | .u16 => 2 | .s16 => 3 | .w32 => 4 | .w64 => 5 | .w128 => 6 | .w256 => 7

def Width.ofCode (c : BitVec 3) : Width :=
  match c.toNat with
  | 0 => .u8 | 1 => .s8 | 2 => .u16 | 3 => .s16 | 4 => .w32 | 5 => .w64 | 6 => .w128 | _ => .w256

def Rnd.code : Rnd → BitVec 3
  | .rn => 0 | .rz => 1 | .ru => 2 | .rd => 3 | .rna => 4

def Rnd.ofCode (c : BitVec 3) : Option Rnd :=
  match c.toNat with
  | 0 => some .rn | 1 => some .rz | 2 => some .ru | 3 => some .rd | 4 => some .rna | _ => none

def Cmp.code : Cmp → BitVec 4
  | .eq => 0 | .ne => 1 | .lt => 2 | .le => 3 | .gt => 4 | .ge => 5 | .ltu => 6 | .leu => 7 | .gtu => 8 | .geu => 9

def Cmp.ofCode (c : BitVec 4) : Option Cmp :=
  match c.toNat with
  | 0 => some .eq | 1 => some .ne | 2 => some .lt | 3 => some .le | 4 => some .gt | 5 => some .ge | 6 => some .ltu
  | 7 => some .leu | 8 => some .gtu | 9 => some .geu | _ => none

def Scl.code : Scl → BitVec 3
  | .x1 => 0 | .x2 => 1 | .x4 => 2 | .x8 => 3 | .x16 => 4

def Scl.ofCode (c : BitVec 3) : Option Scl :=
  match c.toNat with
  | 0 => some .x1 | 1 => some .x2 | 2 => some .x4 | 3 => some .x8 | 4 => some .x16 | _ => none

def PredOp.code : PredOp → BitVec 2
  | .and => 0 | .or => 1 | .xor => 2 | .andn => 3

def PredOp.ofCode (c : BitVec 2) : PredOp :=
  match c.toNat with
  | 0 => .and | 1 => .or | 2 => .xor | _ => .andn

/-- SUB[4] and SUB[2:0] of a fold (R115). -/
def FoldOp.code : FoldOp → Bool × BitVec 3
  | .add => (false, 0) | .min => (false, 1) | .max => (false, 2) | .minu => (true, 1) | .maxu => (true, 2)
  | .and => (false, 3) | .or => (false, 4) | .xor => (false, 5)

def FoldOp.ofCode (u : Bool) (c : BitVec 3) : Option FoldOp :=
  match u, c.toNat with
  | false, 0 => some .add | false, 1 => some .min | false, 2 => some .max | true, 1 => some .minu | true, 2 => some .maxu
  | false, 3 => some .and | false, 4 => some .or | false, 5 => some .xor | _, _ => none

def TypeCode.code : TypeCode → BitVec 4
  | .s8 => 0 | .s16 => 1 | .s32 => 2 | .s64 => 3 | .u8 => 4 | .u16 => 5 | .u32 => 6 | .u64 => 7 | .f64 => 8 | .f32 => 9
  | .f16 => 10 | .bf16 => 11 | .e4m3 => 12 | .e5m2 => 13 | .slot => 14

def TypeCode.ofCode (c : BitVec 4) : Option TypeCode :=
  match c.toNat with
  | 0 => some .s8 | 1 => some .s16 | 2 => some .s32 | 3 => some .s64 | 4 => some .u8 | 5 => some .u16 | 6 => some .u32
  | 7 => some .u64 | 8 => some .f64 | 9 => some .f32 | 10 => some .f16 | 11 => some .bf16 | 12 => some .e4m3
  | 13 => some .e5m2 | 14 => some .slot | _ => none

/-- A specifier field and its kind bit (R89). -/
def Src.field : Src → BitVec 8
  | .v r => r
  | .s r => r.setWidth 8

def Src.kind : Src → Bool
  | .v _ => false
  | .s _ => true

def Src.ofField (f : BitVec 8) (k : Bool) : Src := if k then .s (f.setWidth 6) else .v f

def b1 (b : Bool) : BitVec 1 := BitVec.ofBool b

/-! The eight formats (R84). -/

def packV3 (op : BitVec 8) (h : Head) (d a b c : BitVec 8) (dk ak bk ck : Bool) (rnd : BitVec 3) (sat : Bool)
    (sub : BitVec 8) (fsel : Bool) : W64 :=
  op ++ h.dist ++ h.guard ++ d ++ a ++ b ++ c ++ b1 dk ++ b1 ak ++ b1 bk ++ b1 ck ++ rnd ++ b1 sat ++ sub ++ b1 fsel

def packVI (op : BitVec 8) (h : Head) (d a : BitVec 8) (ak : Bool) (imm : W32) : W64 :=
  op ++ h.dist ++ h.guard ++ d ++ a ++ b1 ak ++ imm

def packS (op : BitVec 8) (h : Head) (sd sa : BitVec 6) (i : Bool) (low : BitVec 36) : W64 :=
  op ++ h.dist ++ h.guard ++ sd ++ sa ++ b1 i ++ low

def packM (op : BitVec 8) (h : Head) (d : BitVec 8) (base : BitVec 6) (idx : BitVec 8) (scl sc : BitVec 3)
    (fsel scr : Bool) (w : BitVec 3) (off : BitVec 16) : W64 :=
  op ++ h.dist ++ h.guard ++ d ++ base ++ idx ++ scl ++ sc ++ b1 fsel ++ b1 scr ++ w ++ off

def packB (op : BitVec 8) (h : Head) (lv : BitVec 8) (sc : BitVec 6) (ck : BitVec 3) (off : BitVec 32) : W64 :=
  op ++ h.dist ++ h.guard ++ lv ++ sc ++ ck ++ off

def packT (op : BitVec 8) (h : Head) (sd : BitVec 6) (ci : BitVec 3) (cm : Bool) (off : BitVec 32) : W64 :=
  op ++ h.dist ++ h.guard ++ sd ++ ci ++ b1 cm ++ 0#7 ++ off

def packC (op : BitVec 8) (h : Head) (sd base ms tile : BitVec 6) (tk : Bool) (sc : BitVec 3) (fsel : Bool)
    (off : BitVec 16) : W64 :=
  op ++ h.dist ++ h.guard ++ sd ++ base ++ ms ++ tile ++ b1 tk ++ sc ++ b1 fsel ++ 0#4 ++ off

def packX (op : BitVec 8) (acc : BitVec 3) (ta tb : BitVec 6) (fs fl : BitVec 3) (cnt : BitVec 8) (ss : BitVec 6)
    (imm : BitVec 14) : W64 :=
  op ++ 0#3 ++ 7#4 ++ acc ++ ta ++ tb ++ fs ++ fl ++ cnt ++ ss ++ imm

/-- Register or immediate of a scalar operation (R84, format S). -/
def packSOp (op : BitVec 8) (h : Head) (sd sa : BitVec 6) : SSrc → W64
  | .reg r => packS op h sd sa false (r ++ 0#30)
  | .imm x => packS op h sd sa true x

/-- A V3 word with value operands A and B and nothing else. -/
def packAB (op : BitVec 8) (h : Head) (d : BitVec 8) (a b : Src) (rnd : BitVec 3) (sat : Bool) (sub : BitVec 8)
    (fsel : Bool) : W64 :=
  packV3 op h d a.field b.field 0#8 false a.kind b.kind false rnd sat sub fsel

/-- A V3 word with value operands A, B and C. -/
def packABC (op : BitVec 8) (h : Head) (d : BitVec 8) (a b c : Src) (rnd : BitVec 3) (sat : Bool) (sub : BitVec 8) : W64 :=
  packV3 op h d a.field b.field c.field false a.kind b.kind c.kind rnd sat sub false

/-- A V3 word with value operand A alone. -/
def packA (op : BitVec 8) (h : Head) (d : BitVec 8) (a : Src) (rnd : BitVec 3) (sub : BitVec 8) (fsel : Bool) : W64 :=
  packV3 op h d a.field 0#8 0#8 false a.kind false false rnd false sub fsel

def packAmem (op : BitVec 8) (h : Head) (fsel : Bool) (m : AMem) (d : BitVec 8) (off : BitVec 16) : W64 :=
  packM op h d m.base m.idx m.scl.code m.sc.code fsel m.scr (if m.wide then 5#3 else 4#3) off

def packMem (op : BitVec 8) (h : Head) (fsel : Bool) (w : Width) (sc : Scope) (d : BitVec 8) (m : MemOp) : W64 :=
  packM op h d m.base m.idx m.scl.code sc.code fsel false w.code m.off

def p8 (p : BitVec 3) : BitVec 8 := p.setWidth 8
def s8 (s : BitVec 6) : BitVec 8 := s.setWidth 8
def fb (u : Bool) : BitVec 8 := if u then 1#8 else 0#8

/-- SUB of SCAN and REDUX (R115, R116). -/
def foldSub (op : FoldOp) (incl : Bool) : BitVec 8 := 0#3 ++ b1 op.code.1 ++ b1 incl ++ op.code.2

/-- The word of an instruction row (R93); an event row has none, and reads 0 here. -/
def encode : Instr → W64
  | .nop h => packS 0x00 h 0 0 false 0
  | .bra h off => packB 0x01 h 0 0 0 off
  | .bnz h sc off => packB 0x01 h 0 sc 1 off
  | .bz h sc off => packB 0x01 h 0 sc 2 off
  | .call h lv off => packB 0x02 h lv 0 0 off
  | .ret h lv => packB 0x03 h lv 0 0 0
  | .exit h => packB 0x04 h 0 0 0 0
  | .tcall h off => packT 0x05 h 0 0 false off
  | .tcallW h off => packT 0x06 h 0 0 false off
  | .tret h => packT 0x07 h 0 0 false 0
  | .tquit h => packT 0x08 h 0 0 false 0
  | .tstat h sd n => packT 0x09 h sd n false 0
  | .tstatCancel h sd => packT 0x09 h sd 0 true 0
  | .tbar h => packT 0x0A h 0 0 false 0
  | .sMov h sd y => packSOp 0x10 h sd 0 y
  | .movh h sd imm => packS 0x11 h sd 0 true (imm.setWidth 36)
  | .sIadd h sd sa y => packSOp 0x12 h sd sa y
  | .sIsub h sd sa y => packSOp 0x13 h sd sa y
  | .sMul h sd sa y => packSOp 0x14 h sd sa y
  | .sMulhu h sd sa y => packSOp 0x15 h sd sa y
  | .sAnd h sd sa y => packSOp 0x16 h sd sa y
  | .sOr h sd sa y => packSOp 0x17 h sd sa y
  | .sXor h sd sa y => packSOp 0x18 h sd sa y
  | .sShl h sd sa y => packSOp 0x19 h sd sa y
  | .sShr h sd sa y => packSOp 0x1A h sd sa y
  | .sSar h sd sa y => packSOp 0x1B h sd sa y
  | .sMin h sd sa y => packSOp 0x1C h sd sa y
  | .sMax h sd sa y => packSOp 0x1D h sd sa y
  | .sset h cc sd sa sb => packS 0x1E h sd sa false (sb ++ cc.code ++ 0#26)
  | .sPopc h sd sa => packS 0x1F h sd sa false 0
  | .sClz h sd sa => packS 0x20 h sd sa false 0
  | .mov h d a => packA 0x30 h d a 0 0 false
  | .movImm h d imm => packVI 0x31 h d 0 false imm
  | .iadd h d a b => packAB 0x32 h d a b 0 false 0 false
  | .iaddImm h d a imm => packVI 0x33 h d a.field a.kind imm
  | .isub h d a b => packAB 0x34 h d a b 0 false 0 false
  | .isubImm h d a imm => packVI 0x35 h d a.field a.kind imm
  | .mul h d a b => packAB 0x36 h d a b 0 false 0 false
  | .mulImm h d a imm => packVI 0x37 h d a.field a.kind imm
  | .mulhu h d a b => packAB 0x38 h d a b 0 false 0 false
  | .mulhuImm h d a imm => packVI 0x39 h d a.field a.kind imm
  | .mulhi h d a b => packAB 0x3A h d a b 0 false 0 false
  | .mulhiImm h d a imm => packVI 0x3B h d a.field a.kind imm
  | .imad h d a b c => packABC 0x3C h d a b c 0 false 0
  | .and h d a b => packAB 0x3E h d a b 0 false 0 false
  | .andImm h d a imm => packVI 0x3F h d a.field a.kind imm
  | .or h d a b => packAB 0x40 h d a b 0 false 0 false
  | .orImm h d a imm => packVI 0x41 h d a.field a.kind imm
  | .xor h d a b => packAB 0x42 h d a b 0 false 0 false
  | .xorImm h d a imm => packVI 0x43 h d a.field a.kind imm
  | .shl h d a b => packAB 0x44 h d a b 0 false 0 false
  | .shlImm h d a imm => packVI 0x45 h d a.field a.kind imm
  | .shr h d a b => packAB 0x46 h d a b 0 false 0 false
  | .shrImm h d a imm => packVI 0x47 h d a.field a.kind imm
  | .sar h d a b => packAB 0x48 h d a b 0 false 0 false
  | .sarImm h d a imm => packVI 0x49 h d a.field a.kind imm
  | .min h u d a b => packAB 0x4A h d a b 0 false (fb u) false
  | .max h u d a b => packAB 0x4B h d a b 0 false (fb u) false
  | .sel h d a b pc => packV3 0x4C h d a.field b.field (p8 pc) false a.kind b.kind false 0 false 0 false
  | .popc h d a => packA 0x4D h d a 0 0 false
  | .clz h d a => packA 0x4E h d a 0 0 false
  | .brev h d a => packA 0x4F h d a 0 0 false
  | .fadd h rnd sat d a b => packAB 0x50 h d a b rnd.code sat 0 false
  | .fsub h rnd sat d a b => packAB 0x51 h d a b rnd.code sat 0 false
  | .fmul h rnd sat d a b => packAB 0x52 h d a b rnd.code sat 0 false
  | .ffma h rnd sat d a b c => packABC 0x53 h d a b c rnd.code sat 0
  | .fmin h d a b => packAB 0x54 h d a b 0 false 0 false
  | .fmax h d a b => packAB 0x55 h d a b 0 false 0 false
  | .faddF64 h rnd sat d a b => packAB 0x60 h d a b rnd.code sat 0 false
  | .fsubF64 h rnd sat d a b => packAB 0x61 h d a b rnd.code sat 0 false
  | .fmulF64 h rnd sat d a b => packAB 0x62 h d a b rnd.code sat 0 false
  | .ffmaF64 h rnd sat d a b c => packABC 0x63 h d a b c rnd.code sat 0
  | .fminF64 h d a b => packAB 0x64 h d a b 0 false 0 false
  | .fmaxF64 h d a b => packAB 0x65 h d a b 0 false 0 false
  | .hadd2 h bf rnd sat d a b => packAB 0x68 h d a b rnd.code sat (fb bf) false
  | .hsub2 h bf rnd sat d a b => packAB 0x69 h d a b rnd.code sat (fb bf) false
  | .hmul2 h bf rnd sat d a b => packAB 0x6A h d a b rnd.code sat (fb bf) false
  | .hfma2 h bf rnd sat d a b c => packABC 0x6B h d a b c rnd.code sat (fb bf)
  | .hmin2 h bf d a b => packAB 0x6C h d a b 0 false (fb bf) false
  | .hmax2 h bf d a b => packAB 0x6D h d a b 0 false (fb bf) false
  | .rcp h f d a => packA 0x70 h d a 0 0 f
  | .rsqrt h f d a => packA 0x71 h d a 0 0 f
  | .sqrt h f d a => packA 0x72 h d a 0 0 f
  | .ex2 h f d a => packA 0x73 h d a 0 0 f
  | .lg2 h f d a => packA 0x74 h d a 0 0 f
  | .sin h f d a => packA 0x75 h d a 0 0 f
  | .cos h f d a => packA 0x76 h d a 0 0 f
  | .frnd h f rnd d a => packA 0x7B h d a rnd.code 0 f
  | .cvt h f rnd sat dt st fs d a =>
    packV3 0x78 h d a.field 0 (p8 fs) false a.kind false false rnd.code sat (dt.code ++ st.code) f
  | .pack4 h f d a fs => packV3 0x79 h d a.field 0 (p8 fs) false a.kind false false 0 false 0 f
  | .unpack4 h f d a fs => packV3 0x7A h d a.field 0 (p8 fs) false a.kind false false 0 false 0 f
  | .icmp h cc pd a b => packAB 0x80 h (p8 pd) a b 0 false (cc.code.setWidth 8) false
  | .icmpImm h cc pd a imm => packVI 0x81 h (cc.code ++ 0#1 ++ pd) a.field a.kind imm
  | .fcmp h cc pd a b => packAB 0x82 h (p8 pd) a b 0 false (cc.code.setWidth 8) false
  | .fcmpF64 h cc pd a b => packAB 0x83 h (p8 pd) a b 0 false (cc.code.setWidth 8) false
  | .pcomb h op pd pa pb => packV3 0x84 h (p8 pd) (p8 pa) (p8 pb) 0 false false false false 0 false (op.code.setWidth 8) false
  | .shflXor h f d a n => packV3 0x90 h d a 0 0 false false false false 0 false (n.setWidth 8) f
  | .shflUp h f d a n => packV3 0x91 h d a 0 0 false false false false 0 false (n.setWidth 8) f
  | .shflDown h f d a n => packV3 0x92 h d a 0 0 false false false false 0 false (n.setWidth 8) f
  | .shflIdx h f d a n => packV3 0x93 h d a 0 0 false false false false 0 false (n.setWidth 8) f
  | .shflIdxReg h f d a b => packV3 0x94 h d a b 0 false false false false 0 false 0 f
  | .voteAll h f pd pa => packV3 0x95 h (p8 pd) (p8 pa) 0 0 false false false false 0 false 0 f
  | .voteAny h f pd pa => packV3 0x95 h (p8 pd) (p8 pa) 0 0 false false false false 0 false 1 f
  | .voteBallot h f sd pa => packV3 0x95 h (s8 sd) (p8 pa) 0 0 true false false false 0 false 2 f
  | .scan h f op incl d a => packV3 0x96 h d a 0 0 false false false false 0 false (foldSub op incl) f
  | .redux h f op sd a => packV3 0x97 h (s8 sd) a 0 0 true false false false 0 false (foldSub op false) f
  | .ld h f w sc d m => packMem 0xA0 h f w sc d m
  | .ldScr h f w sc d m => packMem 0xA1 h f w sc d m
  | .ldCon h f w d m => packMem 0xA2 h f w .th d m
  | .ldPrv h f w d m => packMem 0xA3 h f w .th d m
  | .st h f w sc d m => packMem 0xA4 h f w sc d m
  | .copyStart h f s base off => packM 0xA4 h (s8 s) base 0xFF 0 0 f false 7 off
  | .stScr h f w sc d m => packMem 0xA5 h f w sc d m
  | .stPrv h f w d m => packMem 0xA6 h f w .th d m
  | .lds h f sc sd base off => packM 0xA7 h (s8 sd) base 0xFF 0 sc.code f false 5 off
  | .atomAdd h f m d b => packAmem 0xB0 h f m d (b ++ 0#8)
  | .atomMin h f m d b => packAmem 0xB1 h f m d (b ++ 0#8)
  | .atomMax h f m d b => packAmem 0xB2 h f m d (b ++ 0#8)
  | .atomMinu h f m d b => packAmem 0xB3 h f m d (b ++ 0#8)
  | .atomMaxu h f m d b => packAmem 0xB4 h f m d (b ++ 0#8)
  | .atomAnd h f m d b => packAmem 0xB5 h f m d (b ++ 0#8)
  | .atomOr h f m d b => packAmem 0xB6 h f m d (b ++ 0#8)
  | .atomXor h f m d b => packAmem 0xB7 h f m d (b ++ 0#8)
  | .atomExch h f m d b => packAmem 0xB8 h f m d (b ++ 0#8)
  | .atomCas h f m d b c => packAmem 0xB9 h f m d (b ++ c)
  | .atomFadd h f m d b => packAmem 0xBA h f m d (b ++ 0#8)
  | .redAdd h f m d => packAmem 0xBB h f m d 0
  | .redMin h f m d => packAmem 0xBC h f m d 0
  | .redMax h f m d => packAmem 0xBD h f m d 0
  | .redFadd h f m d => packAmem 0xBE h f m d 0
  | .redOr h f m d => packAmem 0xBF h f m d 0
  | .fence h f sc => packM 0xC0 h 0 0 0 0 sc.code f false 0 0
  | .acq h f sc => packM 0xC1 h 0 0 0 0 sc.code f false 0 0
  | .rel h f sc => packM 0xC2 h 0 0 0 0 sc.code f false 0 0
  | .relN h f wide d base off => packM 0xC3 h d base 0 0 5 f false (if wide then 5 else 4) off
  | .bar h f n => packM 0xC4 h 0 0 0 0 0 f false 0 (n.setWidth 16)
  | .barArrive h f n => packM 0xC5 h 0 0 0 0 0 f false 0 (n.setWidth 16)
  | .barWait h f n => packM 0xC6 h 0 0 0 0 0 f false 0 (n.setWidth 16)
  | .pbarArrive h f n => packM 0xC7 h 0 0 0 0 0 f false 0 (n.setWidth 16)
  | .pbarWait h f n => packM 0xC8 h 0 0 0 0 0 f false 0 (n.setWidth 16)
  | .mwait h f scr wide sc cc base off x =>
    packM 0xC9 h (cc.code.setWidth 8) base
      (match x with | .reg r => r.setWidth 8 | .imm y => 1#1 ++ y) 0 sc.code f scr (if wide then 5 else 4) off
  | .cwait h f ms base off => packC 0xD0 h 0 base ms 0 false 0 f off
  | .cwaitTile h f ms tile hi => packC 0xD0 h 0 0 ms tile true 0 f ((b1 hi).setWidth 16)
  | .ctest h f sd ms base off => packC 0xD1 h sd base ms 0 false 0 f off
  | .ctestTile h f sd ms tile hi => packC 0xD1 h sd 0 ms tile true 0 f ((b1 hi).setWidth 16)
  | .publish h f sc nm1 base off => packC 0xD2 h 0 base nm1 0 false sc.code f off
  | .tdef h f tile base off ms => packC 0xD3 h 0 base ms tile false 0 f off
  | .twait h f tile => packC 0xD4 h 0 0 0 tile false 0 f 0
  | .tfree h tile => packC 0xD5 h 0 0 0 tile false 0 false 0
  | .mldb ta fs => packX 0xE0 0 ta 0 fs 0 0 0 0
  | .mmaP acc ta fs rows => packX 0xE1 acc ta 0 fs 0 (rows.setWidth 8) 0 0
  | .mclr acc km1 => packX 0xE2 acc 0 0 0 0 (km1.setWidth 8) 0 0
  | .mscl acc ss => packX 0xE3 acc 0 0 0 0 0 ss 0
  | .accst acc ss imm fs => packX 0xE4 acc 0 0 fs 0 0 ss imm
  | .accld acc ss imm fs => packX 0xE5 acc 0 0 fs 0 0 ss imm
  | .accq acc rm1 => packX 0xE6 acc 0 0 0 0 (rm1.setWidth 8) 0 0
  | .mbarArrive n => packX 0xE7 0 0 0 0 1 0 0 (n.setWidth 14)
  | .mbarWait n => packX 0xE7 0 0 0 0 0 0 0 (n.setWidth 14)
  | .mloop km1 imm => packX 0xE8 0 0 0 0 0 km1 0 imm
  | .mend => packX 0xE9 0 0 0 0 0 0 0 0
  | .packp h f a s fs r => packV3 0xEA h 0 a.field (s8 s) (p8 fs) false a.kind true false 0 false r f
  | .unpackp h f d s fs r => packV3 0xEB h d 0 (s8 s) (p8 fs) false false true false 0 false r f
  | .mfsr h d sel =>
    (match d with
     | .v r => packV3 0xF0 h r 0 0 0 false false false false 0 false sel false
     | .s r => packV3 0xF0 h (s8 r) 0 0 0 true false false false 0 false sel false)
  | .mtsr h sel a => packV3 0xF1 h 0 a.field 0 0 false a.kind false false 0 false sel false
  | .yield h d k => packVI 0xF2 h 0 0 false (0#16 ++ d ++ k)
  | .syscall h n => packVI 0xF3 h 0 0 false (n.setWidth 32)
  | .trap h n => packVI 0xF4 h 0 0 false (n.setWidth 32)
  | .brk h n => packVI 0xF5 h 0 0 false (n.setWidth 32)
  | .ipf h base off nm1 => packM 0xF6 h nm1 base 0xFF 0 0 false false 0 off
  | .regq h w1 w2 k => packS 0xF7 h (w1.setWidth 6) (w2.setWidth 6) true k
  | .cctlWb h sc base off => packM 0xF8 h 0 base 0xFF 0 sc.code false false 0 off
  | .cctlInv h sc base off => packM 0xF8 h 1 base 0xFF 0 sc.code false false 0 off
  | .cctlWbinv h sc base off => packM 0xF8 h 2 base 0xFF 0 sc.code false false 0 off
  | .qstat h sd qm => packS 0xF9 h sd 0 false (0#6 ++ (if qm then 1#4 else 0#4) ++ 0#26)
  | _ => 0

/-- The engine class of each OP (R79); none for an unassigned OP (R93). -/
def opClass (op : Nat) : Option Nat :=
  if op ≤ 0x0A then some 0
  else if 0x10 ≤ op && op ≤ 0x20 then some 0
  else if op == 0x3D then none
  else if 0x30 ≤ op && op ≤ 0x55 then some 1
  else if 0x60 ≤ op && op ≤ 0x65 then some 2
  else if 0x68 ≤ op && op ≤ 0x6D then some 2
  else if op == 0x77 then none
  else if 0x70 ≤ op && op ≤ 0x7B then some 3
  else if op == 0x83 then some 2
  else if 0x80 ≤ op && op ≤ 0x84 then some 1
  else if 0x90 ≤ op && op ≤ 0x97 then some 4
  else if 0xA0 ≤ op && op ≤ 0xA7 then some 5
  else if 0xB0 ≤ op && op ≤ 0xC9 then some 6
  else if 0xD0 ≤ op && op ≤ 0xD5 then some 7
  else if 0xE0 ≤ op && op ≤ 0xE9 then some 8
  else if op == 0xEA || op == 0xEB then some 7
  else if 0xF0 ≤ op && op ≤ 0xF9 then some 9
  else none

/-! Fields of a word (R81, R84). -/

def wOp (w : W64) : Nat := (w.extractLsb' 56 8).toNat
def wHead (w : W64) : Head := ⟨w.extractLsb' 53 3, w.extractLsb' 49 4⟩
def wD (w : W64) : BitVec 8 := w.extractLsb' 41 8
def wA (w : W64) : BitVec 8 := w.extractLsb' 33 8
def wB (w : W64) : BitVec 8 := w.extractLsb' 25 8
def wC (w : W64) : BitVec 8 := w.extractLsb' 17 8
def wSA (w : W64) : Src := Src.ofField (wA w) (w.getLsbD 15)
def wSB (w : W64) : Src := Src.ofField (wB w) (w.getLsbD 14)
def wSC (w : W64) : Src := Src.ofField (wC w) (w.getLsbD 13)
def wRnd (w : W64) : Rnd := (Rnd.ofCode (w.extractLsb' 10 3)).getD .rn
def wSat (w : W64) : Bool := w.getLsbD 9
def wSub (w : W64) : BitVec 8 := w.extractLsb' 1 8
def wF0 (w : W64) : Bool := w.getLsbD 0
def wVIA (w : W64) : Src := Src.ofField (wA w) (w.getLsbD 32)
def wImm (w : W64) : W32 := w.extractLsb' 0 32
def wSd (w : W64) : BitVec 6 := w.extractLsb' 43 6
def wSa (w : W64) : BitVec 6 := w.extractLsb' 37 6
def wY (w : W64) : SSrc := if w.getLsbD 36 then .imm (w.extractLsb' 0 36) else .reg (w.extractLsb' 30 6)
def wBase (w : W64) : BitVec 6 := w.extractLsb' 35 6
def wOff (w : W64) : BitVec 16 := w.extractLsb' 0 16
def wScope (w : W64) : Scope := (Scope.ofCode (w.extractLsb' 21 3)).getD .th
def wWidth (w : W64) : Width := Width.ofCode (w.extractLsb' 16 3)
def wFm (w : W64) : Bool := w.getLsbD 20
def wMem (w : W64) : MemOp :=
  ⟨wBase w, w.extractLsb' 27 8, (Scl.ofCode (w.extractLsb' 24 3)).getD .x1, wOff w⟩
def wAmem (w : W64) : AMem :=
  ⟨wBase w, w.extractLsb' 27 8, (Scl.ofCode (w.extractLsb' 24 3)).getD .x1, wScope w, w.getLsbD 19, w.getLsbD 16⟩
def wAb (w : W64) : BitVec 8 := w.extractLsb' 8 8
def wAc (w : W64) : BitVec 8 := w.extractLsb' 0 8
def wOff32 (w : W64) : BitVec 32 := w.extractLsb' 0 32
def wLv (w : W64) : BitVec 8 := w.extractLsb' 41 8
def wScB (w : W64) : BitVec 6 := w.extractLsb' 35 6
def wCbase (w : W64) : BitVec 6 := w.extractLsb' 37 6
def wMs (w : W64) : BitVec 6 := w.extractLsb' 31 6
def wTile (w : W64) : BitVec 6 := w.extractLsb' 25 6
def wTk (w : W64) : Bool := w.getLsbD 24
def wAcc (w : W64) : BitVec 3 := w.extractLsb' 46 3
def wTa (w : W64) : BitVec 6 := w.extractLsb' 40 6
def wFs (w : W64) : BitVec 3 := w.extractLsb' 31 3
def wCnt (w : W64) : BitVec 8 := w.extractLsb' 20 8
def wSs (w : W64) : BitVec 6 := w.extractLsb' 14 6
def wImm14 (w : W64) : BitVec 14 := w.extractLsb' 0 14
def wP (f : BitVec 8) : BitVec 3 := f.setWidth 3
def wS6 (f : BitVec 8) : BitVec 6 := f.setWidth 6
def wN5 (f : BitVec 8) : BitVec 5 := f.setWidth 5
def wCc (w : W64) : Cmp := (Cmp.ofCode ((wSub w).setWidth 4)).getD .eq
def wFold (w : W64) : FoldOp := (FoldOp.ofCode ((wSub w).getLsbD 4) ((wSub w).setWidth 3)).getD .add
def wBar (w : W64) : BitVec 5 := w.extractLsb' 0 5

/-- The instruction that a word's fields name under an OP; none for an OP that R93 does not assign. -/
def parseOp (op : Nat) (w : W64) : Option Instr :=
  let h := wHead w
  match op with
  | 0x00 => some (.nop h)
  | 0x01 =>
    match (w.extractLsb' 32 3).toNat with
    | 0 => some (.bra h (wOff32 w))
    | 1 => some (.bnz h (wScB w) (wOff32 w))
    | 2 => some (.bz h (wScB w) (wOff32 w))
    | _ => none
  | 0x02 => some (.call h (wLv w) (wOff32 w))
  | 0x03 => some (.ret h (wLv w))
  | 0x04 => some (.exit h)
  | 0x05 => some (.tcall h (wOff32 w))
  | 0x06 => some (.tcallW h (wOff32 w))
  | 0x07 => some (.tret h)
  | 0x08 => some (.tquit h)
  | 0x09 => if w.getLsbD 39 then some (.tstatCancel h (wSd w)) else some (.tstat h (wSd w) (w.extractLsb' 40 3))
  | 0x0A => some (.tbar h)
  | 0x10 => some (.sMov h (wSd w) (wY w))
  | 0x11 => some (.movh h (wSd w) (wImm w))
  | 0x12 => some (.sIadd h (wSd w) (wSa w) (wY w))
  | 0x13 => some (.sIsub h (wSd w) (wSa w) (wY w))
  | 0x14 => some (.sMul h (wSd w) (wSa w) (wY w))
  | 0x15 => some (.sMulhu h (wSd w) (wSa w) (wY w))
  | 0x16 => some (.sAnd h (wSd w) (wSa w) (wY w))
  | 0x17 => some (.sOr h (wSd w) (wSa w) (wY w))
  | 0x18 => some (.sXor h (wSd w) (wSa w) (wY w))
  | 0x19 => some (.sShl h (wSd w) (wSa w) (wY w))
  | 0x1A => some (.sShr h (wSd w) (wSa w) (wY w))
  | 0x1B => some (.sSar h (wSd w) (wSa w) (wY w))
  | 0x1C => some (.sMin h (wSd w) (wSa w) (wY w))
  | 0x1D => some (.sMax h (wSd w) (wSa w) (wY w))
  | 0x1E => some (.sset h ((Cmp.ofCode (w.extractLsb' 26 4)).getD .eq) (wSd w) (wSa w) (w.extractLsb' 30 6))
  | 0x1F => some (.sPopc h (wSd w) (wSa w))
  | 0x20 => some (.sClz h (wSd w) (wSa w))
  | 0x30 => some (.mov h (wD w) (wSA w))
  | 0x31 => some (.movImm h (wD w) (wImm w))
  | 0x32 => some (.iadd h (wD w) (wSA w) (wSB w))
  | 0x33 => some (.iaddImm h (wD w) (wVIA w) (wImm w))
  | 0x34 => some (.isub h (wD w) (wSA w) (wSB w))
  | 0x35 => some (.isubImm h (wD w) (wVIA w) (wImm w))
  | 0x36 => some (.mul h (wD w) (wSA w) (wSB w))
  | 0x37 => some (.mulImm h (wD w) (wVIA w) (wImm w))
  | 0x38 => some (.mulhu h (wD w) (wSA w) (wSB w))
  | 0x39 => some (.mulhuImm h (wD w) (wVIA w) (wImm w))
  | 0x3A => some (.mulhi h (wD w) (wSA w) (wSB w))
  | 0x3B => some (.mulhiImm h (wD w) (wVIA w) (wImm w))
  | 0x3C => some (.imad h (wD w) (wSA w) (wSB w) (wSC w))
  | 0x3E => some (.and h (wD w) (wSA w) (wSB w))
  | 0x3F => some (.andImm h (wD w) (wVIA w) (wImm w))
  | 0x40 => some (.or h (wD w) (wSA w) (wSB w))
  | 0x41 => some (.orImm h (wD w) (wVIA w) (wImm w))
  | 0x42 => some (.xor h (wD w) (wSA w) (wSB w))
  | 0x43 => some (.xorImm h (wD w) (wVIA w) (wImm w))
  | 0x44 => some (.shl h (wD w) (wSA w) (wSB w))
  | 0x45 => some (.shlImm h (wD w) (wVIA w) (wImm w))
  | 0x46 => some (.shr h (wD w) (wSA w) (wSB w))
  | 0x47 => some (.shrImm h (wD w) (wVIA w) (wImm w))
  | 0x48 => some (.sar h (wD w) (wSA w) (wSB w))
  | 0x49 => some (.sarImm h (wD w) (wVIA w) (wImm w))
  | 0x4A => some (.min h (w.getLsbD 1) (wD w) (wSA w) (wSB w))
  | 0x4B => some (.max h (w.getLsbD 1) (wD w) (wSA w) (wSB w))
  | 0x4C => some (.sel h (wD w) (wSA w) (wSB w) (wP (wC w)))
  | 0x4D => some (.popc h (wD w) (wSA w))
  | 0x4E => some (.clz h (wD w) (wSA w))
  | 0x4F => some (.brev h (wD w) (wSA w))
  | 0x50 => some (.fadd h (wRnd w) (wSat w) (wD w) (wSA w) (wSB w))
  | 0x51 => some (.fsub h (wRnd w) (wSat w) (wD w) (wSA w) (wSB w))
  | 0x52 => some (.fmul h (wRnd w) (wSat w) (wD w) (wSA w) (wSB w))
  | 0x53 => some (.ffma h (wRnd w) (wSat w) (wD w) (wSA w) (wSB w) (wSC w))
  | 0x54 => some (.fmin h (wD w) (wSA w) (wSB w))
  | 0x55 => some (.fmax h (wD w) (wSA w) (wSB w))
  | 0x60 => some (.faddF64 h (wRnd w) (wSat w) (wD w) (wSA w) (wSB w))
  | 0x61 => some (.fsubF64 h (wRnd w) (wSat w) (wD w) (wSA w) (wSB w))
  | 0x62 => some (.fmulF64 h (wRnd w) (wSat w) (wD w) (wSA w) (wSB w))
  | 0x63 => some (.ffmaF64 h (wRnd w) (wSat w) (wD w) (wSA w) (wSB w) (wSC w))
  | 0x64 => some (.fminF64 h (wD w) (wSA w) (wSB w))
  | 0x65 => some (.fmaxF64 h (wD w) (wSA w) (wSB w))
  | 0x68 => some (.hadd2 h (w.getLsbD 1) (wRnd w) (wSat w) (wD w) (wSA w) (wSB w))
  | 0x69 => some (.hsub2 h (w.getLsbD 1) (wRnd w) (wSat w) (wD w) (wSA w) (wSB w))
  | 0x6A => some (.hmul2 h (w.getLsbD 1) (wRnd w) (wSat w) (wD w) (wSA w) (wSB w))
  | 0x6B => some (.hfma2 h (w.getLsbD 1) (wRnd w) (wSat w) (wD w) (wSA w) (wSB w) (wSC w))
  | 0x6C => some (.hmin2 h (w.getLsbD 1) (wD w) (wSA w) (wSB w))
  | 0x6D => some (.hmax2 h (w.getLsbD 1) (wD w) (wSA w) (wSB w))
  | 0x70 => some (.rcp h (wF0 w) (wD w) (wSA w))
  | 0x71 => some (.rsqrt h (wF0 w) (wD w) (wSA w))
  | 0x72 => some (.sqrt h (wF0 w) (wD w) (wSA w))
  | 0x73 => some (.ex2 h (wF0 w) (wD w) (wSA w))
  | 0x74 => some (.lg2 h (wF0 w) (wD w) (wSA w))
  | 0x75 => some (.sin h (wF0 w) (wD w) (wSA w))
  | 0x76 => some (.cos h (wF0 w) (wD w) (wSA w))
  | 0x7B => some (.frnd h (wF0 w) (wRnd w) (wD w) (wSA w))
  | 0x78 =>
    match TypeCode.ofCode ((wSub w).extractLsb' 4 4), TypeCode.ofCode ((wSub w).setWidth 4) with
    | some dt, some st => some (.cvt h (wF0 w) (wRnd w) (wSat w) dt st (wP (wC w)) (wD w) (wSA w))
    | _, _ => none
  | 0x79 => some (.pack4 h (wF0 w) (wD w) (wSA w) (wP (wC w)))
  | 0x7A => some (.unpack4 h (wF0 w) (wD w) (wSA w) (wP (wC w)))
  | 0x80 => some (.icmp h (wCc w) (wP (wD w)) (wSA w) (wSB w))
  | 0x81 => some (.icmpImm h ((Cmp.ofCode ((wD w).extractLsb' 4 4)).getD .eq) (wP (wD w)) (wVIA w) (wImm w))
  | 0x82 => some (.fcmp h (wCc w) (wP (wD w)) (wSA w) (wSB w))
  | 0x83 => some (.fcmpF64 h (wCc w) (wP (wD w)) (wSA w) (wSB w))
  | 0x84 => some (.pcomb h (PredOp.ofCode ((wSub w).setWidth 2)) (wP (wD w)) (wP (wA w)) (wP (wB w)))
  | 0x90 => some (.shflXor h (wF0 w) (wD w) (wA w) (wN5 (wSub w)))
  | 0x91 => some (.shflUp h (wF0 w) (wD w) (wA w) (wN5 (wSub w)))
  | 0x92 => some (.shflDown h (wF0 w) (wD w) (wA w) (wN5 (wSub w)))
  | 0x93 => some (.shflIdx h (wF0 w) (wD w) (wA w) (wN5 (wSub w)))
  | 0x94 => some (.shflIdxReg h (wF0 w) (wD w) (wA w) (wB w))
  | 0x95 =>
    match (wSub w).toNat with
    | 0 => some (.voteAll h (wF0 w) (wP (wD w)) (wP (wA w)))
    | 1 => some (.voteAny h (wF0 w) (wP (wD w)) (wP (wA w)))
    | 2 => some (.voteBallot h (wF0 w) (wS6 (wD w)) (wP (wA w)))
    | _ => none
  | 0x96 => some (.scan h (wF0 w) (wFold w) ((wSub w).getLsbD 3) (wD w) (wA w))
  | 0x97 => some (.redux h (wF0 w) (wFold w) (wS6 (wD w)) (wA w))
  | 0xA0 => some (.ld h (wFm w) (wWidth w) (wScope w) (wD w) (wMem w))
  | 0xA1 => some (.ldScr h (wFm w) (wWidth w) (wScope w) (wD w) (wMem w))
  | 0xA2 => some (.ldCon h (wFm w) (wWidth w) (wD w) (wMem w))
  | 0xA3 => some (.ldPrv h (wFm w) (wWidth w) (wD w) (wMem w))
  | 0xA4 =>
    if wWidth w = .w256 then some (.copyStart h (wFm w) (wS6 (wD w)) (wBase w) (wOff w))
    else some (.st h (wFm w) (wWidth w) (wScope w) (wD w) (wMem w))
  | 0xA5 => some (.stScr h (wFm w) (wWidth w) (wScope w) (wD w) (wMem w))
  | 0xA6 => some (.stPrv h (wFm w) (wWidth w) (wD w) (wMem w))
  | 0xA7 => some (.lds h (wFm w) (wScope w) (wS6 (wD w)) (wBase w) (wOff w))
  | 0xB0 => some (.atomAdd h (wFm w) (wAmem w) (wD w) (wAb w))
  | 0xB1 => some (.atomMin h (wFm w) (wAmem w) (wD w) (wAb w))
  | 0xB2 => some (.atomMax h (wFm w) (wAmem w) (wD w) (wAb w))
  | 0xB3 => some (.atomMinu h (wFm w) (wAmem w) (wD w) (wAb w))
  | 0xB4 => some (.atomMaxu h (wFm w) (wAmem w) (wD w) (wAb w))
  | 0xB5 => some (.atomAnd h (wFm w) (wAmem w) (wD w) (wAb w))
  | 0xB6 => some (.atomOr h (wFm w) (wAmem w) (wD w) (wAb w))
  | 0xB7 => some (.atomXor h (wFm w) (wAmem w) (wD w) (wAb w))
  | 0xB8 => some (.atomExch h (wFm w) (wAmem w) (wD w) (wAb w))
  | 0xB9 => some (.atomCas h (wFm w) (wAmem w) (wD w) (wAb w) (wAc w))
  | 0xBA => some (.atomFadd h (wFm w) (wAmem w) (wD w) (wAb w))
  | 0xBB => some (.redAdd h (wFm w) (wAmem w) (wD w))
  | 0xBC => some (.redMin h (wFm w) (wAmem w) (wD w))
  | 0xBD => some (.redMax h (wFm w) (wAmem w) (wD w))
  | 0xBE => some (.redFadd h (wFm w) (wAmem w) (wD w))
  | 0xBF => some (.redOr h (wFm w) (wAmem w) (wD w))
  | 0xC0 => some (.fence h (wFm w) (wScope w))
  | 0xC1 => some (.acq h (wFm w) (wScope w))
  | 0xC2 => some (.rel h (wFm w) (wScope w))
  | 0xC3 => some (.relN h (wFm w) (w.getLsbD 16) (wD w) (wBase w) (wOff w))
  | 0xC4 => some (.bar h (wFm w) (wBar w))
  | 0xC5 => some (.barArrive h (wFm w) (wBar w))
  | 0xC6 => some (.barWait h (wFm w) (wBar w))
  | 0xC7 => some (.pbarArrive h (wFm w) (wBar w))
  | 0xC8 => some (.pbarWait h (wFm w) (wBar w))
  | 0xC9 =>
    some (.mwait h (wFm w) (w.getLsbD 19) (w.getLsbD 16) (wScope w) ((Cmp.ofCode ((wD w).setWidth 4)).getD .eq) (wBase w)
      (wOff w) (if w.getLsbD 34 then .imm (w.extractLsb' 27 7) else .reg (w.extractLsb' 27 6)))
  | 0xD0 =>
    if wTk w then some (.cwaitTile h (wFm w) (wMs w) (wTile w) (w.getLsbD 0))
    else some (.cwait h (wFm w) (wMs w) (wCbase w) (wOff w))
  | 0xD1 =>
    if wTk w then some (.ctestTile h (wFm w) (wSd w) (wMs w) (wTile w) (w.getLsbD 0))
    else some (.ctest h (wFm w) (wSd w) (wMs w) (wCbase w) (wOff w))
  | 0xD2 => some (.publish h (wFm w) (wScope w) (wMs w) (wCbase w) (wOff w))
  | 0xD3 => some (.tdef h (wFm w) (wTile w) (wCbase w) (wOff w) (wMs w))
  | 0xD4 => some (.twait h (wFm w) (wTile w))
  | 0xD5 => some (.tfree h (wTile w))
  | 0xE0 => some (.mldb (wTa w) (wFs w))
  | 0xE1 => some (.mmaP (wAcc w) (wTa w) (wFs w) (w.extractLsb' 20 2))
  | 0xE2 => some (.mclr (wAcc w) (w.extractLsb' 20 3))
  | 0xE3 => some (.mscl (wAcc w) (wSs w))
  | 0xE4 => some (.accst (wAcc w) (wSs w) (wImm14 w) (wFs w))
  | 0xE5 => some (.accld (wAcc w) (wSs w) (wImm14 w) (wFs w))
  | 0xE6 => some (.accq (wAcc w) (w.extractLsb' 20 6))
  | 0xE7 => if w.getLsbD 28 then some (.mbarArrive (wBar w)) else some (.mbarWait (wBar w))
  | 0xE8 => some (.mloop (wCnt w) (wImm14 w))
  | 0xE9 => some .mend
  | 0xEA => some (.packp h (wF0 w) (wSA w) (wS6 (wB w)) (wP (wC w)) (wSub w))
  | 0xEB => some (.unpackp h (wF0 w) (wD w) (wS6 (wB w)) (wP (wC w)) (wSub w))
  | 0xF0 => some (.mfsr h (if w.getLsbD 16 then .s (wS6 (wD w)) else .v (wD w)) (wSub w))
  | 0xF1 => some (.mtsr h (wSub w) (wSA w))
  | 0xF2 => some (.yield h (w.extractLsb' 8 8) (w.extractLsb' 0 8))
  | 0xF3 => some (.syscall h (wOff w))
  | 0xF4 => some (.trap h (wOff w))
  | 0xF5 => some (.brk h (wOff w))
  | 0xF6 => some (.ipf h (wBase w) (wOff w) (wD w))
  | 0xF7 => some (.regq h (w.extractLsb' 43 5) (w.extractLsb' 37 5) (w.extractLsb' 0 36))
  | 0xF8 =>
    match (wD w).toNat with
    | 0 => some (.cctlWb h (wScope w) (wBase w) (wOff w))
    | 1 => some (.cctlInv h (wScope w) (wBase w) (wOff w))
    | 2 => some (.cctlWbinv h (wScope w) (wBase w) (wOff w))
    | _ => none
  | 0xF9 => some (.qstat h (wSd w) (w.getLsbD 26))
  | _ => none

/-- The instruction that a word's fields name, taken at their OP. -/
def parse (w : W64) : Option Instr := parseOp (wOp w) w

/-- The decoder: the fields' instruction, accepted when every other bit of the word is as its encoding has it (R86: unused fields and reserved bits zero) and the checks of R86 to R91 hold. DEDUCED, unsafe (log 6). -/
def decode (w : W64) : Option Instr :=
  match parse w with
  | some i => if encode i = w && i.wf then some i else none
  | none => none

/-- A 64-bit word from its bytes, lowest address first (R74). -/
def wordOfBytes : List Byte → Nat
  | [] => 0
  | b :: bs => b.toNat + 256 * wordOfBytes bs

/-- The bytes of a number, lowest address first. -/
def bytesOfNat : Nat → Nat → List Byte
  | 0, _ => []
  | n + 1, x => BitVec.ofNat 8 x :: bytesOfNat n (x / 256)

/-- Decoding at the start of a list of bytes. -/
def decodeBytes (bs : List Byte) : Option Instr := decode (BitVec.ofNat 64 (wordOfBytes (bs.take 8)))

/-- The instruction read from a table row's bits: every YZ1 instruction is one little-endian 64-bit word (R74, R81). -/
def decodeTableWord (nbits w : Nat) : Option Instr := decodeBytes (bytesOfNat 8 (w % 2 ^ nbits))

/-- A clause header's fields (R74). -/
structure Header where
  cls : BitVec 4
  cnt : BitVec 4
  wait : BitVec 12
  av : Bool
  af : BitVec 4
  bv : Bool
  bf : BitVec 4
  deriving DecidableEq, Repr

/-- A word is a header when its bits [63:58] are all ones (R74). -/
def isHeader (w : W64) : Bool := (w.extractLsb' 58 6) == 0x3F#6

/-- R75's checks of a header. -/
def headerOk (w : W64) : Bool :=
  let cls := (w.extractLsb' 54 4).toNat
  let av := w.getLsbD 37
  let af := (w.extractLsb' 33 4).toNat
  let bv := w.getLsbD 32
  let bf := (w.extractLsb' 28 4).toNat
  decide (cls < 10) && (w.extractLsb' 0 28) == 0#28
    && (if av then decide (af ≤ 11) else af == 0) && (if bv then decide (bf ≤ 11) else bf == 0)
    && (!bv || av) && !(av && bv && af == bf)

def parseHeader (w : W64) : Header :=
  ⟨w.extractLsb' 54 4, w.extractLsb' 50 4, w.extractLsb' 38 12, w.getLsbD 37, w.extractLsb' 33 4, w.getLsbD 32,
   w.extractLsb' 28 4⟩

def encodeHeader (x : Header) : W64 :=
  0x3F#6 ++ x.cls ++ x.cnt ++ x.wait ++ b1 x.av ++ x.af ++ b1 x.bv ++ x.bf ++ 0#28

end Sys2Proof
end

