-- ==== Sys2Proof/Machine/State.lean ====
section
/-! DEFINITION. The state of one SV7 module: everything the spec gives it, as plain data, and the state right after module reset. -/

namespace Sys2Proof.Machine

/-- Reasons for which the model itself stops. None of them is a trap of the SV7: traps are next states. -/
inductive Fault where
  /-- Raised by every warp instruction when no split holds the issue (State.cur names no resident warp): no hardware does this. Safe. -/
  | noIssuer
  /-- Raised by every matrix-stream instruction when no sequencer holds the issue: no hardware does this. Safe. -/
  | noSequencer
  deriving DecidableEq, Repr

/-- Reasons for which the model has no meaning to give. -/
inductive Refusal where
  /-- Raised by an arm of exec whose instruction is not modelled: safe. -/
  | notModelled (mnemonic : String)
  deriving DecidableEq, Repr

/-- The clause a thread is inside (R74, R77): header address, class, words, flags waited on, set A and set B. -/
structure ClauseCtx where
  hdr : Nat
  cls : Nat
  cnt : Nat
  wait : BitVec 12
  setA : Option Nat
  setB : Option Nat
  deriving DecidableEq, Repr

/-- What a parked thread waits for (R77, R165, R313, R316). arrive: a PBAR.ARRIVE whose step is not yet applied (R161). held: its word's accesses to a system window may still be cancelled (R135, R287). -/
inductive Wait where
  | bar (n : Nat)
  | tbar
  | tcall
  | tret
  | rejoin
  | arrive (n : Nat)
  | pbar (n : Nat)
  | monitor (mon : Nat)
  | cwaitTile (tile : Nat) (hi : Bool) (mask : W64)
  | twait (tile : Nat)
  | publish (op : Nat)
  | tile (tile : Nat)
  | qa
  | qm
  | syscall
  | record (id : Nat)
  | brk
  | far (page : Nat)
  | grow (page : Nat)
  | stalled (group : Nat)
  | held (op : Nat)
  | yieldSave
  | stop
  deriving DecidableEq, Repr

/-- A thread is missing from its warp (R15), ready, parked or has exited. -/
inductive TStat where
  | absent
  | ready
  | parked (w : Wait)
  | exited
  deriving DecidableEq, Repr

/-- What a team-call keeps of a calling thread for the rejoin (R123). -/
structure Frame where
  rank : Nat
  size : Nat
  team : Nat
  pc : Nat
  cl : Option ClauseCtx
  deriving DecidableEq, Repr

/-- One thread (R15, R121, R157, R160). owed: barriers arrived at and not yet waited for (R159); again: its BAR was withdrawn at a save after its arrival (R165). -/
structure Thread where
  pc : Nat
  st : TStat
  cl : Option ClauseCtx
  team : Nat
  rank : Nat
  size : Nat
  path : List Nat
  frames : List Frame
  parity : BitVec 32
  arrived : BitVec 32
  owed : BitVec 32
  again : Bool
  deriving DecidableEq, Repr

/-- The splits of the clause pair being issued (R300); turnB: B's word of the co-issue is next. pa and pb: threads of the two splits that have parked inside the clause (R302); co: the first number that the co-issue going on may give an operation (R50). -/
structure Pair where
  a : Mask
  b : Mask
  turnB : Bool
  pa : Mask := 0
  pb : Mask := 0
  co : Option Nat := none
  deriving DecidableEq, Repr

/-- A register, predicate or scalar named by a hazard. -/
inductive RegName where
  | v (r : Nat)
  | s (r : Nat)
  | p (r : Nat)
  deriving DecidableEq, Repr

/-- A result younger than its latency (R82): the values before it, by lane, and the distance still missing. -/
structure Hazard where
  reg : RegName
  lanes : Mask
  old : Tab W64
  left : Nat
  deriving DecidableEq, Repr

/-- A pending transfer of register quota (R213). -/
structure Regq where
  w1 : Nat
  w2 : Nat
  k : Nat
  deriving DecidableEq, Repr

/-- A warp in a debug session: running, parked by a breakpoint or a step, or taking a step of a split (R347, R348). -/
inductive DbgSt where
  | none | stopped | step
  deriving DecidableEq, Repr

/-- A warp (R48, R66, R80). frozen: the address whose line its fetch misses (R303); declined: words, with their pages, whose growth the driver has declined (R335); watched: the words at whose monitors its threads were saved (R338); stuck: the lanes of the word that stalls at a window (R289); gone: the address of a word whose window has left since it stalled, with those lanes; saved: the pre-emption holds it until its cluster is saved (R304, R313). DESIGN CHOICE, safe (log 1). -/
structure Warp where
  cluster : Nat
  wg : Nat
  wid : Nat
  quota : Nat
  threads : List Thread
  v : Tab W32
  vPoison : List Nat
  s : Tab W64
  p : Tab Mask
  flags : Tab Nat
  fpflags : BitVec 6
  budget : Nat
  pair : Option Pair
  coS : Option (Tab W64)
  hazards : List Hazard
  liveK : Nat
  regq : Option Regq
  marked : Bool
  elig : Nat
  frozen : Option Nat
  dbg : DbgSt
  declined : List (Nat × Nat)
  watched : List Nat := []
  stuck : Mask := 0
  gone : Option (Nat × Mask) := none
  saved : Bool := false
  deriving DecidableEq, Repr

/-- Tile states (R174). -/
inductive TileSt where
  | empty | filling | ready | draining
  deriving DecidableEq, Repr

/-- A tile-table entry (R174): count 0 is no range. -/
structure Tile where
  st : TileSt
  base : Nat
  count : Nat
  bits : BitVec 128
  deriving DecidableEq, Repr

/-- Accumulator modes (R187): FP32, or a member of the triple that starts at first, with LSB exponent lam. -/
inductive AccMode where
  | fp32
  | wfx (first : Nat) (lam : Nat)
  deriving DecidableEq, Repr

/-- Team states (R307). FREE is an absent table entry. -/
inductive TeamSt where
  | active | collecting | blocked | suspended | returning
  deriving DecidableEq, Repr

/-- A team-table entry (R308). table: weights and targets of the pending team-call, empty for TBAR. -/
structure Team where
  st : TeamSt
  parent : Option Nat
  callee : Nat
  depth : Nat
  size : Nat
  pending : Option Nat
  byWarp : Bool
  cancel : Bool
  quit : Bool
  status : List W64
  called : Bool
  callees : Nat
  table : List (Nat × Nat)
  deriving DecidableEq, Repr

/-- An entry of qa or qm (R204): owner is the operation that has reserved it and not yet filled it. DEDUCED, unsafe (log 24). -/
structure QEntry where
  owner : Option Nat
  words : Tab W32
  deriving DecidableEq, Repr

/-- What the matrix sequencer is doing (R182, R184). -/
inductive SeqSt where
  | wantTask
  | running
  | stopped
  | parked (record : Nat)
  deriving DecidableEq, Repr

/-- A B latch (R188): q, the integers of 64 rows by 128, and the 256 scale bytes. -/
structure Latch where
  q : Nat
  ints : Tab Int
  scale : Tab Byte
  deriving DecidableEq, Repr

/-- The matrix sequencer of a workgroup (R182, R233). DEDUCED, safe (log 51). -/
structure Seq where
  st : SeqSt
  pc : Nat
  cl : Option ClauseCtx
  s : Tab W64
  loop : List (Nat × Nat)
  parity : BitVec 32
  latch0 : Option Latch
  latch1 : Option Latch
  next1 : Bool
  last1 : Option Bool
  accqPos : Nat
  deriving DecidableEq, Repr

/-- A workgroup. -/
structure Wg where
  cluster : Nat
  wgid : Nat
  core : Nat
  scratch : Tab Byte
  scrPoison : List Nat
  acc : Tab W32
  accPoison : List Nat
  accMode : Tab AccMode
  tiles : Tab Tile
  teams : Tab Team
  qa : List QEntry
  qm : List QEntry
  seq : Option Seq
  deriving DecidableEq, Repr

/-- Where a cluster stands: on its cores, being saved there until its tiles have drained, or until its release is complete, saved, or offered again (R164, R304, R350, R361). -/
inductive ClSt where
  | resident | saving | releasing | saved | offered
  deriving DecidableEq, Repr

/-- A cluster. wokeAt: when a warp of it was last woken from a monitor (R314). -/
structure Cluster where
  grid : Nat
  clid : Nat
  die : Nat
  group : Nat
  st : ClSt
  frame : Nat
  frameLen : Nat
  marked : Bool
  swapped : Bool
  offeredAt : Nat
  published : Bool
  wokeAt : Nat := 0
  deriving DecidableEq, Repr

/-- Where a grid stands (R293, R69). -/
inductive GridSt where
  | waiting | eligible | complete | ended
  deriving DecidableEq, Repr

/-- An admitted grid: its ring, its launch record as 32 words (R69), the next cluster never placed, the clusters lost and to be run again (R361), the save frames its clusters hold as (address, length) (R351); stopped: a breakpoint has stopped it whole (R347). -/
structure Grid where
  ctx : Nat
  ring : Nat
  ridx : Nat
  stat : Nat
  words : List W64
  st : GridSt
  next : Nat
  again : List Nat
  exited : Nat
  since : Nat
  slot : Option Nat
  spilled : Bool
  frames : List (Nat × Nat)
  stopped : Bool
  deriving DecidableEq, Repr

/-- Address spaces of an access (R55). -/
inductive Space where
  | glob | scr | con | prv
  deriving DecidableEq, Repr

/-- One access of one thread: pa is its cell key (scratch: the scratch address); pkt is a diff it waits for (R145, R151). -/
structure Access where
  lane : Nat
  va : Nat
  pa : Nat
  size : Nat
  data : List Byte
  swp : List Byte
  done : Bool
  res : List Byte
  pkt : Option Nat
  gen : Nat
  deriving DecidableEq, Repr

/-- Where a long-latency result goes. -/
inductive Dest where
  | v (r : Nat)
  | s (r : Nat)
  | p (r : Nat)
  | qm
  deriving DecidableEq, Repr

/-- A diff packet on its way (R254, R255): runs are (first byte, bytes). succ: the successor page of a retired one (R263); drop: the sector leaves the die at the acknowledgement. -/
structure Packet where
  die : Nat
  ctx : Nat
  kind : Nat
  seq : Nat
  sector : Nat
  runs : List (Nat × List Byte)
  pz : Bool
  drop : Bool
  applied : Bool
  deriving DecidableEq, Repr

/-- What an operation in flight is. parked: a word that waits after issue, load for MWAIT and CWAIT (R154); relN keeps the packets of its release (R156), and the sectors that other packets under its SEQ have named (R254). -/
inductive OpKind where
  | load (w : Width) (d : Nat)
  | lds (sd : Nat)
  | store
  | atom (op : AtomOp) (d : Option Nat)
  | regs (dest : Dest) (wide : Bool) (vals : Tab W64) (fl : Tab (BitVec 6))
  | rel (started : Bool)
  | acq (started : Bool)
  | fence (phase : Nat)
  | relN (pa : Nat) (data : List Byte) (list : List Packet) (more : List Nat) (started : Bool)
  | publish (va n : Nat) (copies : List Nat) (started : Bool)
  | ctest (sd : Nat) (mask : W64)
  | pack (slot : W64) (elems : List (Option Nat))
  | unpack (slot : W64) (d : Nat)
  | cctl (line : Nat) (wb inv : Bool)
  | parked (load : Bool)
  deriving DecidableEq, Repr

/-- An operation that has issued and not finished: its warp, word, flag, scope, lanes whose results are still to come, accesses, earlier operations it covers and packets whose acknowledgement it awaits. -/
structure Op where
  ctx : Nat
  warp : Nat
  pc : Nat
  flag : Option Nat
  kind : OpKind
  sc : Scope
  space : Space
  lanes : Mask
  left : Mask
  accs : List Access
  acks : List Nat
  counted : Bool
  deriving DecidableEq, Repr

/-- A monitor (R163): key is the word's cell key, or its scratch address; mask form: CWAIT (R177). seen holds values sent and not yet tested. -/
structure Mon where
  ctx : Nat
  warp : Nat
  lanes : Mask
  pc : Nat
  flag : Option Nat
  sc : Scope
  scr : Bool
  key : Nat
  size : Nat
  cc : Cmp
  x : W64
  maskForm : Bool
  armed : Bool
  seen : List W64
  since : Nat
  deriving DecidableEq, Repr

/-- A copy template with the words of the copy start applied (R71, R166, R168). pages: the shadow pages of a shadow copy, by window (R173); image: what is left of a lost workgroup's source tile, as scratch, poisoned words, base and count (R361); begun: for each chunk begun, the address-map generation then, and the groups whose draining mark its core had acknowledged (R287, R290). -/
structure Copy where
  ctx : Nat
  grid : Nat
  cluster : Nat
  wg : Nat
  warp : Nat
  pc : Nat
  chan : Nat
  number : Nat
  xform : Nat
  slot : W64
  esize : Nat
  shadow : Bool
  toMem : Bool
  idx64 : Bool
  src : Nat
  srcTile : Option Nat
  dst : Nat
  dstTile : Option Nat
  target : Nat
  idxbase : Nat
  dims : List (Nat × Int × Int)
  sc : Scope
  acks : List Nat
  before : List Nat
  started : List Nat
  doneChunks : List Nat
  failed : Bool
  pages : List (Nat × List Nat)
  image : Option (Tab Byte × List Nat × Nat × Nat)
  begun : Tab (Nat × List Nat) := []
  deriving DecidableEq, Repr

/-- A lock handoff on its way to a die (R156, R261). more: sectors that earlier single-sector, early and eviction diffs under the list's SEQ have named (R254). -/
structure Handoff where
  die : Nat
  mons : List Nat
  value : W64
  stamp : Nat
  list : Option (List Packet)
  more : List Nat
  deriving DecidableEq, Repr

/-- A trap record (R343) with its place: core queue, warp and split or sequencer it parks. dbg: of a breakpoint or step of a debug session (R347, R348). -/
structure TrapRec where
  core : Nat
  warp : Option Nat
  wgKey : Nat
  pc : Nat
  exec : Mask
  live : Mask
  causes : List (Nat × Mask)
  ctx : Nat
  origin : Nat
  splitB : Bool
  fetch : Bool
  wid : Nat
  wgid : Nat
  clid : Nat
  detail : W64
  clock : W64
  dbg : Bool
  queued : Bool
  deriving DecidableEq, Repr

/-- A sector of a die L2 (R252): a twin makes it T. fresh: when its bytes last changed, against the stamps of handoffs. -/
structure Sector where
  data : List Byte
  twin : Option (List Byte)
  poison : Bool
  age : Nat
  fresh : Nat
  deriving DecidableEq, Repr

/-- A line of a shared pool window in a die L2 (R275). -/
inductive PoolSt where
  | m | e | s
  deriving DecidableEq, Repr

structure PoolLine where
  st : PoolSt
  data : List Byte
  poison : Bool
  age : Nat
  deriving DecidableEq, Repr

/-- The package state of a pool line at the DCA (R275). -/
inductive DcaSt where
  | s | e | m | o
  deriving DecidableEq, Repr

structure DcaLine where
  st : DcaSt
  data : Option (List Byte)
  poison : Bool
  age : Nat
  deriving DecidableEq, Repr

/-- A translation held by a core's or a die's TLB (R333). -/
structure TlbEntry where
  ctx : Nat
  page : Nat
  pa : Nat
  kind : Nat
  ct : Bool
  r : Bool
  w : Bool
  x : Bool
  gen : Nat
  deriving DecidableEq, Repr

/-- An upper-level page-table entry that the walk unit has cached (R333): its level, the address bits above the level, the entry, the mapping generation at its fill. -/
structure WalkEntry where
  level : Nat
  prefix_ : Nat
  entry : Nat
  gen : Nat
  deriving DecidableEq, Repr

/-- A compute die: its L2 keyed by (context, sector), release sequence counters by context, last-seen positions by 16 ctx + home, release lists to skip, tags that the next acquire sweeps though it skips their notices (R156), sectors named under a context's present SEQ as (context, sector) (R254), its L2 TLB, cluster-unit bytes by group; idle: groups whose last request placed nothing, with nothing changed since (R297). -/
structure Die where
  fenced : Bool
  l2 : Tab Sector
  pool : Tab PoolLine
  seqs : Tab (BitVec 23)
  lastSeen : Tab W64
  skips : List (Nat × Nat × Nat)
  left : List Nat
  early : List (Nat × Nat)
  tlb : List TlbEntry
  units : Tab (Tab Byte)
  holds : Tab Nat
  idle : List Nat := []
  deriving DecidableEq, Repr

/-- A core: L1 copies keyed by (context, sector), instruction-cache lines keyed by (context, 128-byte line), TLB, Scarab's queue of records (ids of State.recs), the clause choice's last warp by slice and class, the warp that holds each slice. DESIGN CHOICE, unsafe (log 23). -/
structure Core where
  l1 : Tab (List Byte)
  icache : Tab (List Byte)
  tlb : List TlbEntry
  queue : List Nat
  rr : Tab Nat
  holds : Tab Nat
  deriving DecidableEq, Repr

/-- A notice (R259). -/
structure Notice where
  ctx : Nat
  kind : Nat
  die : Nat
  seq : Nat
  block : Nat
  deriving DecidableEq, Repr

/-- A home slice: append position, notices by entry number, fence (R259, R365). -/
structure Home where
  pos : W64
  ring : Tab Notice
  fenced : Bool
  deriving DecidableEq, Repr

/-- A submission ring (R292). -/
structure Ring where
  rbase : BitVec 57
  en : Bool
  halt : Bool
  pmax : BitVec 2
  log2n : BitVec 5
  rtail : BitVec 32
  rhead : BitVec 32
  deriving DecidableEq, Repr

/-- A destination window of shadow copies (R173): its shadow page, as 16 cell pages of 4 KiB, and the bytes some shadow copy wrote. closed: the PUBLISH that has issued for it; copies started after that write a new set (R179). -/
structure Shadow where
  va : Nat
  page : List Nat
  written : List Nat
  closed : Option Nat
  deriving DecidableEq, Repr

/-- A page that a PUBLISH retired, and its successor, as 16 cell pages of 4 KiB (R263). -/
structure Retired where
  page : List Nat
  succ : List Nat
  gen : Nat
  deriving DecidableEq, Repr

/-- An entry of the remap table (R352). -/
structure Remap where
  cluster : Nat
  wg : Nat
  frame : Nat
  img : Nat
  count : Nat
  tile : Nat
  scrb : Nat
  deriving DecidableEq, Repr

/-- The registers of a context (R328, R295, R292) and what the module keeps for it. published: the shadow pages a PUBLISH has switched to, by window, and pubLeaf the page-table entries that the switch overrides (R179); walks: the walk unit's cached entries (R333). DEDUCED, unsafe (log 32). -/
structure Ctx where
  part : BitVec 2
  en : Bool
  ptb : BitVec 40
  skey : BitVec 16
  saveb : BitVec 45
  saven : BitVec 12
  shb : BitVec 36
  shn : BitVec 16
  conb : BitVec 45
  conn : BitVec 15
  prvb : BitVec 41
  prvg : BitVec 16
  phwm : BitVec 20
  psz : BitVec 20
  prvng : BitVec 6
  tplb : BitVec 45
  tpln : BitVec 12
  monmax : BitVec 13
  dbgctl : W64
  ibusy : Bool
  inv : Option (Nat × Nat)
  mdst : BitVec 36
  mdstUsed : Bool
  merr : Bool
  mbusy : Bool
  mapgen : W64
  copyNo : BitVec 23
  slips : W64
  wquota : BitVec 16
  twovf : W64
  errcnt : W64
  rings : Tab Ring
  shadows : List Shadow
  freePages : List (List Nat)
  retired : List Retired
  published : Tab (List Nat)
  pubLeaf : Tab (List Nat)
  walks : List WalkEntry
  remaps : List Remap
  deriving DecidableEq, Repr

/-- A partition (R324, R327, R296, R364). free: its free capacity frames in HBM (R338, R340). -/
structure Part where
  dies : BitVec 8
  ogs : BitVec 12
  units : List (Nat × Nat)
  free : List Nat
  age : BitVec 8
  rtmo : BitVec 16
  deriving DecidableEq, Repr

/-- States of an Obper group (R282). -/
inductive OgSt where
  | active | quiescing | draining | dark | training | mapping | failed
  deriving DecidableEq, Repr

/-- Kinds of system window (R289). -/
inductive WinKind where
  | host | pool | peer | tier
  deriving DecidableEq, Repr

/-- A window that a group carries under a personality. peer: the accelerator behind a UALink window, the source identity of an Ethernet region (R279, R324). -/
structure Win where
  pers : Nat
  kind : WinKind
  base : Nat
  size : Nat
  link : Nat
  peer : Nat := 0
  deriving DecidableEq, Repr

/-- A transmit filter (R324): address windows of CXL links as (link, base, size), accelerator IDs, source identities as (port, identity). -/
structure Filter where
  cxl : List (Nat × Nat × Nat)
  accels : List Nat
  sources : List (Nat × Nat)
  deriving DecidableEq, Repr

/-- What the signed policy says of a group (R324): the codes it may take, its code at reset with the lanes in use, whether it is the pinned host link, the filter of each code, and the windows it gives the group. -/
structure GroupPolicy where
  allowed : BitVec 16
  pers : BitVec 4
  lanes : BitVec 16
  pin : Bool
  filters : Tab Filter
  plan : List Win
  deriving DecidableEq, Repr

/-- The signed policy (R324). serial names it, for its digest. -/
structure Policy where
  serial : Nat
  groups : Tab GroupPolicy
  limit : Nat
  parts : Tab Part
  deriving DecidableEq, Repr

/-- An Obper group (R282): its registers, the personalities the policy allows, the windows the policy gives it, those now on the map, the cores that acknowledged the draining mark, its failed links; filters: the policy's, by code; filter: the one loaded (R285, R324); dropped: frames that a filter has dropped; joined: the address-map generation at which its windows joined (R290). -/
structure Og where
  lanes : BitVec 16
  st : OgSt
  pers : BitVec 4
  tgt : BitVec 4
  reason : BitVec 4
  pin : Bool
  ref : Bool
  busy : Bool
  allowed : BitVec 16
  plan : List Win
  windows : List Win
  acks : List Nat
  failedLinks : List Nat
  downLinks : List Nat
  filters : Tab Filter
  filter : Filter
  dropped : Nat
  joined : Nat
  deriving DecidableEq, Repr

/-- A page of the capacity tier on its way (R338-R340): page is its number (VA / 65536), src the pool frame it leaves, dst the frame it goes to (0 while none is found), out the near page that goes to src instead; far: dst is a pool frame too; cmd: a CTMIG command started it; lost: its link has failed (R358). Frames are physical addresses. -/
structure Swap where
  ctx : Nat
  page : Nat
  src : Nat
  dst : Nat
  out : Option Nat
  far : Bool
  cmd : Bool
  lost : Bool := false
  deriving DecidableEq, Repr

/-- A line of the DCA's host directory: the host may hold it, exclusively or not (R271-R273). -/
structure HostLine where
  excl : Bool
  deriving DecidableEq, Repr

/-- An outstanding back-invalidate snoop (R271, R272): inv or data; it belongs to a flip, an access or a monitor. applied: the line's writeback has come as a MemWr (R272). -/
structure Snoop where
  line : Nat
  inv : Bool
  flip : Bool
  applied : Bool := false
  deriving DecidableEq, Repr

/-- A CXL.mem request of the host that the DCA holds (R270, R272): a read of a line, which the host may want to keep and asked for as line ask, or a write of bytes at a cell. -/
inductive HostReq where
  | rd (line : Nat) (cache : Bool) (ask : Nat)
  | wr (key : Nat) (data : List Byte)
  deriving DecidableEq, Repr

/-- A BFLIP command in progress (R269): target bias, and the cell pages of 4 KiB still to flip, the first of them flipping. -/
structure Flip where
  toHost : Bool
  pages : List Nat
  deriving DecidableEq, Repr

/-- A reduction across devices (R237, R363): its slot, the root's target format and destination cell, its partition, the group whose engine it uses, who contributes and who has, the sum, the cells of the participants' status words, the clock of the first contribution, and RES (0 while in progress). How one is set up is no part of the spec. -/
structure Reduction where
  slot : W64
  fmt : BitVec 5
  dst : Nat
  part : Nat
  group : Option Nat
  need : List Nat
  got : List Nat
  sum : BitVec 96
  sat : Bool
  status : List Nat
  first : W64
  res : BitVec 2
  deriving DecidableEq, Repr

/-- The management controller's registers (R322, R326). -/
structure Mgmt where
  stage : BitVec 4
  recov : Bool
  polok : Bool
  idok : Bool
  ready : Bool
  pwrreq : BitVec 13
  limit : BitVec 13
  sel : BitVec 3
  qbusy : Bool
  qrej : Bool
  qdst : Nat
  quote : List (BitVec 384)
  qnonce : BitVec 384
  nonce : Tab W64
  meas : Tab (BitVec 384)
  ext : List W64
  throttled : Bool
  deriving DecidableEq, Repr

/-- Firefly (R364). -/
structure Firefly where
  retired : BitVec 16
  narrow : BitVec 12
  cdlost : BitVec 4
  linkdn : BitVec 8
  overLoss : Bool
  repl : Bool
  beacons : Nat
  deriving DecidableEq, Repr

/-- Who issues next: a warp (and which split) or the sequencer of a workgroup. -/
inductive Issuer where
  | warp (key : Nat)
  | seq (wgKey : Nat)
  deriving DecidableEq, Repr

/-- One turn: an event happens, an issuer issues one word, or time passes. -/
inductive Turn where
  | event (i : Instr)
  | issue (who : Issuer)
  | tick (cycles : Nat)
  deriving DecidableEq, Repr

/-- The module. hostResp: the DCA's answers to the host, none for a poisoned or aborted one (R267); hostMap: pages whose content a PUBLISH has moved, as (page the host addresses, cell page) (R180); policy: the signed policy that stage 4 of a boot loads (R322, R324). Tables are keyed: warps by (cluster*8 + wgid)*32 + warpid, workgroups by cluster*8 + wgid, cores by 24*die + core, everything else by its number. DESIGN CHOICE, safe (log 1). -/
structure State where
  clock : W64
  agenda : List Turn
  cur : Option Issuer
  draws : Nat
  nextId : Nat
  mem : List (Nat × BitVec 8)
  memPoison : List Nat
  bias : Tab Byte
  homes : Tab Home
  dies : Tab Die
  cores : Tab Core
  dca : Tab DcaLine
  ctxs : Tab Ctx
  parts : Tab Part
  ogs : Tab Og
  mapGen : W64
  grids : Tab Grid
  clusters : Tab Cluster
  wgs : Tab Wg
  warps : Tab Warp
  ops : Tab Op
  pkts : Tab Packet
  mons : Tab Mon
  copies : Tab Copy
  handoffs : Tab Handoff
  recs : Tab TrapRec
  swaps : Tab Swap
  hostDir : Tab HostLine
  snoops : List Snoop
  held : List HostReq
  hostResp : List (Nat × Option (List Byte))
  hostMap : Tab Nat
  peerResp : List (Nat × List Byte)
  flip : Option Flip
  bfErr : Bool
  bfRej : Bool
  reductions : Tab Reduction
  meshDown : List Nat
  policy : Policy
  mgmt : Mgmt
  firefly : Firefly
  preempts : List Nat
  deriving DecidableEq, Repr

/-- A ring after reset (R292). -/
def Ring.reset : Ring :=
  { rbase := 0, en := false, halt := false, pmax := 0, log2n := 4, rtail := 0, rhead := 0 }

/-- A context's registers after reset (R328, R295, R326, R364). -/
def Ctx.reset : Ctx :=
  { part := 0, en := false, ptb := 0, skey := 0, saveb := 0, saven := 0, shb := 0, shn := 0, conb := 0, conn := 0,
    prvb := 0, prvg := 0, phwm := 0, psz := 0, prvng := 0, tplb := 0, tpln := 0, monmax := 1024, dbgctl := 0,
    ibusy := false, inv := none, mdst := 0, mdstUsed := false, merr := false, mbusy := false, mapgen := 0, copyNo := 0, slips := 0,
    wquota := 0, twovf := 0, errcnt := 0, rings := [], shadows := [], freePages := [], retired := [], published := [],
    pubLeaf := [], walks := [], remaps := [] }

/-- A C-die after reset. DESIGN CHOICE, unsafe (log 3). -/
def Die.reset : Die :=
  { fenced := false, l2 := [], pool := [], seqs := [], lastSeen := [], skips := [], left := [], early := [], tlb := [], units := [], holds := [] }

/-- A core after reset. -/
def Core.reset : Core := { l1 := [], icache := [], tlb := [], queue := [], rr := [], holds := [] }

/-- A home after reset. DESIGN CHOICE, unsafe (log 3). -/
def Home.reset : Home := { pos := 0, ring := [], fenced := false }

/-- A filter that admits nothing. -/
def Filter.none : Filter := { cxl := [], accels := [], sources := [] }

/-- What the policy says of a group that it does not name (log 5). DESIGN CHOICE, unsafe (log 5). -/
def GroupPolicy.off : GroupPolicy := { allowed := 0x3D#16, pers := 0, lanes := 0, pin := false, filters := [], plan := [] }

/-- The host window of the pinned group (log 5): the first system region. -/
def Win.hostWindow : Win := { pers := 1, kind := .host, base := 0x1000000000000, size := 0x10000000000, link := 0 }

/-- What the policy says of the pinned host link (R281; log 5). DESIGN CHOICE, unsafe (log 5). -/
def GroupPolicy.hostLink : GroupPolicy :=
  { allowed := 0x2#16, pers := 1, lanes := 0xFFFF#16, pin := true, plan := [Win.hostWindow],
    filters := [(1, { Filter.none with cxl := [(0, 0x1000000000000, 0x10000000000)] })] }

/-- A group as the policy sets it up at reset: its windows and filter are those of its code (R281, R324). -/
def Og.ofPolicy (p : GroupPolicy) : Og :=
  { lanes := p.lanes, st := .active, pers := p.pers, tgt := p.pers, reason := 0, pin := p.pin, ref := false, busy := false,
    allowed := p.allowed, plan := p.plan, windows := p.plan.filter (fun w => w.pers == p.pers.toNat), acks := [], failedLinks := [],
    downLinks := [], filters := p.filters, filter := ((p.filters.find? (fun e => e.1 == p.pers.toNat)).map (·.2)).getD Filter.none,
    dropped := 0, joined := 0 }

/-- An Obper group that the policy leaves off (R281, R324). -/
def Og.off : Og := Og.ofPolicy GroupPolicy.off

/-- The pinned host link (R281). -/
def Og.hostLink : Og := Og.ofPolicy GroupPolicy.hostLink

/-- The partition of a policy that names one (log 5). -/
def Part.whole : Part := { dies := 0xFF#8, ogs := 0xFFF#12, units := [(0, 1023)], free := [], age := 64, rtmo := 2000 }

/-- The policy that the module is shipped with: its contents are the model's choice. DESIGN CHOICE, unsafe (log 5). -/
def Policy.shipped : Policy := { serial := 0, groups := [(0, GroupPolicy.hostLink)], limit := 4000, parts := [(0, Part.whole)] }

/-- The management registers after reset (R326). -/
def Mgmt.reset : Mgmt :=
  { stage := 0, recov := false, polok := false, idok := false, ready := false, pwrreq := 4000, limit := 4000, sel := 4,
    qbusy := false, qrej := false, qdst := 0, quote := [], qnonce := 0, nonce := [], meas := [], ext := [],
    throttled := false }

/-- Firefly after reset (R364). -/
def Firefly.reset : Firefly :=
  { retired := 0, narrow := 0, cdlost := 0, linkdn := 0, overLoss := false, repl := false, beacons := 0 }

/-- The module right after reset: no context enabled, nothing admitted, every table empty. -/
def State.reset : State :=
  { clock := 0, agenda := [], cur := none, draws := 0, nextId := 0, mem := [], memPoison := [], bias := [], homes := [],
    dies := [], cores := [], dca := [], ctxs := [], parts := [(0, Part.whole)], ogs := [(0, Og.hostLink)], mapGen := 0,
    grids := [], clusters := [], wgs := [], warps := [], ops := [], pkts := [], mons := [], copies := [], handoffs := [],
    recs := [], swaps := [], hostDir := [], snoops := [], held := [], hostResp := [], hostMap := [], peerResp := [], flip := none,
    bfErr := false, bfRej := false, reductions := [], meshDown := [], policy := Policy.shipped, mgmt := Mgmt.reset, firefly := Firefly.reset,
    preempts := [] }

end Sys2Proof.Machine
end

