-- ==== Sys2Proof/Machine/Ops.lean ====
section
/-! DEFINITION. Named operations over the state: who issues, register reads and writes with their latencies, moving past a word, parking, taking a trap and returning from one. -/

namespace Sys2Proof.Machine

/-! Masks of lanes. -/

def lanes32 : List Nat := List.range 32

/-- Lane l is in the mask. -/
def inMask (m : Mask) (l : Nat) : Bool := m.getLsbD l

/-- The mask of the lanes that satisfy a test. -/
def maskOf (f : Nat → Bool) : Mask :=
  lanes32.foldl (fun m l => if f l then m ||| (1#32 <<< l) else m) 0#32

/-- The lanes of a mask, ascending. -/
def maskLanes (m : Mask) : List Nat := lanes32.filter (inMask m)

/-- The lowest lane of a mask. -/
def lowLane (m : Mask) : Nat := (maskLanes m).headD 0

/-- A number into an ascending list without repeats. -/
def insertNat (x : Nat) : List Nat → List Nat
  | [] => [x]
  | y :: ys => if x < y then x :: y :: ys else if x = y then y :: ys else y :: insertNat x ys

/-- The numbers of a list, ascending, each once. -/
def sortNats (l : List Nat) : List Nat := l.foldr insertNat []

/-! Records of the state by key. -/

def State.ctxAt (s : State) (c : Nat) : Ctx := Tab.get Ctx.reset s.ctxs c
def State.setCtx (s : State) (c : Nat) (x : Ctx) : State := { s with ctxs := Tab.put s.ctxs c x }
def State.dieAt (s : State) (d : Nat) : Die := Tab.get Die.reset s.dies d
def State.setDie (s : State) (d : Nat) (x : Die) : State := { s with dies := Tab.put s.dies d x }
def State.coreAt (s : State) (c : Nat) : Core := Tab.get Core.reset s.cores c
def State.setCore (s : State) (c : Nat) (x : Core) : State := { s with cores := Tab.put s.cores c x }
def State.homeAt (s : State) (m : Nat) : Home := Tab.get Home.reset s.homes m
def State.setHome (s : State) (m : Nat) (x : Home) : State := { s with homes := Tab.put s.homes m x }
def State.ogAt (s : State) (g : Nat) : Og := Tab.get Og.off s.ogs g
def State.setOg (s : State) (g : Nat) (x : Og) : State := { s with ogs := Tab.put s.ogs g x }
def State.partAt (s : State) (n : Nat) : Part :=
  Tab.get { dies := 0, ogs := 0, units := [], free := [], age := 64, rtmo := 2000 } s.parts n
def State.setPart (s : State) (n : Nat) (x : Part) : State := { s with parts := Tab.put s.parts n x }
def State.setWarp (s : State) (k : Nat) (w : Warp) : State := { s with warps := Tab.put s.warps k w }
def State.setWg (s : State) (k : Nat) (w : Wg) : State := { s with wgs := Tab.put s.wgs k w }
def State.setCluster (s : State) (k : Nat) (c : Cluster) : State := { s with clusters := Tab.put s.clusters k c }
def State.setGrid (s : State) (k : Nat) (g : Grid) : State := { s with grids := Tab.put s.grids k g }
def State.setOp (s : State) (k : Nat) (o : Op) : State := { s with ops := Tab.put s.ops k o }

/-- The record at a key changes by f. -/
def State.modWarp (s : State) (k : Nat) (f : Warp → Warp) : State := { s with warps := Tab.mod s.warps k f }
def State.modWg (s : State) (k : Nat) (f : Wg → Wg) : State := { s with wgs := Tab.mod s.wgs k f }

/-- A fresh number for an operation, packet, monitor, copy or record. -/
def State.fresh (s : State) : Nat × State := (s.nextId, { s with nextId := s.nextId + 1 })

/-! Requests of cluster groups (R297). -/

/-- A group's resources have changed: it requests work again. -/
def State.wakeGroup (s : State) (die group : Nat) : State :=
  let d := s.dieAt die
  s.setDie die { d with idle := d.idle.filter (· != group) }

/-- What the queues offer has changed: every group requests work again. DEDUCED, safe (log 97). -/
def State.wakeGroups (s : State) : State := { s with dies := s.dies.map (fun e => (e.1, { e.2 with idle := [] })) }

/-! Launch-record fields (R69). -/

/-- Bits hi:lo of word n of a launch record. -/
def Grid.field (g : Grid) (n hi lo : Nat) : Nat := (g.words.getD n 0).toNat / 2 ^ lo % 2 ^ (hi + 1 - lo)

def Grid.entry (g : Grid) : Nat := g.field 0 56 0
def Grid.mstream (g : Grid) : Nat := g.field 1 56 0
def Grid.nclus (g : Grid) : Nat := g.field 2 63 32
def Grid.nwgs (g : Grid) : Nat := g.field 2 26 24 + 1
def Grid.nwarps (g : Grid) : Nat := g.field 2 12 8 + 1
def Grid.lastw (g : Grid) : Nat := g.field 2 5 0
def Grid.regq (g : Grid) : Nat := g.field 3 63 56
def Grid.accn (g : Grid) : Nat := g.field 3 51 48
def Grid.tilen (g : Grid) : Nat := g.field 3 46 40
def Grid.teamn (g : Grid) : Nat := g.field 3 38 32
def Grid.barn (g : Grid) : Nat := g.field 3 29 24
def Grid.scrBytes (g : Grid) : Nat := 256 * g.field 3 11 0
def Grid.ceiling (g : Grid) : Nat := g.field 4 63 56
def Grid.prio (g : Grid) : Nat := g.field 4 53 52
def Grid.spread (g : Grid) : Bool := g.field 4 51 51 == 1
def Grid.restart (g : Grid) : Bool := g.field 4 50 50 == 1
def Grid.donectr (g : Grid) : Nat := g.field 5 56 0
def Grid.waitctr (g : Grid) : Nat := g.field 6 56 0
def Grid.waitval (g : Grid) : Nat := (g.words.getD 7 0).toNat
def Grid.slotWord (g : Grid) (n : Nat) : W64 := g.words.getD (8 + n) 0
def Grid.arg (g : Grid) (n : Nat) : W64 := g.words.getD (16 + n) 0
def Grid.swapthr (g : Grid) : Nat := g.field 24 31 0
def Grid.barbase (g : Grid) : Nat := g.scrBytes - 8 * g.barn

/-! Threads. -/

/-- A lane that the warp does not have (R15). -/
def Thread.missing : Thread :=
  { pc := 0, st := .absent, cl := none, team := 0, rank := 0, size := 0, path := [], frames := [], parity := 0,
    arrived := 0, owed := 0, again := false }

def Warp.thread (w : Warp) (l : Nat) : Thread := w.threads.getD l Thread.missing

/-- A thread that has not exited. -/
def Thread.live (t : Thread) : Bool := t.st != .absent && t.st != .exited

/-- A thread that can issue. -/
def Thread.isReady (t : Thread) : Bool := t.st == .ready

/-- Threads of the warp that have not exited (R67 livemask). -/
def Warp.liveMask (w : Warp) : Mask := maskOf (fun l => (w.thread l).live)

/-- Change the threads of a mask. -/
def Warp.modThreads (w : Warp) (m : Mask) (f : Thread → Thread) : Warp :=
  { w with threads := w.threads.mapIdx (fun l t => if inMask m l then f t else t) }

/-- The threads of a mask park. -/
def Warp.park (w : Warp) (m : Mask) (x : Wait) : Warp := w.modThreads m (fun t => { t with st := .parked x })

/-- A thread moves past the word at its pc: to the next word, out of the clause after its last word (R76). -/
def Thread.pass (t : Thread) : Thread :=
  match t.cl with
  | some c => { t with pc := t.pc + 8, cl := if t.pc + 8 ≤ c.hdr + 8 * c.cnt then some c else none }
  | none => { t with pc := t.pc + 8 }

/-- A thread goes to a target, where it enters a clause (R76, R77). -/
def Thread.goto (a : Nat) (t : Thread) : Thread := { t with pc := a, cl := none }

/-- A thread resumes. -/
def Thread.wake (t : Thread) : Thread := { t with st := .ready }

/-! Register access with latencies (R82). -/

/-- The vector register r of a lane as it stands. -/
def Warp.vreg (w : Warp) (r l : Nat) : W32 := Tab.get 0 w.v (32 * r + l)

/-- A scalar as it stands; s0 reads zero (R48). -/
def sregOf (t : Tab W64) (r : Nat) : W64 := if r = 0 then 0 else Tab.get 0 t r

def Warp.sreg (w : Warp) (r : Nat) : W64 := sregOf w.s r

/-- A predicate of a lane as it stands; p7 reads true (R48). -/
def Warp.preg (w : Warp) (r l : Nat) : Bool := if r = 7 then true else inMask (Tab.get 0 w.p r) l

/-- The values a register had before results younger than their latency, for a lane (R82). -/
def Warp.stale (w : Warp) (r : RegName) (l : Nat) : List W64 :=
  (w.hazards.filter (fun h => h.reg = r && inMask h.lanes l)).map (fun h => Tab.get 0 h.old l)

/-- A read that may be too early: one of the value as it stands and the values before it (R82). DEDUCED, safe (log 79). -/
def choose (n : Nat) (now : W64) (olds : List W64) : W64 :=
  match olds with
  | [] => now
  | _ => (now :: olds).getD (Config.freeNat n % (olds.length + 1)) now

/-- Scalars that a word of the split reads: in a co-issue, split B reads them as they stood before split A's word (R98). -/
def Warp.scalars (w : Warp) : Tab W64 := w.coS.getD w.s

def Warp.readS (w : Warp) (n r l : Nat) : W64 := choose n (sregOf w.scalars r) (w.stale (.s r) l)

/-- DEDUCED, safe (log 79). -/
def Warp.readV (w : Warp) (n r l : Nat) : W32 := (choose n ((w.vreg r l).setWidth 64) (w.stale (.v r) l)).setWidth 32

def Warp.readP (w : Warp) (n r l : Nat) : Bool :=
  (choose n ((BitVec.ofBool (w.preg r l)).setWidth 64) (w.stale (.p r) l)).getLsbD 0

/-- Hazards of a split age by n; a hazard whose distance is reached is gone (R82). -/
def age (n : Nat) (m : Mask) (hs : List Hazard) : List Hazard :=
  hs.flatMap (fun h =>
    (if h.lanes &&& m ≠ 0 ∧ n < h.left then [{ h with lanes := h.lanes &&& m, left := h.left - n }] else [])
      ++ (if h.lanes &&& ~~~m ≠ 0 then [{ h with lanes := h.lanes &&& ~~~m }] else []))

/-- Every result of these threads is as old as its latency once DIST has aged it, so that a read meets one value (R82). -/
def Settled (dist : Nat) (m : Mask) (hs : List Hazard) : Prop := ∀ z ∈ hs, z.lanes &&& m = 0 ∨ z.left ≤ dist

/-- A register is written: in these lanes an older result of it is now the value before the new one, at most the new one's latency young (R82). -/
def overwritten (reg : RegName) (m : Mask) (lat : Nat) (hs : List Hazard) : List Hazard :=
  hs.flatMap (fun h =>
    if h.reg = reg then
      (if h.lanes &&& m ≠ 0 ∧ lat ≠ 0 then [{ h with lanes := h.lanes &&& m, left := Nat.min h.left lat }] else [])
        ++ (if h.lanes &&& ~~~m ≠ 0 then [{ h with lanes := h.lanes &&& ~~~m }] else [])
    else [h])

/-- Hazards after a write of latency lat over these values. -/
def hazardsAfter (reg : RegName) (m : Mask) (lat : Nat) (old : Nat → W64) (hs : List Hazard) : List Hazard :=
  overwritten reg m lat hs ++
    (if lat = 0 then [] else [{ reg := reg, lanes := m, old := (maskLanes m).map (fun l => (l, old l)), left := lat }])

/-- Every lane of a mask receives its value in register r. -/
def Warp.writeV (w : Warp) (lat r : Nat) (m : Mask) (f : Nat → W32) : Warp :=
  { w with
    v := (maskLanes m).foldl (fun t l => Tab.set 0 t (32 * r + l) (f l)) w.v
    vPoison := w.vPoison.filter (fun k => !(k / 32 == r && inMask m (k % 32)))
    hazards := hazardsAfter (.v r) m lat (fun l => (w.vreg r l).setWidth 64) w.hazards }

/-- A scalar is written once for a split; writes to s0 are discarded (R48). -/
def Warp.writeS (w : Warp) (lat r : Nat) (m : Mask) (x : W64) : Warp :=
  if r = 0 then w else
  { w with
    s := Tab.set 0 w.s r x
    hazards := hazardsAfter (.s r) m lat (fun _ => w.sreg r) w.hazards }

/-- Every lane of a mask receives its value in predicate r; writes to p7 are discarded (R48). -/
def Warp.writeP (w : Warp) (lat r : Nat) (m : Mask) (f : Nat → Bool) : Warp :=
  if r = 7 then w else
  { w with
    p := Tab.set 0 w.p r ((Tab.get 0 w.p r &&& ~~~m) ||| (m &&& maskOf f))
    hazards := hazardsAfter (.p r) m lat (fun l => (BitVec.ofBool (w.preg r l)).setWidth 64) w.hazards }

/-! The issuer (R300). -/

/-- The warp that issues, with what it belongs to. -/
structure View where
  key : Nat
  w : Warp
  wgKey : Nat
  wg : Wg
  clKey : Nat
  cl : Cluster
  gKey : Nat
  g : Grid
  deriving DecidableEq, Repr

/-- A resident warp with its workgroup, cluster and grid. -/
def State.view (s : State) (key : Nat) : Option View :=
  match Tab.look s.warps key with
  | none => none
  | some w =>
    match Tab.look s.wgs (key / 32), Tab.look s.clusters (key / 256) with
    | some wg, some cl =>
      match Tab.look s.grids cl.grid with
      | some g => some ⟨key, w, key / 32, wg, key / 256, cl, cl.grid, g⟩
      | none => none
    | _, _ => none

def State.curView (s : State) : Option View :=
  match s.cur with
  | some (.warp k) => s.view k
  | _ => none

/-- The threads of the split that issues: B's in its turn of a co-issue, else A's (R22, R300). -/
def Warp.split (w : Warp) : Mask :=
  match w.pair with
  | some p => if p.turnB then p.b else p.a
  | none => 0

/-- The warp has a pair with threads to issue. -/
def Warp.issuing (w : Warp) : Bool :=
  match w.pair with
  | some p => (p.a ||| p.b) != 0
  | none => false

/-- The issuing split is B. -/
def Warp.isB (w : Warp) : Bool :=
  match w.pair with
  | some p => p.turnB
  | none => false

/-- The word address of a split. -/
def Warp.pcOf (w : Warp) (m : Mask) : Nat := (w.thread (lowLane m)).pc

/-- Threads of a split whose guard is true (R81): read as any predicate is (R82). -/
def Warp.enabled (w : Warp) (n : Nat) (h : Head) (m : Mask) : Mask :=
  let p := (h.guard.setWidth 3 : BitVec 3).toNat
  maskOf (fun l => inMask m l && (w.readP (n + l) p l != h.guard.getLsbD 3))

/-- The flag a long-latency word of the split counts on (R28, R54). -/
def Warp.flagFor (w : Warp) (m : Mask) (fsel : Bool) : Option Nat :=
  match (w.thread (lowLane m)).cl with
  | some c => if fsel then c.setB else c.setA
  | none => none

def Warp.flag (w : Warp) (f : Nat) : Nat := Tab.get 0 w.flags f

def Warp.raiseFlag (w : Warp) (f : Option Nat) : Warp :=
  match f with
  | some f => { w with flags := Tab.set 0 w.flags f (w.flag f + 1) }
  | none => w

def Warp.lowerFlag (w : Warp) (f : Option Nat) : Warp :=
  match f with
  | some f => { w with flags := Tab.set 0 w.flags f (w.flag f - 1) }
  | none => w

def Warp.flagsZero (w : Warp) : Bool := (List.range 12).all (fun f => w.flag f == 0)

/-! Taking a trap (R97, R135, R343, R345). -/

/-- Cause codes (R344). -/
def causeIllegal : Nat := 1
def causeClass : Nat := 2
def causeMce : Nat := 3
def causeQuota : Nat := 4
def causeReservation : Nat := 5
def causeMisaligned : Nat := 6
def causeScratch : Nat := 7
def causeConstant : Nat := 8
def causeAperture : Nat := 9
def causeTemplate : Nat := 10
def causeCopyBounds : Nat := 11
def causeShadowPool : Nat := 12
def causeTileNotReady : Nat := 13
def causeTileRange : Nat := 14
def causeSlot : Nat := 15
def causeAccMode : Nat := 16
def causeLoopDepth : Nat := 17
def causeRestart : Nat := 18
def causeSpace : Nat := 19
def causePartial : Nat := 20
def causeBarOrder : Nat := 21
def causeMismatch : Nat := 22
def causeAlignment : Nat := 23
def causeDepth : Nat := 24
def causeExhausted : Nat := 25
def causePbUninit : Nat := 26
def causePbOver : Nat := 27
def causeQuotaTransfer : Nat := 28
def causeVaRange : Nat := 29
def causeNotMapped : Nat := 30
def causePermission : Nat := 31
def causeBounds : Nat := 32
def causeOffline : Nat := 33
def causePrvLimit : Nat := 34
def causePrvExhausted : Nat := 35
def causeSoftTrap : Nat := 36
def causeBreak : Nat := 37
def causeStep : Nat := 38
def causeWatchdog : Nat := 39
def causeCopyFault : Nat := 40
def causeDeadlock : Nat := 41
def causePoison : Nat := 42
def causeSyscall : Nat := 43

/-- Causes that R344 marks resumable. -/
def resumable (c : Nat) : Bool := !(c == causeWatchdog || c == causeCopyFault || c == causeDeadlock)

/-- Causes in ascending order of their codes, without empty masks. -/
def sortCauses (cs : List (Nat × Mask)) : List (Nat × Mask) :=
  (List.range 44).flatMap (fun c =>
    let m := (cs.filter (fun e => e.1 == c)).foldl (fun a e => a ||| e.2) 0#32
    if m = 0 then [] else [(c, m)])

/-- The n-th cause of a record, 0 for none (R343 CAUSE0 to CAUSE3). -/
def TrapRec.cause (r : TrapRec) (n : Nat) : Nat := ((r.causes.getD n (0, 0#32))).1

/-- The n-th mask of a record; records of a sequencer or copy have none (R343). -/
def TrapRec.mask (r : TrapRec) (n : Nat) : Mask := ((r.causes.getD n (0, 0#32))).2

/-- The eight words of a trap record (R343). -/
def TrapRec.wordsOf (r : TrapRec) : List W64 :=
  [ BitVec.ofNat 64 (r.pc % 2 ^ 57),
    r.exec ++ r.live,
    BitVec.ofNat 8 (r.cause 0) ++ BitVec.ofNat 8 (r.cause 1) ++ BitVec.ofNat 8 (r.cause 2) ++ BitVec.ofNat 8 (r.cause 3)
      ++ BitVec.ofNat 6 r.ctx ++ BitVec.ofNat 2 r.origin ++ b1 r.splitB ++ b1 r.fetch ++ b1 (decide (4 < r.causes.length))
      ++ BitVec.ofNat 5 r.wid ++ BitVec.ofNat 3 r.wgid ++ 0#13,
    r.mask 0 ++ r.mask 1,
    r.mask 2 ++ r.mask 3,
    r.detail,
    BitVec.ofNat 32 r.clid ++ 0#32,
    r.clock ]

/-- A record enters its core's queue of 64, or waits while the queue is full or an older record waits (R345). -/
def State.addRec (s : State) (r : TrapRec) : State :=
  let id := s.nextId
  let c := s.coreAt r.core
  let older := s.recs.any (fun e => e.2.core == r.core && !e.2.queued)
  let fits := decide (c.queue.length < 64) && !older
  let s := { s with nextId := id + 1, recs := Tab.put s.recs id { r with queued := fits } }
  if fits then s.setCore r.core { c with queue := c.queue ++ [id] } else s

/-- The clock special register of a core (R67). -/
def State.clockAt (s : State) (core : Nat) : W64 := s.clock + (Config.clockSkew core).setWidth 64

/-- A record of a warp (R343). -/
def View.record (v : View) (s : State) (pc : Nat) (exec : Mask) (causes : List (Nat × Mask)) (detail : W64)
    (origin : Nat) : TrapRec :=
  { core := v.wg.core, warp := some v.key, wgKey := v.wgKey, pc := pc, exec := exec, live := v.w.liveMask,
    causes := sortCauses causes, ctx := v.g.ctx, origin := origin, splitB := v.w.isB, fetch := false, wid := v.w.wid,
    wgid := v.wg.wgid, clid := v.cl.clid, detail := detail, clock := s.clockAt v.wg.core, dbg := false, queued := false }

/-- Taking a trap: the split parks whole at the faulting word and its record goes to the core's Scarab (R345). Nothing else changes (R95, R135). -/
def State.raise (s : State) (v : View) (split : Mask) (causes : List (Nat × Mask)) (detail : W64) : State :=
  let s' := s.addRec (v.record s (v.w.pcOf split) split causes detail 0)
  s'.modWarp v.key (fun w => w.park split (.record s.nextId))

/-- A fetch fault or a fault at an arrival: the same, marked FETCH (R332). -/
def State.raiseFetch (s : State) (v : View) (split : Mask) (cause : Nat) (detail : W64) : State :=
  let s' := s.addRec { v.record s (v.w.pcOf split) split [(cause, split)] detail 0 with fetch := true }
  s'.modWarp v.key (fun w => w.park split (.record s.nextId))

/-- Causes raised in parked threads: one record for each warp and each word at which they are parked (R369). -/
def State.raiseParked (s : State) (v : View) (m : Mask) (cause : Nat) (detail : Nat → W64) : State :=
  let pcs := sortNats ((maskLanes m).map (fun l => (v.w.thread l).pc))
  pcs.foldl (fun s pc =>
    let e := maskOf (fun l => inMask m l && (v.w.thread l).pc == pc)
    let s' := s.addRec { v.record s pc e [(cause, e)] (detail pc) 0 with splitB := false }
    s'.modWarp v.key (fun w => w.park e (.record s.nextId))) s

/-! Returning from a trap (R342, R346). -/

/-- The threads parked on a record. -/
def Warp.onRecord (w : Warp) (id : Nat) : Mask := maskOf (fun l => (w.thread l).st == .parked (.record id))

/-- The record at the head of a core's queue. DEDUCED, unsafe (log 57). -/
def State.headRec (s : State) (core : Nat) : Option (Nat × TrapRec) :=
  match (s.coreAt core).queue with
  | [] => none
  | id :: _ =>
    match Tab.look s.recs id with
    | some r => some (id, r)
    | none => none

/-- The record at the head of a core's queue is ended. -/
def State.dropRec (s : State) (core id : Nat) : State :=
  let c := s.coreAt core
  { s.setCore core { c with queue := c.queue.filter (· != id) } with recs := Tab.del s.recs id }

/-- The threads parked on a record resume: at the word itself (REPLAY), past it (SKIP, ANSWER) or at a target (JUMP). -/
def State.resume (s : State) (id : Nat) (r : TrapRec) (f : Thread → Thread) : State :=
  match r.warp with
  | some k => s.modWarp k (fun w => w.modThreads (w.onRecord id) (fun t => (f t).wake))
  | none => s

end Sys2Proof.Machine
end

