-- ==== Sys2Proof/Machine/Mem.lean ====
section
/-! DEFINITION. Memory: physical addresses and their homes, the bias table, translation, and the copies that dies and cores hold, with the diffs, notices and monitors that writes give rise to. -/

namespace Sys2Proof.Machine

/-! Bytes and words, little-endian. -/

def bytesToNat : List Byte → Nat
  | [] => 0
  | b :: bs => b.toNat + 256 * bytesToNat bs

def natToBytes : Nat → Nat → List Byte
  | 0, _ => []
  | n + 1, x => BitVec.ofNat 8 x :: natToBytes n (x / 256)

/-- Bytes of a sparse byte map. DESIGN CHOICE, unsafe (log 2). -/
def readBytes (t : Tab Byte) (a n : Nat) : List Byte := (List.range n).map (fun i => Tab.get 0 t (a + i))

def writeBytes (t : Tab Byte) (a : Nat) (bs : List Byte) : Tab Byte :=
  (bs.mapIdx (fun i b => (i, b))).foldl (fun t e => Tab.set 0 t (a + e.1) e.2) t

/-- The canonical form of memory: addresses strictly rising, no entry equal to what an unlisted address reads as, 0. DESIGN CHOICE, unsafe (log 2). -/
def Memory.wf (m : List (Nat × BitVec 8)) : Bool := Tab.wf 0 m

/-- The byte of memory at a cell key. -/
def State.byteAt (s : State) (key : Nat) : Byte := Tab.get 0 s.mem key

/-- Overwrite part of a list of bytes. -/
def patch (data : List Byte) (o : Nat) (bs : List Byte) : List Byte :=
  data.mapIdx (fun i b => if o ≤ i ∧ i < o + bs.length then bs.getD (i - o) b else b)

/-! Physical addresses (R9, R330). -/

/-- The cell of a physical address: both HBM aliases of a byte give its die-placed address. -/
def cellOf (pa : Nat) : Nat :=
  if pa < 2 ^ 40 then 2 ^ 40 + pa / 2 ^ 12 % 16 * 2 ^ 36 + (pa / 2 ^ 16 * 2 ^ 12 + pa % 2 ^ 12) else pa

def isHbm (key : Nat) : Bool := decide (2 ^ 40 ≤ key ∧ key < 2 ^ 41)
def homeOf (key : Nat) : Nat := (key - 2 ^ 40) / 2 ^ 36
def homeOffset (key : Nat) : Nat := key % 2 ^ 36
def sectorOf (key : Nat) : Nat := key / 64

/-- The bias-table carve-out: the top 16 MiB of each home (R268). -/
def isCarveOut (key : Nat) : Bool := isHbm key && decide (2 ^ 36 - 2 ^ 24 ≤ homeOffset key)

/-- The 64 MiB unit of home offset lies in the partition (R327). -/
def Part.owns (p : Part) (key : Nat) : Bool :=
  p.units.any (fun u => decide (u.1 ≤ homeOffset key / 2 ^ 26 ∧ homeOffset key / 2 ^ 26 ≤ u.2))

/-- The window on the map that holds a system address, with its group (R289). -/
def State.windowAt (s : State) (pa : Nat) : Option (Nat × Win) :=
  s.ogs.findSome? (fun e =>
    (e.2.windows.find? (fun w => decide (w.base ≤ pa ∧ pa < w.base + w.size))).map (fun w => (e.1, w)))

/-- A group in a CXL downstream personality, codes 2 and 3 (R279). -/
def Og.isPool (g : Og) : Bool := g.pers == 2 || g.pers == 3

/-- The link of a group that a capacity frame lies behind: link 0 in code 2; in code 3 one of the two, which the spec does not say. DEDUCED, safe (log 60). -/
def Og.linkOf (g : Og) (pa : Nat) : Nat := if g.pers == 3 then Config.freeNat (2 ^ 62 + pa / 65536) % 2 else 0

/-- Lanes a to a + n - 1 of a mask. -/
def laneField (m : BitVec 16) (a n : Nat) : BitVec 16 := m &&& BitVec.ofNat 16 ((2 ^ n - 1) * 2 ^ a)

/-- Lanes in use by a link or port of the group (R279). -/
def Og.linkLanes (g : Og) (link : Nat) : BitVec 16 :=
  match g.pers.toNat with
  | 1 => if link = 0 then g.lanes else 0
  | 2 => if link = 0 then g.lanes else 0
  | 3 => laneField g.lanes (8 * link) 8
  | 4 => laneField g.lanes (4 * link) 4
  | 5 => laneField g.lanes (8 * link) 8
  | _ => 0

/-- The loaded transmit filter admits a request to an address, over a link or port, to a peer (R324). -/
def Og.sends (g : Og) (link pa peer : Nat) : Bool :=
  match g.pers.toNat with
  | 4 => g.filter.accels.contains peer
  | 5 => g.filter.sources.contains (link, peer)
  | _ => g.filter.cxl.any (fun f => decide (f.1 = link ∧ f.2.1 ≤ pa ∧ pa < f.2.1 + f.2.2))

/-- A group serves a capacity frame now: it is ACTIVE in a CXL downstream personality, the frame's link has trained and has not failed, and its filter admits the address (R280, R324, R332, R358). -/
def Og.servesPool (g : Og) (pa : Nat) : Bool :=
  g.st == .active && g.isPool && !g.failedLinks.contains (g.linkOf pa) && g.linkLanes (g.linkOf pa) != 0 && g.sends (g.linkOf pa) pa 0

/-- An address of a system window is out of reach: no group carries it, or its group's filter does not send the request; an Ethernet frame that the filter does not admit is sent and dropped (R289, R324). -/
def State.unreached (s : State) (pa : Nat) : Bool :=
  match s.windowAt pa with
  | none => true
  | some (g, w) => (s.ogAt g).pers != 5 && !(s.ogAt g).sends w.link pa w.peer

/-- An address of an Ethernet region whose frames the port's filter drops (R324). -/
def State.dropsFrame (s : State) (pa : Nat) : Bool :=
  !isHbm pa && (match s.windowAt pa with
    | none => false
    | some (g, w) => (s.ogAt g).pers == 5 && !(s.ogAt g).sends w.link pa w.peer)

/-- The frames to these addresses that filters drop are counted (R324). -/
def State.countDrops (s : State) (pas : List Nat) : State :=
  pas.foldl (fun s pa => if !s.dropsFrame pa then s else
    match s.windowAt pa with
    | none => s
    | some (g, _) => s.setOg g { s.ogAt g with dropped := (s.ogAt g).dropped + 1 }) s

/-- The home slice of a cell is fenced: its stack is retired (R365). DEDUCED, safe (log 75). -/
def State.isRetired (s : State) (key : Nat) : Bool := isHbm key && (s.homeAt (homeOf key)).fenced

/-! The bias table (R268). -/

def biasKey (key : Nat) : Nat := homeOf key * 2 ^ 24 + homeOffset key / 4096
def State.biasByte (s : State) (key : Nat) : Byte := Tab.get 0 s.bias (biasKey key)

/-- 0 DEV, 1 HOST, 2 D2H, 3 H2D. -/
def State.biasState (s : State) (key : Nat) : Nat := (s.biasByte key).toNat / 64
def State.biasCtx (s : State) (key : Nat) : Nat := (s.biasByte key).toNat % 64

/-! Translation (R331-R335). -/

/-- A leaf of a page table with its level. -/
structure Leaf where
  e : Nat
  level : Nat
  deriving DecidableEq, Repr

/-- A translated page part: byte address, kind, and rights. -/
structure Trans where
  pa : Nat
  kind : Nat
  ct : Bool
  off : Bool
  r : Bool
  w : Bool
  x : Bool
  deriving DecidableEq, Repr

/-- What an access needs of its page. -/
inductive Need where
  | read | write | both | fetch
  deriving DecidableEq, Repr

/-- The low n bytes of an entry, read at its home; none outside HBM of the partition. -/
def State.pteBytes (s : State) (p : Part) (pa n : Nat) : Option Nat :=
  let k := cellOf pa
  if isHbm k && !isCarveOut k && p.owns k && !s.isRetired k then some (bytesToNat (readBytes s.mem k n)) else none

/-- The 8 bytes of an entry. -/
def State.pte (s : State) (p : Part) (pa : Nat) : Option Nat := s.pteBytes p pa 8

/-- An entry that no level accepts: V = 0 or a reserved bit set. -/
def badEntry (e : Nat) : Bool := !e.testBit 0 || decide (e / 2 ^ 52 ≠ 0) || e.testBit 7 || e.testBit 4

/-- A leaf with a misaligned PFN, a C64 it may not have or a KIND it may not have (R331); entry i of a C64 page names page i of its 16. -/
def badLeaf (e level i : Nat) : Bool :=
  let kind := e / 2 ^ 8 % 4
  let frame := e % 2 ^ 52 / 2 ^ 12
  (level != 0 && (decide (frame % 2 ^ (9 * level) ≠ 0) || e.testBit 6))
  || (e.testBit 6 && frame % 16 != i % 16)
  || (kind == 1 && !(e.testBit 10 && e.testBit 6))
  || (kind == 3 && (level != 0 || e.testBit 6 || decide (frame ≠ 0)))

/-- The walk unit's cached entry of a level for an address of context c, if walks of that context are asked for (R333). -/
def State.walkCached (s : State) (c : Option Nat) (level va : Nat) : Option Nat :=
  match c with
  | none => none
  | some c => ((s.ctxAt c).walks.find? (fun e => e.level == level && e.prefix_ == va / 2 ^ (12 + 9 * level))).map WalkEntry.entry

/-- The upper-level entry that a walk uses: the one in the table, or the cached one, while the two differ (R333). DESIGN CHOICE, safe (log 15). -/
def State.upperEntry (s : State) (p : Part) (c : Option Nat) (va level tbl : Nat) : Option Nat :=
  let now := s.pte p (tbl + 8 * (va / 2 ^ (12 + 9 * level) % 512))
  match s.walkCached c level va with
  | none => now
  | some e => if now = some e ∨ Config.freeNat ((s.draws + 1) * 2 ^ 80 + (level + 1) * 2 ^ 64 + va) % 2 = 0 then now else some e

/-- The walk from a table of a level: the leaf and the table it stands in, or a cause. -/
def walkFrom (s : State) (p : Part) (c : Option Nat) (va : Nat) : Nat → Nat → Except Nat (Leaf × Nat)
  | 0, tbl =>
    match s.pte p (tbl + 8 * (va / 2 ^ 12 % 512)) with
    | none => .error causeBounds
    | some e => if badEntry e || !e.testBit 5 || badLeaf e 0 (va / 2 ^ 12) then .error causeNotMapped else .ok (⟨e, 0⟩, tbl)
  | n + 1, tbl =>
    match s.upperEntry p c va (n + 1) tbl with
    | none => .error causeBounds
    | some e =>
      if badEntry e then .error causeNotMapped
      else if e.testBit 5 then
        (if 1 < n ∨ badLeaf e (n + 1) 0 then .error causeNotMapped else .ok (⟨e, n + 1⟩, tbl))
      else walkFrom s p c va n (e % 2 ^ 52 / 2 ^ 12 * 2 ^ 12)

/-- The translation that a leaf gives to its page; one of entry i of a C64 page, to part j of it. -/
def leafTrans (e level va : Nat) (i j : Nat) : Trans :=
  let size := 2 ^ (12 + 9 * level)
  let frame := e % 2 ^ 52 / 2 ^ 12
  { pa := (frame + j - i) * 2 ^ 12 / size * size + va % size, kind := e / 2 ^ 8 % 4, ct := e.testBit 10, off := e.testBit 11,
    r := e.testBit 1, w := e.testBit 2, x := e.testBit 3 }

/-- The table of level 0 that a walk reaches, if it reaches one. -/
def tableOf (s : State) (p : Part) (c : Option Nat) (va : Nat) : Nat → Nat → Option Nat
  | 0, tbl => some tbl
  | n + 1, tbl =>
    match s.upperEntry p c va (n + 1) tbl with
    | none => none
    | some e => if badEntry e || e.testBit 5 then none else tableOf s p c va n (e % 2 ^ 52 / 2 ^ 12 * 2 ^ 12)

/-- The entry of a C64 page that translates this part of it: any of the 16, where one of them says C64 (R331); with them agreeing, all give the same. DESIGN CHOICE, safe (log 15). -/
def State.c64Entry (s : State) (p : Part) (c : Option Nat) (va ptb : Nat) : Option (Nat × Nat) :=
  match tableOf s p c va 4 ptb with
  | none => none
  | some tbl =>
    let entry := fun i n => (s.pteBytes p (tbl + 8 * (va / 2 ^ 16 % 32 * 16 + i)) n).getD 0
    if (List.range 16).any (fun i => (fun e => e.testBit 0 && e.testBit 5 && e.testBit 6) (entry i 1)) then
      let j := va / 4096 % 16
      let i := (j + Config.freeNat ((s.draws + 1) * 2 ^ 80 + va)) % 16
      some (i, entry i 8)
    else none

/-- The page that a PUBLISH put under the address, while the page table still holds the entry that the switch overrode (R179, R334). DESIGN CHOICE, safe (log 86). -/
def Ctx.switched (x : Ctx) (va : Nat) (leaf : Option Nat) : Option Nat :=
  match Tab.look x.published (va / 65536), Tab.look x.pubLeaf (va / 65536) with
  | some page, some old => if leaf.isSome && old[va / 4096 % 16]? == leaf then page[va / 4096 % 16]? else none
  | _, _ => none

/-- One page-table walk (R331), and the switch of a PUBLISH over it. -/
def State.walk (s : State) (c va : Nat) : Except Nat Trans :=
  let ctx := s.ctxAt c
  let p := s.partAt ctx.part.toNat
  let ptb := ctx.ptb.toNat * 4096
  let j := va / 4096 % 16
  let own := walkFrom s p (some c) va 4 ptb
  let t : Except Nat Trans := match s.c64Entry p (some c) va ptb with
    | none => (match own with
      | .error e => .error e
      | .ok (lf, _) => .ok (leafTrans lf.e lf.level va 0 0))
    | some (i, e) => if badEntry e || !e.testBit 5 || badLeaf e 0 i then .error causeNotMapped else .ok (leafTrans e 0 va i j)
  match t, ctx.switched va (own.toOption.map (fun r => r.1.e)) with
  | .ok t, some page => .ok { t with pa := 4096 * page + va % 4096 }
  | t, _ => t

/-- Rights of a translation for an access. -/
def Trans.grants (t : Trans) : Need → Bool
  | .read => t.r
  | .write => t.w
  | .both => t.r && t.w
  | .fetch => t.x

/-- The checks of R330 and R332 on a translation, in the order of R332's table. DEDUCED, unsafe (log 18). -/
def State.checkTrans (s : State) (c : Nat) (need : Need) (t : Trans) : Option Nat :=
  let p := s.partAt (s.ctxAt c).part.toNat
  let region := t.pa / 2 ^ 40
  if !t.grants need then some causePermission
  else if t.kind = 0 ∧ (!isHbm (cellOf t.pa) || isCarveOut (cellOf t.pa) || !p.owns (cellOf t.pa) || s.isRetired (cellOf t.pa)) then some causeBounds
  else if t.kind = 2 ∧ (region < 0x100 ∨ 0x7FF < region) then some causeBounds
  else if t.kind = 1 ∧ (region < 0x10 ∨ 0x1B < region) then some causeBounds
  else if t.off then some causeOffline
  else if t.kind = 2 ∧ s.unreached t.pa then some causeOffline
  else if t.kind = 1 ∧ !(s.ogAt (region - 0x10)).servesPool t.pa then some causeOffline
  else none

/-- The translations that the core's TLB and its die's hold for the page (R333). -/
def State.tlbHits (s : State) (core c va : Nat) : List Trans :=
  (((s.coreAt core).tlb ++ (s.dieAt (core / 24)).tlb).filter (fun e => e.ctx == c && e.page == va / 4096)).map
    (fun e => { pa := e.pa + va % 4096, kind := e.kind, ct := e.ct, off := false, r := e.r, w := e.w, x := e.x })

/-- A translation by a TLB entry differs from a walk's result; an entry has no OFF. -/
def Trans.differs (t : Trans) (w : Except Nat Trans) : Bool :=
  match w with
  | .ok u => decide ({ t with off := u.off } ≠ u)
  | .error _ => true

/-- The translation an access uses: a walk's result, or one of: that result and the TLB entries that differ from it (R333, R334). DESIGN CHOICE, safe (log 15). -/
def State.lookup (s : State) (core c va : Nat) : Except Nat Trans :=
  let w := s.walk c va
  match (s.tlbHits core c va).filter (fun t => t.differs w) with
  | [] => w
  | ts => (ts.map Except.ok).getD (Config.freeNat ((s.draws + 1) * 2 ^ 60 + 2 ^ 58 + va) % (ts.length + 1)) w

/-- A global access translated: a cause, or the page's bytes (R332). -/
def State.translate (s : State) (core c : Nat) (need : Need) (va : Nat) : Except Nat Trans :=
  if 2 ^ 57 ≤ va then .error causeVaRange else
    match s.lookup core c va with
    | .error e => .error e
    | .ok t =>
      match s.checkTrans c need t with
      | some e => .error e
      | none => .ok t

/-- The upper-level entries on the way of a walk: (level, entry). -/
def walkPath (s : State) (p : Part) (c : Option Nat) (va : Nat) : Nat → Nat → List (Nat × Nat)
  | 0, _ => []
  | n + 1, tbl =>
    match s.upperEntry p c va (n + 1) tbl with
    | none => []
    | some e => if badEntry e || e.testBit 5 then [] else (n + 1, e) :: walkPath s p c va n (e % 2 ^ 52 / 2 ^ 12 * 2 ^ 12)

/-- The walk unit keeps the upper-level entries it has used (R333). -/
def State.fillWalks (s : State) (c va : Nat) : State :=
  let x := s.ctxAt c
  let path := walkPath s (s.partAt x.part.toNat) (some c) va 4 (x.ptb.toNat * 4096)
  let fresh := path.filter (fun e => (s.walkCached (some c) e.1 va).isNone)
  s.setCtx c { x with walks := x.walks ++ fresh.map (fun e => { level := e.1, prefix_ := va / 2 ^ (12 + 9 * e.1), entry := e.2, gen := x.mapgen.toNat }) }

/-- The core's TLB, its die's and the walk unit keep a translation that has been used (R333). -/
def State.fillTlb (s : State) (core c va : Nat) (t : Trans) : State :=
  let e : TlbEntry := { ctx := c, page := va / 4096, pa := t.pa - va % 4096, kind := t.kind, ct := t.ct, r := t.r, w := t.w, x := t.x, gen := (s.ctxAt c).mapgen.toNat }
  let held := fun (l : List TlbEntry) => l.any (fun e => e.ctx == c && e.page == va / 4096)
  let co := s.coreAt core
  let d := s.dieAt (core / 24)
  let s := if held co.tlb then s else s.setCore core { co with tlb := e :: co.tlb }
  let s := if held d.tlb then s else s.setDie (core / 24) { d with tlb := e :: d.tlb }
  s.fillWalks c va

/-- The page of a TLB entry lies in a range of pages. -/
def TlbEntry.inPages (e : TlbEntry) (c : Nat) (f : Nat → Bool) : Bool := e.ctx == c && f e.page

/-- Every TLB drops a context's entries of the pages that a test picks (R333, R334). -/
def State.dropTlb (s : State) (c : Nat) (f : Nat → Bool) : State :=
  { s with
    cores := s.cores.map (fun e => (e.1, { e.2 with tlb := e.2.tlb.filter (fun t => !t.inPages c f) }))
    dies := s.dies.map (fun e => (e.1, { e.2 with tlb := e.2.tlb.filter (fun t => !t.inPages c f) })) }

/-- The walk unit drops a context's cached entries for addresses that a test of their first and last page picks (R334). -/
def State.dropWalks (s : State) (c : Nat) (f : Nat → Nat → Bool) : State :=
  let x := s.ctxAt c
  s.setCtx c { x with walks := x.walks.filter (fun e => !f (e.prefix_ * 2 ^ (9 * e.level)) ((e.prefix_ + 1) * 2 ^ (9 * e.level) - 1)) }

/-! Monitors see writes (R163). -/

/-- Cells of a 64 KiB frame of HBM, as 4 KiB cell pages. -/
def framePages (pa : Nat) : List Nat := (List.range 16).map (fun i => cellOf (pa + 4096 * i) / 4096)

/-- The cell belongs to the outgoing page of a swap pair (R339). -/
def State.swapping (s : State) (key : Nat) : Bool :=
  s.swaps.any (fun e => e.2.out.isSome && e.2.dst != 0 && (framePages e.2.dst).contains (key / 4096))

/-- The level a monitor lives at: 0 scratch, 1 the core's L1, 2 the die L2, 3 the home (R132, R272), where every access to a page that swaps is performed (R339). -/
def State.monLevel (s : State) (m : Mon) : Nat :=
  if m.scr then 0
  else if m.sc = .dev ∨ (isHbm m.key ∧ (s.biasState m.key ≠ 0 ∨ s.swapping m.key)) then 3
  else if m.sc = .cl ∨ m.sc = .die then 2 else 1

/-- The core a warp's workgroup runs on. -/
def State.coreOfWarp (s : State) (warp : Nat) : Nat :=
  match Tab.look s.wgs (warp / 32) with
  | some wg => wg.core
  | none => 0

/-- Every armed monitor that a test picks and whose word overlaps the bytes written reads its word again. -/
def State.notify (s : State) (key n : Nat) (at_ : Mon → Bool) (value : Mon → W64) : State :=
  { s with mons := s.mons.map (fun e =>
      if e.2.armed && at_ e.2 && decide (e.2.key < key + n ∧ key < e.2.key + e.2.size) then
        (e.1, { e.2 with seen := e.2.seen ++ [value e.2] })
      else e) }

/-! The home (R144, R244). -/

/-- The word a monitor reads at its home. -/
def homeWord (s : State) (m : Mon) : W64 := BitVec.ofNat 64 (bytesToNat (readBytes s.mem m.key m.size))

/-- Bytes at the home, or at a system target, take their values; a write of a whole sector clears its poison (R356). -/
def State.pokeHome (s : State) (key : Nat) (bs : List Byte) : State :=
  { s with
    mem := writeBytes s.mem key bs
    memPoison := if bs.length = 64 ∧ key % 64 = 0 then s.memPoison.filter (· != key / 64) else s.memPoison }

/-- Home monitors of the words written read them; those of a retired stack are fenced (R365). -/
def State.tellHome (s : State) (key n : Nat) : State := s.notify key n (fun m => !s.isRetired key && s.monLevel m == 3) (homeWord s)

/-- A write of bytes at the home, or at a system target. -/
def State.writeHome (s : State) (key : Nat) (bs : List Byte) : State := (s.pokeHome key bs).tellHome key bs.length

/-- Runs of bytes written in one step: monitors see all of them. -/
def State.writeRuns (s : State) (runs : List (Nat × List Byte)) : State :=
  runs.foldl (fun s r => s.tellHome r.1 r.2.length) (runs.foldl (fun s r => s.pokeHome r.1 r.2) s)

def State.homePoisoned (s : State) (key : Nat) : Bool := s.memPoison.contains (sectorOf key)

/-- Append a notice, unless the newest has the same fields (R259), or the stack's notice log is fenced (R365). -/
def State.notice (s : State) (key ctx kind die seq : Nat) : State :=
  let m := homeOf key
  let h := s.homeAt m
  let n : Notice := { ctx := ctx, kind := kind, die := die, seq := seq, block := homeOffset key / 65536 }
  let newest := Tab.look h.ring (h.pos.toNat % 4096)
  if newest = some n ∨ h.fenced then s else
    let pos := h.pos + 1
    s.setHome m { h with pos := pos, ring := Tab.put h.ring (pos.toNat % 4096) n }

/-! The die L2 (R252, R253). -/

/-- The tag of a sector or line: its context and its cell. -/
def tagOf (c key : Nat) : Nat := c * 2 ^ 52 + key / 64
def tagCtx (tag : Nat) : Nat := tag / 2 ^ 52
def tagSector (tag : Nat) : Nat := tag % 2 ^ 52

def State.l2At (s : State) (die c key : Nat) : Option Sector := Tab.look (s.dieAt die).l2 (tagOf c key)
def State.setL2 (s : State) (die tag : Nat) (x : Sector) : State :=
  let d := s.dieAt die
  s.setDie die { d with l2 := Tab.put d.l2 tag x }
def State.dropL2 (s : State) (die tag : Nat) : State :=
  let d := s.dieAt die
  s.setDie die { d with l2 := Tab.del d.l2 tag }

/-- A sector leaves the die: at once, or when the packet of it that is on its way is acknowledged, since the die's own bytes are not yet at the home (R139, R154). -/
def State.leaveL2 (s : State) (die tag : Nat) : State :=
  let mine := fun (p : Packet) => p.die == die && p.ctx == tagCtx tag && p.sector == tagSector tag
  if s.pkts.any (fun e => mine e.2) then { s with pkts := s.pkts.map (fun e => if mine e.2 then (e.1, { e.2 with drop := true }) else e) }
  else s.dropL2 die tag

/-- One maximal run of differing bytes for each (R255): first byte and data. -/
def diffRuns : Nat → List Byte → List Byte → List (Nat × List Byte)
  | _, [], _ => []
  | _, _, [] => []
  | i, a :: as, b :: bs =>
    let rest := diffRuns (i + 1) as bs
    if a = b then rest else
      match rest with
      | (j, ds) :: more => if j = i + 1 then (i, a :: ds) :: more else (i, [a]) :: rest
      | [] => [(i, [a])]

/-- The next release's sequence of a context on a die (R254). -/
def State.seqOf (s : State) (die c : Nat) : BitVec 23 := Tab.get 0 (s.dieAt die).seqs c

/-- The diff of a T sector is taken: encoded, its twin freed, the sector in C, the packet on its way (R254, R258). A sector without a changed byte sends none. drop: it leaves the die at the acknowledgement. keep: it stays T with a new twin (R253). A packet under the SEQ that the next release will take is remembered (R254, R261). -/
def State.takeDiff (s : State) (die tag kind : Nat) (seq : BitVec 23) (drop keep : Bool) : State × Option Nat :=
  match Tab.look (s.dieAt die).l2 tag with
  | none => (s, none)
  | some x =>
    match x.twin with
    | none => if drop then (s.leaveL2 die tag, none) else (s, none)
    | some tw =>
      let runs := if x.poison then [] else diffRuns 0 x.data tw
      let s := s.setL2 die tag { x with twin := if keep then some x.data else none, age := s.nextId }
      if runs.isEmpty && !x.poison then ((if drop && !keep then s.leaveL2 die tag else s), none)
      else
        let id := s.nextId
        let d := s.dieAt die
        let s := if seq = s.seqOf die (tagCtx tag) then s.setDie die { d with early := (tagCtx tag, tagSector tag) :: d.early } else s
        ({ s with nextId := id + 1, pkts := Tab.put s.pkts id { die := die, ctx := tagCtx tag, kind := kind, seq := seq.toNat, sector := tagSector tag, runs := runs, pz := x.poison, drop := drop, applied := false } }, some id)

/-- The tag of least age among the entries that pass a test, with that age. -/
def oldest {α : Type} (age : α → Nat) (t : Tab α) (f : α → Bool) : Option (Nat × Nat) :=
  t.foldl (fun best e => if f e.2 then
      (match best with
        | some (b : Nat × Nat) => if age e.2 < b.2 then some (e.1, age e.2) else best
        | none => some (e.1, age e.2))
    else best) none

/-! Lines of a shared pool window in a die L2 (R275). -/

/-- A die's line. -/
def State.poolAt (s : State) (die line : Nat) : Option PoolLine := Tab.look (s.dieAt die).pool line
def State.setPool (s : State) (die line : Nat) (x : PoolLine) : State :=
  let d := s.dieAt die
  s.setDie die { d with pool := Tab.put d.pool line x }
def State.dropPool (s : State) (die line : Nat) : State :=
  let d := s.dieAt die
  s.setDie die { d with pool := Tab.del d.pool line }

/-- Dirty data of a line goes to the pool with its mark (R275, R356). -/
def State.poolOut (s : State) (line : Nat) (data : List Byte) (poison : Bool) : State :=
  let s := s.writeHome (64 * line) data
  if poison then { s with memPoison := line :: s.memPoison.filter (· != line) } else s

/-- A line leaves a die's L2: M data goes to the pool; after an M or E line the DCA is in E when no die keeps a copy (R275). -/
def State.evictPool (s : State) (die line : Nat) : State :=
  match s.poolAt die line with
  | none => s
  | some x =>
    let s := if x.st == .m then s.poolOut line x.data x.poison else s
    let s := s.dropPool die line
    if x.st == .s || s.dies.any (fun e => (Tab.look e.2.pool line).isSome) then s
    else { s with dca := Tab.mod s.dca line (fun l => { l with st := .e }) }

/-- Make room for a sector or a pool line: past 64 MiB the oldest is evicted (R252, R275). DESIGN CHOICE, unsafe (log 33). -/
def State.roomL2 (s : State) (die : Nat) : State :=
  let d := s.dieAt die
  if d.l2.length + d.pool.length < 2 ^ 20 then s else
    let line := oldest PoolLine.age d.pool (fun _ => true)
    match oldest Sector.age d.l2 (fun _ => true) with
    | some (tag, age) =>
      (match line with
        | some (k, a) => if a < age then s.evictPool die k else (s.takeDiff die tag 2 (s.seqOf die (tagCtx tag)) true false).1
        | none => (s.takeDiff die tag 2 (s.seqOf die (tagCtx tag)) true false).1)
    | none =>
      match line with
      | some (k, _) => s.evictPool die k
      | none => s

/-- A held sector, filled from its home if the die does not hold it (R252). -/
def State.fillL2 (s : State) (die c key : Nat) : State × Sector :=
  match s.l2At die c key with
  | some x => (s, x)
  | none =>
    let s := s.roomL2 die
    let x : Sector := { data := readBytes s.mem (key / 64 * 64) 64, twin := none, poison := s.homePoisoned key, age := s.nextId, fresh := s.nextId }
    ({ (s.setL2 die (tagOf c key) x) with nextId := s.nextId + 1 }, x)

/-- A twin is needed while the twin store is full: the oldest twin goes as an early diff and is made anew (R253). DESIGN CHOICE, unsafe (log 33). -/
def State.roomTwin (s : State) (die : Nat) : State :=
  let d := s.dieAt die
  if (d.l2.filter (fun e => e.2.twin.isSome)).length < 131072 then s else
    match oldest Sector.age d.l2 (fun x => x.twin.isSome) with
    | none => s
    | some (tag, _) =>
      let c := tagCtx tag
      let s := (s.takeDiff die tag 1 (s.seqOf die c) false true).1
      s.setCtx c { s.ctxAt c with twovf := (s.ctxAt c).twovf + 1 }

/-- Monitors at a die L2 read the bytes written there. -/
def State.notifyL2 (s : State) (die c key : Nat) (bs : List Byte) (data : List Byte) : State :=
  s.notify key bs.length (fun m => s.monLevel m == 2 && m.ctx == c && s.coreOfWarp m.warp / 24 == die)
    (fun m => BitVec.ofNat 64 (bytesToNat ((data.drop (m.key % 64)).take m.size)))

/-- A write at the die L2: the sector becomes T, with the twin made before the first write (R144). -/
def State.writeL2 (s : State) (die c key : Nat) (bs : List Byte) : State :=
  let (s, x) := s.fillL2 die c key
  let s := if x.twin.isSome then s else s.roomTwin die
  let data := patch x.data (key % 64) bs
  let s := { (s.setL2 die (tagOf c key) { x with data := data, twin := some (x.twin.getD x.data), age := if x.twin.isSome then x.age else s.nextId, fresh := s.nextId, poison := x.poison && !decide (bs.length = 64) }) with nextId := s.nextId + 1 }
  s.notifyL2 die c key bs data

/-- A read at the die L2. -/
def State.readL2 (s : State) (die c key n : Nat) : State × List Byte :=
  let (s, x) := s.fillL2 die c key
  (s, (x.data.drop (key % 64)).take n)

/-- Bytes that a device-scope access leaves in the issuing die's copy, and in its twin (R144, R151, R252). -/
def State.mirror (s : State) (die c key : Nat) (bs : List Byte) : State :=
  match s.l2At die c key with
  | none => s
  | some x =>
    let data := patch x.data (key % 64) bs
    (s.setL2 die (tagOf c key) { x with data := data, twin := x.twin.map (fun t => patch t (key % 64) bs), fresh := s.nextId, poison := x.poison && !decide (bs.length = 64) }).notifyL2 die c key bs data

/-- A write has covered every byte of a sector: its mark is cleared in the die's copy, and at the home where the write was performed there (R356). -/
def State.cleanse (s : State) (die c key : Nat) (home : Bool) : State :=
  let s := if home then { s with memPoison := s.memPoison.filter (· != sectorOf key) } else s
  match s.l2At die c key with
  | none => s
  | some x => s.setL2 die (tagOf c key) { x with poison := false }

/-- An addressed byte of a T sector differs from its twin (R151, R243). -/
def State.unsent (s : State) (die c key n : Nat) : Bool :=
  match s.l2At die c key with
  | none => false
  | some x =>
    match x.twin with
    | none => false
    | some t => (List.range n).any (fun i => x.data.getD (key % 64 + i) 0 != t.getD (key % 64 + i) 0)

/-- The sector is T on the die. -/
def State.isTwinned (s : State) (die c key : Nat) : Bool :=
  match s.l2At die c key with
  | none => false
  | some x => x.twin.isSome

/-! The core's L1 (R132, R252): it holds no dirty data. -/

def State.l1At (s : State) (core c key : Nat) : Option (List Byte) := Tab.look (s.coreAt core).l1 (tagOf c key)

/-- A full table of a cache gives up one of its entries, which a free choice picks. -/
def makeRoom {α : Type} (n : Nat) (t : Tab α) (pick : Nat) : Tab α := if t.length < n then t else t.eraseIdx (pick % t.length)

/-- The L1 keeps a copy; it holds 256 KiB, and past that one of its copies leaves (R7). DESIGN CHOICE, unsafe (log 33). -/
def State.setL1 (s : State) (core tag : Nat) (d : List Byte) : State :=
  let co := s.coreAt core
  let l1 := if (Tab.look co.l1 tag).isSome then co.l1 else makeRoom 4096 co.l1 (Config.freeNat ((s.draws + 1) * 2 ^ 80 + 2 ^ 72 + s.nextId))
  s.setCore core { co with l1 := Tab.put l1 tag d }

/-- A read through the L1, filled from the die L2. -/
def State.readL1 (s : State) (core c key n : Nat) : State × List Byte :=
  match s.l1At core c key with
  | some d => (s, (d.drop (key % 64)).take n)
  | none =>
    let (s, x) := s.fillL2 (core / 24) c key
    (s.setL1 core (tagOf c key) x.data, (x.data.drop (key % 64)).take n)

/-- A write at the L1, written through to the die L2. -/
def State.writeL1 (s : State) (core c key : Nat) (bs : List Byte) : State :=
  let s := match s.l1At core c key with
    | some d => s.setL1 core (tagOf c key) (patch d (key % 64) bs)
    | none => s
  let s := s.writeL2 (core / 24) c key bs
  let now := match s.l1At core c key with
    | some d => d
    | none => ((s.l2At (core / 24) c key).map Sector.data).getD []
  s.notify key bs.length (fun m => s.monLevel m == 1 && m.ctx == c && s.coreOfWarp m.warp == core)
    (fun m => BitVec.ofNat 64 (bytesToNat ((now.drop (m.key % 64)).take m.size)))

/-- The cores of a die. -/
def coresOfDie (die : Nat) : List Nat := (List.range 24).map (fun i => 24 * die + i)

/-- A core drops the L1 copies that a test picks. -/
def State.dropL1 (s : State) (core : Nat) (f : Nat → Bool) : State :=
  let co := s.coreAt core
  s.setCore core { co with l1 := co.l1.filter (fun e => !f e.1) }

/-- Every core drops the L1 copies that a test picks. -/
def State.dropL1All (s : State) (f : Nat → Bool) : State :=
  { s with cores := s.cores.map (fun e => (e.1, { e.2 with l1 := e.2.l1.filter (fun x => !f x.1) })) }

/-! Scratch (R142). -/

/-- Scratch is written: monitors on scratch words read them; a whole 8-byte word clears its poison (R356). -/
def State.writeScratch (s : State) (wgKey a : Nat) (bs : List Byte) : State :=
  match Tab.look s.wgs wgKey with
  | none => s
  | some wg =>
    let scr := writeBytes wg.scratch a bs
    let covered := fun w => decide (a ≤ 8 * w ∧ 8 * w + 8 ≤ a + bs.length)
    let s := s.setWg wgKey { wg with scratch := scr, scrPoison := wg.scrPoison.filter (fun w => !covered w) }
    s.notify a bs.length (fun m => m.scr && m.warp / 32 == wgKey)
      (fun m => BitVec.ofNat 64 (bytesToNat (readBytes scr m.key m.size)))

/-! Diff packets at their home (R255-R263). -/

/-- The cell page that now stands in the place of one, through at most n successors (R263). -/
def succOf (rs : List Retired) : Nat → Nat → Nat
  | 0, page => page
  | n + 1, page =>
    match rs.findSome? (fun r => (r.page.zip r.succ).find? (fun e => e.1 == page)) with
    | some e => succOf rs n e.2
    | none => page

/-- The cell a packet's sector stands for now: the successor page's once its page has retired (R263). -/
def State.packetCell (s : State) (p : Packet) : Nat :=
  let key := 64 * p.sector
  let rs := (s.ctxAt p.ctx).retired
  4096 * succOf rs rs.length (key / 4096) + key % 4096

/-- Earlier packets of the same die and home come first (R256). -/
def State.packetFirst (s : State) (id : Nat) (p : Packet) : Bool :=
  s.pkts.all (fun e => e.2.applied || decide (id ≤ e.1) || e.2.die != p.die || homeOf (64 * e.2.sector) != homeOf (64 * p.sector))

/-- One packet applied as one step (R256); at a retired stack it does nothing (R365). DEDUCED, safe (log 75). -/
def State.applyPacket (s : State) (id : Nat) (p : Packet) : State :=
  let key := s.packetCell p
  let s := if s.isRetired key then s else if p.pz then { s with memPoison := if s.memPoison.contains (key / 64) then s.memPoison else (key / 64) :: s.memPoison }
    else s.writeRuns (p.runs.map (fun r => (key + r.1, r.2)))
  let kind := if p.pz then 3 else if p.kind = 0 then 0 else 1
  { (s.notice key p.ctx kind p.die p.seq) with pkts := Tab.put s.pkts id { p with applied := true } }

/-- The die has a packet of this sector on its way that the home has not acknowledged. -/
def State.unacked (s : State) (die c key : Nat) : Bool :=
  s.pkts.any (fun e => e.2.die == die && e.2.ctx == c && s.packetCell e.2 / 64 == key / 64)

/-- Every core of a die drops its L1 copy of a tag. -/
def State.dropL1Of (s : State) (die tag : Nat) : State :=
  { s with cores := s.cores.map (fun e => (e.1, if e.1 / 24 = die then { e.2 with l1 := Tab.del e.2.l1 tag } else e.2)) }

/-- A packet is acknowledged: it is gone, and a sector that was to leave does so, unless it has been written again, when its new diff goes first (R154, R252). No core's L1 keeps what the acquire or CCTL was to drop. -/
def State.ackPacket (s : State) (id : Nat) (p : Packet) : State :=
  let s := { s with pkts := Tab.del s.pkts id }
  if !p.drop then s else
    ((s.dropL1Of p.die (p.ctx * 2 ^ 52 + p.sector)).takeDiff p.die (p.ctx * 2 ^ 52 + p.sector) p.kind (s.seqOf p.die p.ctx) true false).1

/-- The packets of a context that a die has sent and that are not acknowledged. -/
def State.pendingPackets (s : State) (die c : Nat) : List Nat :=
  (s.pkts.filter (fun e => e.2.die == die && e.2.ctx == c)).map (·.1)

/-- Tags of a context's sectors on a die that pass a test. -/
def State.tagsOf (s : State) (die c : Nat) (f : Nat → Sector → Bool) : List Nat :=
  ((s.dieAt die).l2.filter (fun e => tagCtx e.1 == c && f e.1 e.2)).map (·.1)

/-- A device-scope release of a context on a die: its sequence is taken, the diff of every T sector leaves, and the packets to wait for are those in flight (R153, R254, R258). -/
def State.releaseDie (s : State) (die c : Nat) : State × List Nat :=
  let seq := s.seqOf die c
  let d := s.dieAt die
  let s := s.setDie die { d with seqs := Tab.set 0 d.seqs c (seq + 1), early := d.early.filter (fun e => e.1 != c) }
  let s := (s.tagsOf die c (fun _ x => x.twin.isSome)).foldl (fun s t => (s.takeDiff die t 0 seq false false).1) s
  (s, s.pendingPackets die c)

/-- A single-sector release that leaves the die (R154, R271): a C sector is dropped at once. -/
def State.releaseDrop (s : State) (die tag : Nat) : State :=
  (s.takeDiff die tag 0 (s.seqOf die (tagCtx tag)) true false).1

/-! The cluster unit (R132, R153). -/

def unitKey (core : Nat) : Nat := core % 24 / 8

/-- Bytes at the cluster unit: those it holds, else the die L2's. -/
def State.readUnit (s : State) (core c key n : Nat) : State × List Byte :=
  let die := core / 24
  let (s, l2) := s.readL2 die c key n
  let u := Tab.get [] (s.dieAt die).units (unitKey core)
  (s, l2.mapIdx (fun i b => (Tab.look u (c * 2 ^ 52 + key + i)).getD b))

def State.writeUnit (s : State) (core c key : Nat) (bs : List Byte) : State :=
  let die := core / 24
  let d := s.dieAt die
  let u := Tab.get [] d.units (unitKey core)
  let u := (bs.mapIdx (fun i b => (i, b))).foldl (fun u e => Tab.put u (c * 2 ^ 52 + key + e.1) e.2) u
  s.setDie die { d with units := Tab.put d.units (unitKey core) u }

/-- The cluster unit writes a context's locations to the die L2 (R153 at .die). DEDUCED, safe (log 34). -/
def State.flushUnit (s : State) (core c : Nat) : State :=
  let die := core / 24
  let u := Tab.get [] (s.dieAt die).units (unitKey core)
  let mine := u.filter (fun e => tagCtx e.1 == c)
  let s := mine.foldl (fun s e => s.writeL2 die c (e.1 % 2 ^ 52) [e.2]) s
  let d := s.dieAt die
  s.setDie die { d with units := Tab.put d.units (unitKey core) (u.filter (fun e => tagCtx e.1 != c)) }

end Sys2Proof.Machine
end

