-- ==== Sys2Proof/Machine/Access.lean ====
section
/-! DEFINITION. Performing one access at its level (R132, R136, R139, R143-R151, R243, R273, R275), and completing operations (R28, R80). -/

namespace Sys2Proof.Machine

/-! Atomic operations (R149, R150). -/

/-- FAddAtomic: nearest even, any NaN gives the canonical one, no flag. -/
def faddAtomic (a b : Nat) : Nat := (fp32.add .rn false a b).1

/-- AtomApply of R149 for w bytes: the new value. -/
def atomNew (op : AtomOp) (w old b c : Nat) : Nat :=
  let n := 8 * w
  let x := BitVec.ofNat n old
  let y := BitVec.ofNat n b
  match op with
  | .add => (x + y).toNat
  | .min => (minS x y).toNat
  | .max => (maxS x y).toNat
  | .minu => (minU x y).toNat
  | .maxu => (maxU x y).toNat
  | .and => (x &&& y).toNat
  | .or => (x ||| y).toNat
  | .xor => (x ^^^ y).toNat
  | .exch => y.toNat
  | .cas => if x = y then (BitVec.ofNat n c).toNat else x.toNat
  | .fadd => faddAtomic old b

/-! Lines of a shared pool window (R275). -/

/-- The DCA of a line: that of the E-die whose group carries its window, group OG(3e + k) on Ee. -/
def State.dcaOf (s : State) (line : Nat) : Nat :=
  match s.windowAt (64 * line) with
  | some (g, _) => g / 3
  | none => 0

/-- A DCA's owned buffer holds 16,384 lines: past that, its oldest O line goes to the pool. DESIGN CHOICE, safe (log 41). -/
def State.roomOwned (s : State) (e : Nat) : State :=
  let owned := s.dca.filter (fun x => x.2.st == .o && s.dcaOf x.1 == e)
  if owned.length < 16384 then s else
    match oldest DcaLine.age owned (fun _ => true) with
    | none => s
    | some (k, _) =>
      match Tab.look s.dca k with
      | none => s
      | some l =>
        let s := s.poolOut k (l.data.getD []) l.poison
        { s with dca := Tab.put s.dca k { l with st := .s, data := none, poison := false } }

/-- Every die's copy of a line changes: none drops it. -/
def State.mapPool (s : State) (line : Nat) (f : Nat → PoolLine → Option PoolLine) : State :=
  { s with dies := s.dies.map (fun e =>
      (e.1, { e.2 with pool := e.2.pool.filterMap (fun x => if x.1 = line then (f e.1 x.2).map (fun y => (line, y)) else some x) })) }

/-- The data of a line as the package holds it, with its mark: a die's M copy, else the DCA's, else the pool's (R275, R356). -/
def State.poolLine (s : State) (line : Nat) : List Byte × Bool :=
  match s.dies.findSome? (fun e => match Tab.look e.2.pool line with
      | some x => if x.st == .m then some (x.data, x.poison) else none
      | none => none) with
  | some d => d
  | none =>
    match (Tab.look s.dca line).bind (fun l => l.data.map (fun d => (d, l.poison))) with
    | some d => d
    | none => (readBytes s.mem (64 * line) 64, s.memPoison.contains line)

def State.poolData (s : State) (line : Nat) : List Byte := (s.poolLine line).1
def State.poolMark (s : State) (line : Nat) : Bool := (s.poolLine line).2

/-- A die takes a line for reading (rows 1 to 4 of R275). DESIGN CHOICE, safe (log 41). -/
def State.poolLoad (s : State) (die line : Nat) : State :=
  match s.poolAt die line with
  | some _ => s
  | none =>
    let s := s.roomL2 die
    let x : PoolLine := { st := .s, data := s.poolData line, poison := s.poolMark line, age := s.nextId }
    let hadM := s.dies.any (fun e => match Tab.look e.2.pool line with | some x => x.st == .m | none => false)
    match Tab.look s.dca line with
    | none =>
      let excl := Config.freeNat ((s.draws + 1) * 2 ^ 60 + 2 ^ 59 + line) % 2 = 1
      let s := { s with dca := Tab.put s.dca line { st := if excl then .e else .s, data := none, poison := false, age := s.nextId } }
      s.setPool die line { x with st := if excl then .e else .s }
    | some l =>
      let toO := hadM || l.st == .o || l.st == .m
      let s := if toO then s.roomOwned (s.dcaOf line) else s
      let s := s.mapPool line (fun _ y => some { y with st := .s })
      let l' : DcaLine := if toO then { st := .o, data := some x.data, poison := x.poison, age := s.nextId } else { l with st := .s }
      ({ s with dca := Tab.put s.dca line l' }).setPool die line x

/-- A line after a write of bytes: its data, and its mark, which a write of the whole line clears (R356). -/
def State.poolWritten (s : State) (key : Nat) (bs : List Byte) : List Byte × Bool :=
  (patch (s.poolData (key / 64)) (key % 64) bs, s.poolMark (key / 64) && !decide (bs.length = 64))

/-- A die takes a line for writing and writes it (rows 5 and 6 of R275). -/
def State.poolStore (s : State) (die key : Nat) (bs : List Byte) : State :=
  let line := key / 64
  let s := if (s.poolAt die line).isSome then s else s.roomL2 die
  let d := s.poolWritten key bs
  let age := match Tab.look s.dca line with | some l => l.age | none => s.nextId
  let mine := match s.poolAt die line with | some x => x.age | none => s.nextId
  let s := s.mapPool line (fun _ _ => none)
  let s := { s with dca := Tab.put s.dca line { st := .m, data := none, poison := false, age := age } }
  s.setPool die line { st := .m, data := d.1, poison := d.2, age := mine }

/-- An atomic at the fabric port on a pool line (row 7 of R275): the data stays at the DCA. -/
def State.poolAtomic (s : State) (key : Nat) (bs : List Byte) : State :=
  let line := key / 64
  let d := s.poolWritten key bs
  let age := match Tab.look s.dca line with | some l => l.age | none => s.nextId
  { s.mapPool line (fun _ _ => none) with dca := Tab.put s.dca line { st := .m, data := some d.1, poison := d.2, age := age } }

/-! Where an access is served. -/

/-- The unit that serves an access (R27, R132, R146, R148). -/
inductive Level where
  | l1 | l2 | unit | home | port | dca | pool | held
  deriving DecidableEq, Repr

/-- The level of a global access to a cell: that of R132; the current copy of a line that is being swapped, at its home (R339); system windows whatever the scope; held while the page flips (R270). -/
def State.levelOf (s : State) (sc : Scope) (atomic : Bool) (key : Nat) : Level :=
  if isHbm key && s.swapping key then (if atomic && sc == .sys then .port else .home)
  else if isHbm key then
    match s.biasState key with
    | 1 => if atomic then .port else .dca
    | 0 =>
      match sc with
      | .th => .l1
      | .wp => .l1
      | .wg => .l1
      | .cl => if atomic then .unit else .l2
      | .die => .l2
      | .dev => .home
      | .sys => if atomic then .port else .home
    | _ => .held
  else
    match s.windowAt key with
    | some (_, w) => if w.kind = .pool then (if atomic then .port else .pool) else .port
    | none => .port

/-- Bytes at the home, or at the pool line's place, that a fabric port works on. -/
def State.portRead (s : State) (key n : Nat) : List Byte :=
  match (if isHbm key then none else s.windowAt key) with
  | some (_, w) => if w.kind = .pool then ((s.poolData (key / 64)).drop (key % 64)).take n else readBytes s.mem key n
  | none => readBytes s.mem key n

/-- DESIGN CHOICE, unsafe (log 40). -/
def State.portWrite (s : State) (key : Nat) (bs : List Byte) : State :=
  match (if isHbm key then none else s.windowAt key) with
  | some (_, w) => if w.kind = .pool then s.poolAtomic key bs else s.writeHome key bs
  | none => s.writeHome key bs

/-! The host's copies (R272, R273). -/

def State.snooped (s : State) (line : Nat) : Bool := s.snoops.any (fun x => x.line == line)

/-- The snoop that a device access to a host-bias line needs first: data before a read of a line exclusive to the host, inv before a write of a line the host may hold. -/
def State.snoopFor (s : State) (line : Nat) (write : Bool) : Option Snoop :=
  match Tab.look s.hostDir line with
  | none => none
  | some d => if write then some { line := line, inv := true, flip := false }
    else if d.excl then some { line := line, inv := false, flip := false } else none

/-- Go on in host bias: none while a snoop of the line is unanswered, after sending it if it was not. -/
def State.viaDca (s : State) (key : Nat) (write : Bool) (f : State → State) : Option State :=
  let line := key / 64
  if s.snooped line then none else
    match s.snoopFor line write with
    | some x => some { s with snoops := s.snoops ++ [x] }
    | none => some (f s)

/-! Order among the accesses of a warp. -/

/-- Threads in whose program order an access stands (R243). -/
def accThreads (o : Op) (a : Access) : Mask := if a.lane < 32 then 1#32 <<< a.lane else o.lanes

def overlap (a b : Access) : Bool := decide (a.pa < b.pa + b.size ∧ b.pa < a.pa + a.size)

/-- The address space of an operation's accesses: scratch, or the memory behind the others. -/
def Op.inScratch (o : Op) : Bool := o.space == .scr

/-- An operation that holds the warp's later accesses until it completes (R154, R155, R215). -/
def OpKind.holds : OpKind → Bool
  | .acq _ => true
  | .fence _ => true
  | .cctl _ _ _ => true
  | _ => false

/-- An operation that holds the warp's later accesses now: also a CTEST whose word has not been read, since it is an acquire when it writes 1 (R178, R249). DEDUCED, unsafe (log 87). -/
def Op.holds (o : Op) : Bool :=
  o.kind.holds || (match o.kind with | .ctest _ _ => o.accs.any (fun a => !a.done) | _ => false)

/-- The memory pipe lets access k of an operation be performed now: no earlier acquire, fence, CCTL or unread CTEST of the warp is open, and earlier accesses of a thread to overlapping bytes have been performed (R136, R154, R243). -/
def State.mayPerform (s : State) (id : Nat) (o : Op) (k : Nat) (a : Access) : Bool :=
  s.ops.all (fun e => decide (id ≤ e.1) || e.2.warp != o.warp ||
    (!e.2.holds &&
      (e.2.inScratch != o.inScratch ||
        e.2.accs.all (fun b => b.done || !overlap a b || accThreads e.2 b &&& accThreads o a == 0))))
  && ((List.range k).all (fun j => match o.accs[j]? with
    | some b => b.done || !overlap a b
    | none => true))

/-! Performing. -/

/-- Access k of an operation is done with a result. -/
def State.finishAccess (s : State) (id : Nat) (k : Nat) (res : List Byte) : State :=
  { s with ops := Tab.mod s.ops id (fun o => { o with accs := o.accs.mapIdx (fun j b => if j = k then { b with done := true, res := res } else b) }) }

def State.setAccess (s : State) (id : Nat) (k : Nat) (f : Access → Access) : State :=
  { s with ops := Tab.mod s.ops id (fun o => { o with accs := o.accs.mapIdx (fun j b => if j = k then f b else b) }) }

/-- Bytes of the sector that the core's cluster unit holds are written to the die L2 before an access of another level (R139). DEDUCED, unsafe (log 35). -/
def State.settleUnit (s : State) (core c key : Nat) : State :=
  let u := Tab.get [] (s.dieAt (core / 24)).units (unitKey core)
  if u.any (fun e => e.1 / 64 == (c * 2 ^ 52 + key) / 64) then s.flushUnit core c else s

/-- A load at the home refreshes the die's C copy, mark included (R243, R356). DEDUCED, unsafe (log 35). -/
def State.refresh (s : State) (die c key : Nat) : State :=
  match s.l2At die c key with
  | some x =>
    if x.twin.isSome then s else
      { s.setL2 die (tagOf c key) { x with data := readBytes s.mem (key / 64 * 64) 64, poison := s.homePoisoned key, age := s.nextId, fresh := s.nextId } with nextId := s.nextId + 1 }
  | none => s

/-- A T sector must send its diff before an access at the home: the packet, or nothing when no byte differs (R145, R151). -/
def State.sendFirst (s : State) (id k die c key : Nat) : State :=
  let r := s.takeDiff die (tagOf c key) 0 (s.seqOf die c) false false
  r.1.setAccess id k (fun b => { b with pkt := r.2 })

/-- The packet an access waits for is still unacknowledged. -/
def State.waiting (s : State) (p : Option Nat) : Bool :=
  match p with
  | some id => (Tab.look s.pkts id).isSome
  | none => false

/-- A load of global memory. At the home it waits for a packet of its die that carries bytes of its sector, and sends one first from a T sector (R139, R145). DEDUCED, unsafe (log 35). -/
def State.loadAt (s : State) (core c id k : Nat) (sc : Scope) (a : Access) : Option State :=
  let die := core / 24
  match s.levelOf sc false a.pa with
  | .held => none
  | .l1 =>
    let r := (s.settleUnit core c a.pa).readL1 core c a.pa a.size
    some (r.1.finishAccess id k r.2)
  | .l2 =>
    let r := ((s.settleUnit core c a.pa).dropL1 core (· == tagOf c a.pa)).readL2 die c a.pa a.size
    some (r.1.finishAccess id k r.2)
  | .dca => s.viaDca a.pa false (fun s => s.finishAccess id k (readBytes s.mem a.pa a.size))
  | .pool =>
    let s := s.poolLoad die (a.pa / 64)
    some (s.finishAccess id k (((s.poolData (a.pa / 64)).drop (a.pa % 64)).take a.size))
  | .home =>
    if s.waiting a.pkt || s.unacked die c a.pa then none else
      let s := (s.settleUnit core c a.pa).dropL1 core (· == tagOf c a.pa)
      let r := if s.isTwinned die c a.pa then s.sendFirst id k die c a.pa else s
      if r.unacked die c a.pa then some r
      else some ((r.refresh die c a.pa).finishAccess id k (readBytes r.mem a.pa a.size))
  | _ => some (s.finishAccess id k (s.portRead a.pa a.size))

/-- A store to global memory. At the home it comes after a packet of its die that carries older bytes of its sector (R139). DEDUCED, unsafe (log 35). -/
def State.storeAt (s : State) (core c id k : Nat) (sc : Scope) (a : Access) : Option State :=
  let die := core / 24
  match s.levelOf sc false a.pa with
  | .held => none
  | .l1 => some (((s.settleUnit core c a.pa).writeL1 core c a.pa a.data).finishAccess id k [])
  | .l2 => some ((((s.settleUnit core c a.pa).dropL1 core (· == tagOf c a.pa)).writeL2 die c a.pa a.data).finishAccess id k [])
  | .dca => s.viaDca a.pa true (fun s => (s.writeHome a.pa a.data).finishAccess id k [])
  | .pool => some ((s.poolStore die a.pa a.data).finishAccess id k [])
  | .home =>
    if s.unacked die c a.pa then none else
    some (((((s.settleUnit core c a.pa).dropL1 core (· == tagOf c a.pa)).writeHome a.pa a.data).mirror die c a.pa a.data).finishAccess id k [])
  | _ => some ((s.portWrite a.pa a.data).finishAccess id k [])

/-- The sector of an access is poisoned where the access reads it. A load at the home, and an atomic whose bytes the die has written and not sent, first send a poisoned T copy home, which marks the home (R145, R151, R356, R357). -/
def State.poisonAt (s : State) (core c : Nat) (sc : Scope) (atomic : Bool) (key n : Nat) : Bool :=
  let die := core / 24
  let copy := match s.l2At die c key with | some x => x.poison | none => s.homePoisoned key
  let sends := s.isTwinned die c key && copy && (!atomic || s.unsent die c key n)
  match s.levelOf sc atomic key with
  | .l1 => copy
  | .l2 => copy
  | .unit => copy
  | .pool => s.poolMark (key / 64)
  | .home => s.homePoisoned key || sends
  | .port => if isHbm key then s.homePoisoned key || sends
      else (match s.windowAt key with
        | some (_, w) => if w.kind = .pool then s.poolMark (key / 64) else s.homePoisoned key
        | none => s.homePoisoned key)
  | _ => s.homePoisoned key

/-- Another atomic is between its read and its write at a fabric port on overlapping bytes (R148). -/
def State.portHeld (s : State) (id k : Nat) (a : Access) : Bool :=
  s.ops.any (fun e => e.2.accs.zipIdx.any (fun b =>
    !b.1.done && !b.1.res.isEmpty && overlap a b.1 && !(e.1 == id && b.2 == k)))

/-- An atomic on global memory: one step at its level. At the fabric port of device memory in device bias, of host memory or of a peer it takes two, since the port holds the location only against other ports (R148); one that a flip meets between the two is past the E-die and completes at the home (R271). In host bias and on a pool line the DCA, which serialises the line's requests, makes it one (R273, R276). -/
def State.atomAt (s : State) (core c id k : Nat) (sc : Scope) (op : AtomOp) (a : Access) : Option State :=
  let die := core / 24
  let next := fun old => natToBytes a.size (atomNew op a.size (bytesToNat old) (bytesToNat a.data) (bytesToNat a.swp))
  let isPool := !isHbm a.pa && (match s.windowAt a.pa with | some (_, w) => w.kind == .pool | none => false)
  match s.levelOf sc true a.pa with
  | .held =>
    if a.res.isEmpty then none else
      some (((s.writeHome a.pa (next a.res)).mirror die c a.pa (next a.res)).finishAccess id k a.res)
  | .l1 =>
    let r := (s.settleUnit core c a.pa).readL1 core c a.pa a.size
    some ((r.1.writeL1 core c a.pa (next r.2)).finishAccess id k r.2)
  | .l2 =>
    let r := ((s.settleUnit core c a.pa).dropL1 core (· == tagOf c a.pa)).readL2 die c a.pa a.size
    some ((r.1.writeL2 die c a.pa (next r.2)).finishAccess id k r.2)
  | .unit =>
    let r := (s.dropL1 core (· == tagOf c a.pa)).readUnit core c a.pa a.size
    some ((r.1.writeUnit core c a.pa (next r.2)).finishAccess id k r.2)
  | .home =>
    if s.waiting a.pkt || s.unacked die c a.pa then none else
      let s := (s.settleUnit core c a.pa).dropL1 core (· == tagOf c a.pa)
      if s.unsent die c a.pa a.size then some (s.sendFirst id k die c a.pa)
      else
        let old := readBytes s.mem a.pa a.size
        some (((s.writeHome a.pa (next old)).mirror die c a.pa (next old)).finishAccess id k old)
  | _ =>
    if s.portHeld id k a then none
    else if isHbm a.pa && s.biasState a.pa == 1 then
      s.viaDca a.pa true (fun s =>
        let old := readBytes s.mem a.pa a.size
        (s.writeHome a.pa (next old)).finishAccess id k old)
    else if isPool then
      let old := s.portRead a.pa a.size
      some ((s.portWrite a.pa (next old)).finishAccess id k old)
    else if a.res.isEmpty then
      if s.waiting a.pkt || (isHbm a.pa && s.unacked die c a.pa) then none else
      let s := (s.settleUnit core c a.pa).dropL1 core (· == tagOf c a.pa)
      if isHbm a.pa && s.unsent die c a.pa a.size then some (s.sendFirst id k die c a.pa)
      else some (s.setAccess id k (fun b => { b with res := s.portRead a.pa a.size }))
    else
      let s := s.portWrite a.pa (next a.res)
      some ((if isHbm a.pa then s.mirror die c a.pa (next a.res) else s).finishAccess id k a.res)

/-- PACKP's accesses: first the scale byte, read for a block format and written for any other, then the word of each plane (R198). -/
def State.packAt (s : State) (wgKey id k : Nat) (slot : W64) (elems : List (Option Nat)) (a : Access) : Option State :=
  match Tab.look s.wgs wgKey, Tab.look s.ops id with
  | some wg, some o =>
    let f := slotOf slot
    if k = 0 then
      (if f.isBlock then some (s.finishAccess id 0 (readBytes wg.scratch a.pa 1))
        else
          let bs := natToBytes 1 (packRow f elems 0).1
          some ((s.writeScratch wgKey a.pa bs).finishAccess id 0 bs))
    else match o.accs.head? with
      | some b =>
        if !b.done then none else
          let r := packRow f elems (bytesToNat b.res)
          some ((s.writeScratch wgKey a.pa (natToBytes 4 (planeWord (r.2.map (·.1)) (k - 1)))).finishAccess id k [])
      | none => none
  | _, _ => none

/-- An access to scratch: one step at the banks (R132). -/
def State.scratchAt (s : State) (wgKey id k : Nat) (kind : OpKind) (a : Access) : Option State :=
  match Tab.look s.wgs wgKey with
  | none => none
  | some wg =>
    let old := readBytes wg.scratch a.pa a.size
    match kind with
    | .store => some ((s.writeScratch wgKey a.pa a.data).finishAccess id k [])
    | .pack slot elems => s.packAt wgKey id k slot elems a
    | .atom op d =>
      if d.isNone && (List.range a.size).any (fun i => wg.scrPoison.contains ((a.pa + i) / 8)) then some (s.finishAccess id k [])
      else some ((s.writeScratch wgKey a.pa (natToBytes a.size (atomNew op a.size (bytesToNat old) (bytesToNat a.data) (bytesToNat a.swp)))).finishAccess id k old)
    | _ => some (s.finishAccess id k old)

/-- With access k performed, the accesses of a store word cover every byte of its sector (n = 64), or of its word of scratch (n = 8) (R356). DEDUCED, safe (log 88). -/
def Op.covers (o : Op) (k n : Nat) (a : Access) : Bool :=
  (List.range n).all (fun i => o.accs.zipIdx.any (fun b =>
    (b.1.done || b.2 == k) && decide (b.1.pa ≤ a.pa / n * n + i ∧ a.pa / n * n + i < b.1.pa + b.1.size)))

/-- The mark of a sector that a store word has written whole is cleared where the word was performed (R356). -/
def State.cleared (s : State) (core c : Nat) (sc : Scope) (key : Nat) : State :=
  match s.levelOf sc false key with
  | .l1 => s.cleanse (core / 24) c key false
  | .l2 => s.cleanse (core / 24) c key false
  | .pool => (match s.poolAt (core / 24) (key / 64) with
    | some x => s.setPool (core / 24) (key / 64) { x with poison := false }
    | none => s)
  | _ => s.cleanse (core / 24) c key true

/-- What an access in flight to a stack retired in the meantime gets: nothing is written, and the bytes read are free values (R365). DEDUCED, safe (log 75). -/
def State.lostAccess (s : State) (id k : Nat) (a : Access) : State :=
  let bytes := (List.range a.size).map (fun i => BitVec.ofNat 8 (Config.freeNat (s.draws * 2 ^ 80 + 2 ^ 76 + i)))
  { s.finishAccess id k bytes with draws := s.draws + 1 }

/-- Perform access k of operation id now, if it may be. An Ethernet frame that its port's filter has dropped is not (R324). -/
def State.performAccess (s : State) (id k : Nat) : Option State :=
  match Tab.look s.ops id with
  | none => none
  | some o =>
    match o.accs[k]? with
    | none => none
    | some a =>
      if a.done || !s.mayPerform id o k a then none else
        let core := s.coreOfWarp o.warp
        if o.inScratch then
          (s.scratchAt (o.warp / 32) id k o.kind a).map (fun s => if o.kind == .store && o.covers k 8 a then
            s.modWg (o.warp / 32) (fun wg => { wg with scrPoison := wg.scrPoison.filter (· != a.pa / 8) }) else s)
        else if s.dropsFrame a.pa then none
        else if s.isRetired a.pa then some (s.lostAccess id k a)
        else
          match o.kind with
          | .load _ _ => s.loadAt core o.ctx id k o.sc a
          | .lds _ => s.loadAt core o.ctx id k o.sc a
          | .ctest _ _ => s.loadAt core o.ctx id k o.sc a
          | .store => (s.storeAt core o.ctx id k o.sc a).map (fun s => if o.covers k 64 a then s.cleared core o.ctx o.sc a.pa else s)
          | .atom op d =>
            if d.isNone && s.poisonAt core o.ctx o.sc true a.pa a.size then some (s.finishAccess id k []) else s.atomAt core o.ctx id k o.sc op a
          | _ => none

end Sys2Proof.Machine
end

