-- ==== Sys2Proof/Machine/Operands.lean ====
section
/-! DEFINITION. Issuing one warp word: the checks of R95 and R96 in their order, waits before issue, the watchdog count, latencies; and the value operations of classes 0 to 3 over every operand form. -/

namespace Sys2Proof.Machine

/-- Reservations checked at decode (R92). -/
inductive ResKind where
  | tile | acc | bar
  deriving DecidableEq, Repr

/-- What the decode checks of a word look at: vector specifiers against quota, numbers against the reservation, the flag selection, the queue it pops or pushes, and whether a field check of order 5 that needs the state fails (R95: CALL not last in its clause). -/
structure Pre where
  regs : List Nat
  res : List (Nat × ResKind)
  fsel : Option Bool
  pop : Bool
  push : Bool
  bad : Bool
  tile : Option Nat
  deriving DecidableEq, Repr

/-- A word with no operand to check. -/
def Pre.none : Pre := { regs := [], res := [], fsel := Option.none, pop := false, push := false, bad := false, tile := Option.none }

/-- A long-latency word's checks: its flag selection and vector specifiers. -/
def Pre.long (fsel : Bool) (regs : List Nat) : Pre := { Pre.none with fsel := some fsel, regs := regs }

def View.limit (v : View) : ResKind → Nat
  | .tile => v.g.tilen
  | .acc => v.g.accn
  | .bar => v.g.barn

/-- The first failing check among orders 5 to 7 of R95 that depends on the state: a cause and its DETAIL (R344). -/
def Pre.check (p : Pre) (v : View) (split : Mask) (word : W64) : Option (Nat × W64) :=
  let cl := (v.w.thread (lowLane split)).cl
  let noB := p.fsel == some true && (match cl with | some c => c.setB.isNone | Option.none => true)
  if noB || p.bad then some (causeIllegal, word)
  else match p.regs.find? (fun r => decide (v.w.quota ≤ r)) with
    | some r => some (causeQuota, BitVec.ofNat 64 r)
    | Option.none =>
      match p.res.find? (fun e => decide (v.limit e.2 ≤ e.1)) with
      | some e => some (causeReservation, BitVec.ofNat 64 e.1)
      | Option.none => Option.none

/-- A wait before issue: an empty qa, a full qm (R204), a tile FILLING or DRAINING (R174). -/
def Pre.waits (p : Pre) (v : View) : Option Wait :=
  if p.pop && v.wg.qa.isEmpty then some .qa
  else if p.push && decide (16 ≤ v.wg.qm.length) then some .qm
  else match p.tile with
    | some n =>
      (match Tab.look v.wg.tiles n with
        | some t => if t.st == .filling || t.st == .draining then some (.tile n) else Option.none
        | Option.none => Option.none)
    | Option.none => Option.none

/-- Words whose issue the count must still allow: two for the first word of a co-issue (R304). DEDUCED, unsafe (log 10). -/
def Warp.cost (w : Warp) : Nat :=
  match w.pair with
  | some p => if !p.turnB && p.b ≠ 0 then 2 else 1
  | Option.none => 1

/-- A word that issues: its view (latencies aged by DIST), the split, the enabled threads, its first free-choice number; out is the warp its effect is written into, with latencies aged past this word; s is the state with the word counted. -/
structure Run where
  v : View
  sp : Mask
  en : Mask
  n : Nat
  out : Warp
  s : State
  deriving DecidableEq, Repr

/-- The word is done: its warp stands, its threads at the next word. -/
def Run.put (r : Run) (w : Warp) : State := r.s.setWarp r.v.key (w.modThreads r.sp Thread.pass)

/-- The word raises causes at execution (R95 order 8): the split parks whole, with no other effect. -/
def Run.trap (r : Run) (causes : List (Nat × Mask)) (detail : W64) : State := r.s.raise r.v r.sp causes detail

/-- One cause in some threads. -/
def Run.trap1 (r : Run) (cause : Nat) (m : Mask) (detail : W64) : State := r.trap [(cause, m)] detail

/-- A word whose issue would exceed the budget does not issue: watchdog in its split, and after split A's in split B where both issue (R97, R304). DEDUCED, unsafe (log 10). -/
def State.watchdog (s : State) (v : View) : State :=
  let fall := fun (s : State) (v : View) => s.raise v v.w.split [(causeWatchdog, v.w.split)] (BitVec.ofNat 64 v.g.ceiling)
  match v.w.pair with
  | some p => if v.w.cost = 2 then fall (fall s v) { v with w := { v.w with pair := some { p with turnB := true } } } else fall s v
  | Option.none => fall s v

/-- What a word that issues runs with: its latencies have aged by DIST, its guard is read (R81, R82), it is counted (R80). DEDUCED, unsafe (log 38). -/
def Run.of (s : State) (v : View) (h : Head) : Run :=
  let sp := v.w.split
  let aged := { v.w with hazards := age h.dist.toNat sp v.w.hazards }
  let w := { aged with budget := v.w.budget - 1 }
  { v := { v with w := w }, sp := sp, en := aged.enabled s.draws h sp, n := s.draws,
    out := { w with hazards := age 1 sp w.hazards },
    s := { s.setWarp v.key { v.w with budget := v.w.budget - 1 } with draws := s.draws + 4096 } }

/-- Issue of one warp word by the split whose turn it is. The checks come in R95's order and raise only in enabled threads (R96); a word that fails them or waits is not counted, one that would exceed the budget raises the watchdog fault in its split (R304). DEDUCED, unsafe (log 38). DESIGN CHOICE, safe (log 82). -/
def runWarp (i : Instr) (h : Head) (pre : Pre) (s : State) (f : Run → State) : Host.Outcome State Fault Refusal :=
  match s.curView with
  | Option.none => .fault .noIssuer
  | some v =>
    let r := Run.of s v h
    match (if r.en = 0 then Option.none else pre.check v r.sp (encode i)) with
    | some (c, d) => .next (s.raise v r.sp [(c, r.en)] d)
    | Option.none =>
      match (if r.en = 0 then Option.none else pre.waits v) with
      | some x => .next (s.modWarp v.key (fun w => w.park r.sp x))
      | Option.none =>
        if v.w.budget < v.w.cost then .next (s.watchdog v)
        else if r.en = 0 then .next (r.put r.out) else .next (f r)

/-! Value operations. -/

/-- An operand of a value operation. -/
inductive Opnd where
  | r32 (a : Src)
  | r64 (a : Src)
  | imm (x : W32)
  | pred (p : BitVec 3)
  deriving DecidableEq, Repr

/-- The specifiers an operand gives to the quota check (R92): the queue registers are never counted (R26). -/
def Opnd.regs : Opnd → List Nat
  | .r32 (.v a) => if a.toNat < 254 then [a.toNat] else []
  | .r64 (.v a) => [a.toNat, a.toNat + 1]
  | _ => []

/-- The vector registers an operand reads. -/
def Opnd.reads : Opnd → List Nat
  | .r32 (.v a) => if a.toNat < 254 then [a.toNat] else []
  | .r64 (.v a) => [a.toNat, a.toNat + 1]
  | _ => []

/-- The operand is qa. -/
def Opnd.isQa : Opnd → Bool
  | .r32 (.v a) => a == 254#8
  | _ => false

/-- The value an operand supplies to a lane (R89-R91): a 32-bit operand takes the low bits of a scalar. -/
def Run.value (r : Run) (k l : Nat) : Opnd → W64
  | .r32 (.v a) =>
    if a = 254#8 then (Tab.get 0 ((r.v.wg.qa.head?.map QEntry.words).getD []) l).setWidth 64
    else (r.v.w.readV (r.n + 256 * k + l) a.toNat l).setWidth 64
  | .r32 (.s a) => ((r.v.w.readS (r.n + 256 * k + l) a.toNat l).setWidth 32 : W32).setWidth 64
  | .r64 (.v a) =>
    r.v.w.readV (r.n + 256 * k + 32 + l) (a.toNat + 1) l ++ r.v.w.readV (r.n + 256 * k + l) a.toNat l
  | .r64 (.s a) => r.v.w.readS (r.n + 256 * k + l) a.toNat l
  | .imm x => x.setWidth 64
  | .pred p => (BitVec.ofBool (r.v.w.readP (r.n + 256 * k + l) p.toNat l)).setWidth 64

/-- All operands of a lane. -/
def Run.values (r : Run) (l : Nat) (os : List Opnd) : List W64 := os.mapIdx (fun k o => r.value (k + 1) l o)

/-- Enabled lanes in which a register read is poisoned (R357). DEDUCED, unsafe (log 12). -/
def Run.poisoned (r : Run) (regs : List Nat) : Mask :=
  maskOf (fun l => inMask r.en l && regs.any (fun x => r.v.w.vPoison.contains (32 * x + l)))

/-- poison-consumed by a register operand: the spec gives DETAIL as a sector or scratch address, and none for a register, so it is a free value. DEDUCED, unsafe (log 12). DESIGN CHOICE, safe (log 13). -/
def Run.trapPoisonReg (r : Run) (m : Mask) : State :=
  r.trap1 causePoison m (BitVec.ofNat 64 (Config.freeNat r.n))

/-- Where a value operation writes. -/
inductive VDst where
  | r32 (d : BitVec 8)
  | r64 (d : BitVec 8)
  | pred (p : BitVec 3)
  deriving DecidableEq, Repr

def VDst.regs : VDst → List Nat
  | .r32 d => if d.toNat < 254 then [d.toNat] else []
  | .r64 d => [d.toNat, d.toNat + 1]
  | .pred _ => []

def VDst.isQm : VDst → Bool
  | .r32 d => d == 255#8
  | _ => false

/-- The decode checks of a value word. -/
def preOf (fsel : Option Bool) (dst : VDst) (os : List Opnd) : Pre :=
  { regs := dst.regs ++ os.flatMap Opnd.regs, res := [], fsel := fsel, pop := os.any Opnd.isQa, push := dst.isQm,
    bad := false, tile := none }

/-- Pop the entry that qa operands have read: one for the word (R204). Threads waiting on qa stay so until another entry comes. -/
def State.popQa (s : State) (wgKey : Nat) (pop : Bool) : State :=
  if pop then s.modWg wgKey (fun wg => { wg with qa := wg.qa.tail }) else s

/-- Word l of an entry is lane l's result, 0 for a lane not enabled (R204). -/
def qWords (en : Mask) (f : Nat → W32) : Tab W32 :=
  (maskLanes en).foldl (fun t l => Tab.set 0 t l (f l)) []

/-- The sequencer of a workgroup looks at qm again. -/
def Wg.push (wg : Wg) (e : QEntry) : Wg := { wg with qm := wg.qm ++ [e] }

/-- Flags raised by lanes, ORed (R99). -/
def orFlags (m : Mask) (f : Nat → Fl) : Fl := (maskLanes m).foldl (fun a l => a ||| f l) 0

/-- The destination of a value word receives a value for each enabled lane. -/
def Run.write (r : Run) (lat : Nat) (dst : VDst) (f : Nat → W64) : Warp :=
  match dst with
  | .r32 d => if d = 255#8 then r.out else r.out.writeV lat d.toNat r.en (fun l => (f l).setWidth 32)
  | .r64 d =>
    (r.out.writeV lat d.toNat r.en (fun l => (f l).setWidth 32)).writeV lat (d.toNat + 1) r.en
      (fun l => ((f l) >>> 32).setWidth 32)
  | .pred p => r.out.writeP lat p.toNat r.en (fun l => (f l).getLsbD 0)

/-- A value word of class 1 or 2: every operand of every enabled lane is read, then the destination is written (R98). -/
def Run.valueNow (r : Run) (lat : Nat) (dst : VDst) (os : List Opnd) (f : List W64 → W64 × Fl) : State :=
  let bad := r.poisoned (os.flatMap Opnd.reads)
  if bad ≠ 0 then r.trapPoisonReg bad else
    let res := fun l => f (r.values l os)
    let w := r.write lat dst (fun l => (res l).1)
    let s := r.put { w with fpflags := w.fpflags ||| orFlags r.en (fun l => (res l).2) }
    let s := s.popQa r.v.wgKey (os.any Opnd.isQa)
    if dst.isQm then s.modWg r.v.wgKey (fun wg => wg.push { owner := none, words := qWords r.en (fun l => (res l).1.setWidth 32) })
    else s

/-- A value word of class 1 or 2 (R95, R98). -/
def valueOp (i : Instr) (h : Head) (lat : Nat) (dst : VDst) (os : List Opnd) (f : List W64 → W64 × Fl) (s : State) :
    Host.Outcome State Fault Refusal :=
  runWarp i h (preOf none dst os) s (fun r => r.valueNow lat dst os f)

/-- An operation in flight of the issuing split, with nothing set but its kind. -/
def Run.newOp (r : Run) (fsel : Bool) (kind : OpKind) : Op :=
  { ctx := r.v.g.ctx, warp := r.v.key, pc := r.v.w.pcOf r.sp, flag := r.v.w.flagFor r.sp fsel, kind := kind, sc := .th,
    space := .glob, lanes := r.en, left := r.en, accs := [], acks := [], counted := true }

/-- A long-latency word issues: its flag rises by one, its operation is in flight (R28, R80). -/
def Run.launch (r : Run) (o : Op) : State :=
  let id := r.s.nextId
  let w := r.out.raiseFlag o.flag
  { (r.put w) with nextId := id + 1, ops := Tab.put r.s.ops id o }

/-- A class-3 value word: operands are read at issue, results written at completion (R28, R107). DEDUCED, unsafe (log 11). DEDUCED, unsafe (log 24). -/
def Run.valueLong (r : Run) (fsel : Bool) (dst : VDst) (os : List Opnd) (f : List W64 → W64 × Fl) : State :=
  let bad := r.poisoned (os.flatMap Opnd.reads)
  if bad ≠ 0 then r.trapPoisonReg bad else
    let res := (maskLanes r.en).map (fun l => (l, f (r.values l os)))
    let dest := match dst with
      | .r32 d => if d = 255#8 then Dest.qm else .v d.toNat
      | .r64 d => .v d.toNat
      | .pred p => .p p.toNat
    let wide := match dst with | .r64 _ => true | _ => false
    let id := r.s.nextId
    let o := r.newOp fsel (.regs dest wide (res.map (fun e => (e.1, e.2.1))) (res.map (fun e => (e.1, e.2.2))))
    let s := (r.launch o).popQa r.v.wgKey (os.any Opnd.isQa)
    if dst.isQm then s.modWg r.v.wgKey (fun wg => wg.push { owner := some id, words := [] }) else s

/-- A class-3 value word (R95, R107). -/
def longOp (i : Instr) (h : Head) (fsel : Bool) (dst : VDst) (os : List Opnd) (f : List W64 → W64 × Fl) (s : State) :
    Host.Outcome State Fault Refusal :=
  runWarp i h (preOf (some fsel) dst os) s (fun r => r.valueLong fsel dst os f)

/-! Scalar instructions (R98, R100). -/

/-- The scalars that a scalar word reads, read once for the split, at its lowest enabled lane. -/
def Run.scalar (r : Run) (k : Nat) (a : BitVec 6) : W64 := r.v.w.readS (r.n + 256 * k) a.toNat (lowLane r.en)

/-- The second source of a scalar operation (R84, R100). -/
def Run.second (r : Run) (k : Nat) : SSrc → W64
  | .reg b => r.scalar k b
  | .imm x => x.signExtend 64

/-- A scalar instruction executes once when some thread is enabled, and writes its destination once (R98). -/
def scalarOp (i : Instr) (h : Head) (sd : BitVec 6) (f : Run → W64) (s : State) : Host.Outcome State Fault Refusal :=
  runWarp i h Pre.none s (fun r => r.put (r.out.writeS 1 sd.toNat r.sp (f r)))

end Sys2Proof.Machine
end

