-- ==== Sys2Proof/Machine/Complete.lean ====
section
/-! DEFINITION. Completing long-latency operations (R28, R80), and the actions of releases, acquires and fences (R152-R156, R258-R261). -/

namespace Sys2Proof.Machine

/-! Counting down. -/

/-- Lanes of an operation complete: with the last, its flag falls (R28, R80); the operation is gone when its accesses are performed too. -/
def State.countDown (s : State) (id : Nat) (lanes : Mask) : State :=
  match Tab.look s.ops id with
  | none => s
  | some o =>
    let left := o.left &&& ~~~lanes
    let s := if left = 0 ∧ o.counted then s.modWarp o.warp (fun w => w.lowerFlag o.flag) else s
    if left = 0 ∧ o.accs.all Access.done then { s with ops := Tab.del s.ops id }
    else { s with ops := Tab.put s.ops id { o with left := left, counted := o.counted && left != 0 } }

/-! Results. -/

/-- The bytes a lane's accesses have returned, in order. -/
def Op.bytesOf (o : Op) (l : Nat) : List Byte := (o.accs.filter (fun a => a.lane == l)).flatMap Access.res

/-- A loaded value extended to its destination (R139). -/
def loadWords (w : Width) (bs : List Byte) : List W32 :=
  let x := bytesToNat bs
  match w with
  | .u8 => [BitVec.ofNat 32 x]
  | .s8 => [(BitVec.ofNat 8 x).signExtend 32]
  | .u16 => [BitVec.ofNat 32 x]
  | .s16 => [(BitVec.ofNat 16 x).signExtend 32]
  | .w32 => [BitVec.ofNat 32 x]
  | .w64 => [BitVec.ofNat 32 x, BitVec.ofNat 32 (x / 2 ^ 32)]
  | _ => (List.range 4).map (fun k => BitVec.ofNat 32 (x / 2 ^ (32 * k)))

/-- Consecutive registers receive a lane's words. -/
def writeWords (w : Warp) (d l : Nat) (ws : List W32) : Warp :=
  (ws.zipIdx).foldl (fun w e => w.writeV 0 (d + e.2) (1#32 <<< l) (fun _ => e.1)) w

/-- The destination of a class-3 or class-4 result (R28). -/
def writeDest (w : Warp) (dest : Dest) (wide : Bool) (l : Nat) (x : W64) : Warp :=
  match dest with
  | .v d => writeWords w d l (if wide then [x.setWidth 32, (x >>> 32).setWidth 32] else [x.setWidth 32])
  | .s d => w.writeS 0 d (BitVec.allOnes 32) x
  | .p d => w.writeP 0 d (1#32 <<< l) (fun _ => x.getLsbD 0)
  | .qm => w

/-- A lane's results are written. -/
def Op.writeLane (o : Op) (w : Warp) (l : Nat) : Warp :=
  match o.kind with
  | .load width d => writeWords w d l (loadWords width (o.bytesOf l))
  | .lds sd => w.writeS 0 sd (BitVec.allOnes 32) (BitVec.ofNat 64 (bytesToNat ((o.accs.head?.map Access.res).getD [])))
  | .ctest sd mask =>
    let x : W64 := BitVec.ofNat 64 (bytesToNat ((o.accs.head?.map Access.res).getD []))
    w.writeS 0 sd (BitVec.allOnes 32) (if x &&& mask = mask then 1 else 0)
  | .pack slot elems =>
    let sg := bytesToNat ((o.accs.head?.map Access.res).getD [])
    { w with fpflags := w.fpflags ||| ((packRow (slotOf slot) elems sg).2.getD l (0, 0)).2 }
  | .unpack slot d =>
    let sg := bytesToNat ((o.accs.head?.map Access.res).getD [])
    let x := unpackValue (slotOf slot) sg (unplane (o.accs.tail.map (fun a => bytesToNat a.res)) l)
    let w := w.writeV 0 d (1#32 <<< l) (fun _ => BitVec.ofNat 32 x.1)
    { w with fpflags := w.fpflags ||| x.2 }
  | .atom _ (some d) =>
    let bs := o.bytesOf l
    writeWords w d l (if bs.length = 8 then loadWords .w64 bs else loadWords .w32 bs)
  | .regs dest wide vals fl =>
    let w := writeDest w dest wide l (Tab.get 0 vals l)
    { w with fpflags := w.fpflags ||| Tab.get 0 fl l }
  | _ => w

/-- An access of an atomic that leaves its result in the die's copy: a device-scope ATOM or RED completes only then (R265). -/
def Op.atDevice (o : Op) (a : Access) : Bool := (o.sc == .dev || o.sc == .sys) && !o.inScratch && isHbm a.pa

/-- A lane whose results are there, and for a device-scope RED its bytes in the die's copy (R265). -/
def Op.laneDone (o : Op) (l : Nat) : Bool :=
  match o.kind with
  | .load _ _ => o.accs.all (fun a => a.done || a.lane != l)
  | .lds _ => o.accs.all Access.done
  | .ctest _ _ => o.accs.all Access.done
  | .pack _ _ => o.accs.all Access.done
  | .unpack _ _ => o.accs.all Access.done
  | .atom _ (some _) => o.accs.all (fun a => a.done || a.lane != l)
  | .atom _ none => o.accs.all (fun a => a.done || a.lane != l || !o.atDevice a)
  | _ => true

/-- A class-3 word that pushes fills its qm entry at its completion (R204). -/
def State.fillQm (s : State) (wgKey id : Nat) (lanes : Mask) (vals : Tab W64) (last : Bool) : State :=
  s.modWg wgKey (fun wg => { wg with qm := wg.qm.map (fun e =>
    if e.owner = some id then
      { owner := if last then none else some id
        words := (maskLanes lanes).foldl (fun t l => Tab.set 0 t l ((Tab.get 0 vals l).setWidth 32)) e.words }
    else e) })

/-- Lanes of a load, LDS, atomic, lane exchange, SFU or conversion word complete: destinations written (R28). A store completes: its sources have been read. -/
def State.completeLanes (s : State) (id : Nat) (o : Op) (lanes : Mask) : State :=
  let ready := maskOf (fun l => inMask (lanes &&& o.left) l && o.laneDone l)
  if ready = 0 then s else
    let s := s.modWarp o.warp (fun w => (maskLanes ready).foldl o.writeLane w)
    let s := match o.kind with
      | .regs .qm _ vals _ => s.fillQm (o.warp / 32) id ready vals (decide (o.left &&& ~~~ready = 0))
      | _ => s
    s.countDown id ready

/-! Releases (R153). -/

/-- Operations of the warp that came before. -/
def State.before (s : State) (id warp : Nat) : List Op := (s.ops.filter (fun e => decide (e.1 < id) && e.2.warp == warp)).map (·.2)

/-- Every access that a release covers has been performed at its level (R153); at .th it need only have been accepted. -/
def State.covered (s : State) (id warp : Nat) (sc : Scope) : Bool :=
  sc == .th || (s.before id warp).all (fun o => o.accs.all Access.done)

/-- What a release does once its covered accesses are performed: the packets to wait for. DEDUCED, safe (log 34). -/
def State.releaseAt (s : State) (core c : Nat) (sc : Scope) : State × List Nat :=
  match sc with
  | .die => (s.flushUnit core c, [])
  | .dev => (s.flushUnit core c).releaseDie (core / 24) c
  | .sys => (s.flushUnit core c).releaseDie (core / 24) c
  | _ => (s, [])

/-- Every packet of a list is acknowledged. -/
def State.acked (s : State) (ps : List Nat) : Bool := ps.all (fun p => (Tab.look s.pkts p).isNone)

def State.opKind (s : State) (id : Nat) (k : OpKind) (acks : List Nat) : State :=
  { s with ops := Tab.mod s.ops id (fun o => { o with kind := k, acks := acks }) }

/-! Acquires (R154, R260). -/

/-- Every earlier load, ATOM, LDS, MWAIT, CWAIT and CTEST of the warp has completed (R154), and every earlier REL, ACQ and FENCE, and the release of a REL.N and of a PUBLISH (R153, R247: REL, ACQ, FENCE and PUB before ACQ are kept). -/
def State.mayAcquire (s : State) (id warp : Nat) : Bool :=
  (s.before id warp).all (fun o =>
    match o.kind with
    | .load _ _ => o.left == 0
    | .lds _ => o.left == 0
    | .ctest _ _ => o.left == 0
    | .atom _ (some _) => o.left == 0
    | .parked _ => o.left == 0
    | .regs _ _ _ _ => o.sc != .wg || o.left == 0
    | .rel _ => false
    | .acq _ => false
    | .fence _ => false
    | .relN _ _ _ _ started => started && s.acked o.acks
    | .publish _ _ _ _ => false
    | _ => true)

/-- No earlier acquire, fence, CCTL or unread CTEST of the warp is open: what follows them in the matrix may go on (R247). -/
def State.notHeld (s : State) (id warp : Nat) : Bool := (s.before id warp).all (fun o => !o.holds)

/-- The blocks that an acquire sweeps at a home: none for a ring that has wrapped (R260); a retired home has no notices (R365). -/
def State.sweepOf (s : State) (die c m : Nat) : Option (List Nat) :=
  let d := s.dieAt die
  let h := s.homeAt m
  let seen := Tab.get 0 d.lastSeen (16 * c + m)
  let n := (h.pos - seen).toNat
  if h.fenced then some []
  else if 4096 < n then none else
    some ((List.range n).filterMap (fun i =>
      match Tab.look h.ring ((seen.toNat + 1 + i) % 4096) with
      | none => none
      | some x =>
        let own := x.die == die && decide (x.kind ≤ 1)
        let handed := decide (x.kind ≤ 1) && d.skips.any (fun k => k.1 == c && k.2.1 == x.die && k.2.2 == x.seq)
        if x.ctx = c && !own && !handed then some x.block else none))

/-- One home of a device-scope acquire: C sectors of swept blocks leave, T sectors are released as single sectors and leave (R154, R260). -/
def State.sweepHome (s : State) (die c m : Nat) : State :=
  let there := fun t => isHbm (64 * tagSector t) && homeOf (64 * tagSector t) == m
  let tags := match s.sweepOf die c m with
    | none => s.tagsOf die c (fun t x => there t && x.twin.isNone)
    | some bs => s.tagsOf die c (fun t _ => there t && bs.contains (homeOffset (64 * tagSector t) / 65536))
  let pos := (s.homeAt m).pos
  let s := tags.foldl (fun s t => s.releaseDrop die t) s
  let d := s.dieAt die
  s.setDie die { d with lastSeen := Tab.set 0 d.lastSeen (16 * c + m) pos }

/-- The action of an acquire (R154): the packets to wait for, those of another warp's acquire whose sector has not left yet among them. Sectors that a handed list named and could not patch are swept as its notices would have swept them (R156: every load result is identical to the result without the handoff). DEDUCED, safe (log 36). -/
def State.acquireAt (s : State) (core c : Nat) (sc : Scope) : State × List Nat :=
  let die := core / 24
  match sc with
  | .cl => (s.dropL1 core (fun _ => true), [])
  | .die => (s.dropL1 core (fun _ => true), [])
  | .th => (s, [])
  | .wp => (s, [])
  | .wg => (s, [])
  | _ =>
    let s := (List.range 16).foldl (fun s m => s.sweepHome die c m) (s.dropL1 core (fun _ => true))
    let left := (s.dieAt die).left.filter (fun t => tagCtx t == c)
    let s := left.foldl (fun s t => s.releaseDrop die t) s
    let d := s.dieAt die
    let s := s.setDie die { d with skips := d.skips.filter (fun k => k.1 != c), left := d.left.filter (fun t => tagCtx t != c) }
    (s, (s.pkts.filter (fun e => e.2.drop && e.2.die == die && e.2.ctx == c)).map (·.1))

/-- A sector that an acquire releases and drops may be written again before it leaves: its packets are followed until it has left. -/
def State.dropsDone (s : State) (die c : Nat) (acks : List Nat) : Bool :=
  s.acked acks && !s.pkts.any (fun e => e.2.drop && e.2.die == die && e.2.ctx == c && acks.any (fun a => decide (a < e.1)))

/-! REL.N (R156). -/

/-- Bytes of a packet (R255). -/
def Packet.size (p : Packet) : Nat := 10 + (if p.pz then 2 else (p.runs.map (fun r => 2 + r.2.length)).sum)

/-- The comparison of a monitor (R163, R177). -/
def Mon.holds (m : Mon) (v : W64) : Bool :=
  if m.maskForm then v &&& m.x == m.x
  else if m.size = 4 then cmpInt m.cc (v.setWidth 32 : W32) (m.x.setWidth 32) else cmpInt m.cc v m.x

/-- The lock store of a REL.N: armed device-scope MWAITs on the word, of other dies, whose word the store makes satisfying, are woken by a handoff that carries the word (R156). more: sectors that other packets under the list's SEQ have named; stamp: the REL.N's own number, older than every packet of its release. -/
def State.lockStore (s : State) (core c key : Nat) (data : List Byte) (list : List Packet) (more : List Nat) (stamp : Nat) : State :=
  let die := core / 24
  let dev := isHbm key && s.biasState key == 0
  if !isHbm key then s.portWrite key data else
    let s' := (((s.settleUnit core c key).dropL1 core (· == tagOf c key)).writeHome key data).mirror die c key data
    let v := BitVec.ofNat 64 (bytesToNat (readBytes s'.mem key (if key % 8 = 0 then 8 else 4)))
    let mine := fun (m : Mon) => m.armed && m.sc == .dev && !m.scr && !m.maskForm && m.key == key && m.holds v && (Tab.look s.wgs (m.warp / 32)).isSome && (s.coreOfWarp m.warp / 24 != die)
    if !dev then s' else
      let picked := s.mons.filter (fun e => mine e.2)
      let s' := { s' with mons := s'.mons.map (fun e => if mine ((Tab.look s.mons e.1).getD e.2) then (e.1, (Tab.look s.mons e.1).getD e.2) else e) }
      let l := if (list.map Packet.size).sum ≤ 65536 then some list else none
      (sortNats (picked.map (fun e => s.coreOfWarp e.2.warp / 24))).foldl (fun s z =>
        let msg : Handoff := { die := z, mons := (picked.filter (fun e => s.coreOfWarp e.2.warp / 24 == z)).map (·.1), value := v, stamp := stamp, list := l, more := more }
        { s with nextId := s.nextId + 1, handoffs := Tab.put s.handoffs s.nextId msg }) s'

/-! One step of an operation that orders accesses. -/

/-- The release part of a REL, FENCE or PUBLISH: none while a covered access is outstanding, or an acquire or fence before it is open. -/
def State.relStep (s : State) (id : Nat) (o : Op) (k : OpKind) : Option State :=
  if !s.covered id o.warp o.sc || !s.notHeld id o.warp then none else
    let r := s.releaseAt (s.coreOfWarp o.warp) o.ctx o.sc
    some (r.1.opKind id k r.2)

/-- A release, acquire, fence or CCTL takes its next step; it completes with all its lanes. -/
def State.orderStep (s : State) (id : Nat) (o : Op) : State :=
  let core := s.coreOfWarp o.warp
  let die := core / 24
  let fin := fun (s : State) => s.countDown id o.lanes
  let check := fun (s : State) (acks : List Nat) => if s.acked acks then fin s else s
  match o.kind with
  | .rel false =>
    match s.relStep id o (.rel true) with
    | none => s
    | some s' => check s' (((Tab.look s'.ops id).map Op.acks).getD [])
  | .rel true => check s o.acks
  | .acq false =>
    if !s.mayAcquire id o.warp then s else
      let r := s.acquireAt core o.ctx o.sc
      let s := r.1.opKind id (.acq true) r.2
      if s.dropsDone die o.ctx r.2 then fin s else s
  | .acq true => if s.dropsDone die o.ctx o.acks then fin s else s
  | .publish va n cs false =>
    match s.relStep id o (.publish va n cs true) with
    | none => s
    | some s' => s'
  | .fence 0 =>
    match s.relStep id o (.fence 1) with
    | none => s
    | some s' => s'
  | .fence 1 =>
    if !s.acked o.acks || !s.mayAcquire id o.warp then s else
      let r := s.acquireAt core o.ctx o.sc
      let s := r.1.opKind id (.fence 2) r.2
      if s.dropsDone die o.ctx r.2 then fin s else s
  | .fence _ => if s.dropsDone die o.ctx o.acks then fin s else s
  | .relN pa data _ _ false =>
    if !s.covered id o.warp .dev || !s.notHeld id o.warp then s else
      let first := s.nextId
      let more := ((s.dieAt die).early.filter (fun e => e.1 == o.ctx)).map (·.2)
      let r := s.releaseAt core o.ctx .dev
      let list := (r.1.pkts.filter (fun e => decide (first ≤ e.1) && e.2.die == die && e.2.ctx == o.ctx)).map (·.2)
      r.1.opKind id (.relN pa data list more true) r.2
  | .relN pa data list more true =>
    let store := fun (s : State) => fin (((s.lockStore core o.ctx pa data list more id).finishAccess id 0 []))
    if !s.acked o.acks || s.unacked die o.ctx pa || s.dropsFrame pa || !s.mayPerform id o 0 ((o.accs.head?).getD ⟨32, 0, pa, 0, [], [], false, [], none, 0⟩) then s
    else if isHbm pa && decide (2 ≤ s.biasState pa) then s
    else if isHbm pa && s.biasState pa == 1 then (s.viaDca pa true store).getD s
    else store s
  | .cctl _ _ _ => if s.dropsDone die o.ctx o.acks then fin s else s
  | _ => s

/-! Parked words. -/

/-- Threads parked by a word that waits after issue go on past it, and its count falls (R28, R77). -/
def State.release (s : State) (warp : Nat) (m : Mask) : State :=
  let ids := (s.ops.filter (fun e => e.2.warp == warp && (match e.2.kind with | .parked _ => true | .publish _ _ _ _ => true | _ => false) && e.2.lanes &&& m != 0)).map (·.1)
  let s := s.modWarp warp (fun w => w.modThreads m (fun t => { t.pass.wake with again := false }))
  ids.foldl (fun s id => s.countDown id m) s

end Sys2Proof.Machine
end

