-- ==== Sys2Proof/Machine/Sites.lean ====
section
/-! DEFINITION. Where a memory word's accesses go: addresses, bounds, alignment, translation, poison and the causes they raise, checked before any access is made (R134, R135, R142, R143, R335, R356, R357). -/

namespace Sys2Proof

/-- Bytes of a width (R86). -/
def Width.bytes : Width → Nat
  | .u8 => 1 | .s8 => 1 | .u16 => 2 | .s16 => 2 | .w32 => 4 | .w64 => 8 | .w128 => 16 | .w256 => 32

/-- Registers of a data operand (R90). -/
def Width.regs : Width → Nat
  | .w64 => 2 | .w128 => 4 | _ => 1

/-- The signed byte offset of a memory operand (R85). -/
def MemOp.offset (m : MemOp) : W64 := m.off.signExtend 64

/-- Bytes and registers of an atomic's operands (R147). -/
def AMem.size (m : AMem) : Nat := if m.wide then 8 else 4
def AMem.regs (m : AMem) : Nat := if m.wide then 2 else 1

end Sys2Proof

namespace Sys2Proof.Machine

/-- Where one access goes, or why it does not go. -/
inductive Site where
  | ok (key va : Nat)
  | bad (cause : Nat) (detail : W64)
  | far (page : Nat)
  | grow (page : Nat)
  | stall (group va : Nat)
  deriving DecidableEq, Repr

def sclOf : Scl → Nat
  | .x1 => 1 | .x2 => 2 | .x4 => 4 | .x8 => 8 | .x16 => 16

/-- A group of consecutive registers. -/
def groupOf (d n : Nat) : List Nat := (List.range n).map (d + ·)

/-- The index register of a memory operand, if it has one (R88). -/
def idxRegs (idx : BitVec 8) : List Nat := if idx = 255#8 then [] else [idx.toNat]

/-- base + ZeroExtend(index) * scale + offset, modulo 2^64 (R51). -/
def Run.addr (r : Run) (base : BitVec 6) (idx : BitVec 8) (scl : Scl) (off : W64) (l : Nat) : Nat :=
  let x : W64 := if idx = 255#8 then 0 else (r.v.w.readV (r.n + 512 + l) idx.toNat l).setWidth 64
  (r.scalar 1 base + x * BitVec.ofNat 64 (sclOf scl) + off).toNat

/-- The address of a lane under a memory operand. -/
def Run.memAddr (r : Run) (m : MemOp) (l : Nat) : Nat := r.addr m.base m.idx m.scl m.offset l

/-- A 32- or 64-bit word of vector registers, or 16 bytes, as the bytes of a store. -/
def Run.dataBytes (r : Run) (k d n size l : Nat) : List Byte :=
  ((List.range n).flatMap (fun i => natToBytes 4 (r.v.w.readV (r.n + 256 * k + 32 * i + l) (d + i) l).toNat)).take size

/-! Sites. -/

/-- The sector holding an access is poisoned at the level that serves it: DETAIL is the sector's address (R357). DEDUCED, unsafe (log 14). Poison is precise (R135), so it is looked at when the word issues; a sector that becomes poisoned after that faults no access already in flight. DEDUCED, unsafe (log 99). -/
def State.poisonSite (s : State) (core c : Nat) (sc : Scope) (atomic : Bool) (key n : Nat) (x : Site) : Site :=
  if s.poisonAt core c sc atomic key n then .bad causePoison (BitVec.ofNat 64 (key / 64 * 64)) else x

/-- The group whose window an access of a core stalls at: it is leaving its personality, and the core has acknowledged the draining mark (R289). -/
def State.stalls (s : State) (core key : Nat) : Option Nat :=
  if isHbm key then none else
    match s.windowAt key with
    | some (g, _) =>
      let o := s.ogAt g
      if (o.st == .quiescing || o.st == .draining) && o.acks.contains core then some g else none
    | none => none

/-- A global access that is no copy start (R134, R143, R332). DETAIL of aperture-misuse is a template index, which such an access does not have: a free value. DESIGN CHOICE, safe (log 13). DEDUCED, unsafe (log 18). -/
def Run.globalSite (r : Run) (need : Need) (sc : Scope) (poison : Bool) (va size : Nat) : Site :=
  let s := r.s
  let c := r.v.g.ctx
  let core := r.v.wg.core
  if va % size ≠ 0 then .bad causeMisaligned (BitVec.ofNat 64 va)
  else if 2 ^ 57 ≤ va then .bad causeVaRange (BitVec.ofNat 64 va)
  else match s.lookup core c va with
    | .error e => .bad e (BitVec.ofNat 64 va)
    | .ok t =>
      if t.kind = 3 then .bad causeAperture (BitVec.ofNat 64 (Config.freeNat r.n))
      else match s.checkTrans c need t with
        | some e => .bad e (BitVec.ofNat 64 va)
        | none =>
          if t.kind = 1 then .far (va / 65536)
          else
            let key := cellOf t.pa
            match s.stalls core key with
            | some g => .stall g va
            | none => if poison then s.poisonSite core c sc (need == .both) key size (.ok key va) else .ok key va

/-- A store of a restartable grid to device memory (R140). -/
def Run.noRestart (r : Run) (va : Nat) (x : Site) : Site :=
  if r.v.g.restart then
    match x with
    | .ok key _ => if isHbm key then .bad causeRestart (BitVec.ofNat 64 va) else x
    | .far _ => .bad causeRestart (BitVec.ofNat 64 va)
    | y => y
  else x

/-- A scratch access (R142): reads of a poisoned word are consumption. -/
def Run.scratchSite (r : Run) (poison : Bool) (a size : Nat) : Site :=
  if a % size ≠ 0 then .bad causeMisaligned (BitVec.ofNat 64 a)
  else if r.v.g.scrBytes < a + size then .bad causeScratch (BitVec.ofNat 64 a)
  else if poison && (List.range size).any (fun i => r.v.wg.scrPoison.contains ((a + i) / 8)) then
    .bad causePoison (BitVec.ofNat 64 (a / 8 * 8))
  else .ok a a

/-- A constant access: an offset into the context's window (R142). -/
def Run.constSite (r : Run) (a size : Nat) : Site :=
  let ctx := r.s.ctxAt r.v.g.ctx
  if a % size ≠ 0 then .bad causeMisaligned (BitVec.ofNat 64 a)
  else if ctx.conn.toNat * 4096 < a + size then .bad causeConstant (BitVec.ofNat 64 a)
  else match r.globalSite .read .th true (ctx.conb.toNat * 4096 + a) size with
    | .bad e d => .bad e (if e = causePoison then d else BitVec.ofNat 64 a)
    | x => x

/-- The VA of a private word (R335). -/
def Run.privateVa (r : Run) (k o l : Nat) : Nat :=
  let ctx := r.s.ctxAt r.v.g.ctx
  let u := (r.v.cl.clid * 8 + r.v.wg.wgid) * 32 + r.v.w.wid
  ctx.prvb.toNat * 65536 + k * ctx.prvg.toNat * 65536 + u * 32 * ctx.psz.toNat + o / 4 * 128 + l * 4 + o % 4

/-- A private access of one word: o is the access's offset, and the checks are those of R335 in their order. -/
def Run.privateSite (r : Run) (need : Need) (o size part l : Nat) : Site :=
  let ctx := r.s.ctxAt r.v.g.ctx
  let d := BitVec.ofNat 64 o
  if o % size ≠ 0 then .bad causeMisaligned d
  else match r.v.g.slot with
    | none => .bad causePrvLimit d
    | some k =>
      let w := o + part
      let va := r.privateVa k w l
      let stop := ctx.prvb.toNat * 65536 + (k + 1) * ctx.prvg.toNat * 65536
      if ctx.psz.toNat < o + size ∨ stop ≤ va then .bad causePrvLimit d
      else if 2 ^ 57 ≤ va then .bad causeVaRange d
      else match r.s.lookup r.v.wg.core r.v.g.ctx va with
        | .error e =>
          if e = causeNotMapped then
            (if ctx.phwm.toNat ≤ w then
              (if r.v.w.declined.contains (r.v.w.pcOf r.sp, va / 4096) then .bad causePrvExhausted d else .grow (va / 4096))
            else .bad causeNotMapped d)
          else .bad e d
        | .ok t =>
          if t.kind ≠ 0 ∨ t.ct then .bad causeNotMapped d
          else match r.s.checkTrans r.v.g.ctx need t with
            | some e => .bad e d
            | none =>
              let key := cellOf t.pa
              if need == .read then r.s.poisonSite r.v.wg.core r.v.g.ctx .th false key (Nat.min size 4) (.ok key va) else .ok key va

/-! Resolving a whole word. -/

/-- The causes of a word's sites with their lane masks, and the DETAIL of the lowest cause: that of its lowest lane (R344). A thread raises one cause, its lowest. -/
def causesOf (xs : List (Nat × Site)) : List (Nat × Mask) × W64 :=
  let one := fun l => (xs.filterMap (fun e => if e.1 = l then (match e.2 with | .bad c d => some (c, d) | _ => none) else none)).foldl
    (fun (b : Option (Nat × W64)) c => match b with
      | some x => if c.1 < x.1 then some c else b
      | none => some c) none
  let per := (sortNats (xs.map (·.1))).filterMap (fun l => (one l).map (fun c => (l, c.1, c.2)))
  let cs := sortCauses (per.map (fun e => (e.2.1, 1#32 <<< e.1)))
  let c0 := (cs.headD (0, 0)).1
  (cs, ((per.find? (fun e => e.2.1 == c0)).map (fun e => e.2.2)).getD 0)

/-- A word that executes once for its split raises its cause in every enabled thread. -/
def onceSites (en : Mask) (x : Site) : List (Nat × Site) := (maskLanes en).map (fun l => (l, x))

/-- The first page of a park. -/
def parkOf (xs : List (Nat × Site)) : Option Wait :=
  xs.findSome? (fun e => match e.2 with
    | .far p => some (Wait.far p)
    | .grow p => some (Wait.grow p)
    | .stall g _ => some (Wait.stalled g)
    | _ => none)

/-- A page has to be brought in or mapped: the fault unit parks the warp, every ready thread at its own word, and the word is not counted as issued (R135, R338). DEDUCED, unsafe (log 39). -/
def Run.parkWarp (r : Run) (x : Wait) : State :=
  r.s.modWarp r.v.key (fun w =>
    let w := { w with budget := w.budget + 1 }
    w.park (r.sp ||| maskOf (fun l => (w.thread l).isReady)) x)

/-- The lanes whose access stalls at a window. -/
def stalledLanes (xs : List (Nat × Site)) : Mask :=
  xs.foldl (fun m e => match e.2 with | .stall _ _ => m ||| (1#32 <<< e.1) | _ => m) 0

/-- A word that stalled at a window that has left since: its stalled accesses raise window-offline, whatever has joined the map in the meantime (R289, R290). -/
def Run.withGone (r : Run) (xs : List (Nat × Site)) : List (Nat × Site) :=
  match r.v.w.gone with
  | none => xs
  | some (pc, m) =>
    if pc ≠ r.v.w.pcOf r.sp then xs else
      xs.map (fun e => if !inMask m e.1 then e else match e.2 with
        | .ok _ va => (e.1, .bad causeOffline (BitVec.ofNat 64 va))
        | .stall _ va => (e.1, .bad causeOffline (BitVec.ofNat 64 va))
        | x => (e.1, x))

/-- A word whose accesses go to these sites: it traps if any is bad, parks if any page has to be brought in (R135, R338), and goes on otherwise, the core's TLB keeping the translations. -/
def Run.withSites (r : Run) (global : Bool) (xs : List (Nat × Site)) (f : Run → State) : State :=
  let xs := r.withGone xs
  let cs := causesOf xs
  if !cs.1.isEmpty then
    (r.trap cs.1 cs.2).modWarp r.v.key (fun w => { w with declined := w.declined.filter (fun e => e.1 != r.v.w.pcOf r.sp), gone := none })
  else
    match parkOf xs with
    | some x => (r.parkWarp x).modWarp r.v.key (fun w => { w with stuck := stalledLanes xs })
    | none =>
      if !global then f r else
        f { r with s := xs.foldl (fun s e => match e.2 with
          | .ok _ va =>
            (match s.lookup r.v.wg.core r.v.g.ctx va with
              | .ok t => s.fillTlb r.v.wg.core r.v.g.ctx va t
              | .error _ => s)
          | _ => s) r.s }

/-- An access to a site. -/
def mkAccess (lane size : Nat) (x : Site) (data swp : List Byte) : Access :=
  match x with
  | .ok key va => { lane := lane, va := va, pa := key, size := size, data := data, swp := swp, done := false, res := [], pkt := none, gen := 0 }
  | _ => { lane := lane, va := 0, pa := 0, size := size, data := data, swp := swp, done := true, res := [], pkt := none, gen := 0 }

/-- Accesses translated now belong to the context's mapping generation (R179). -/
def Run.stamp (r : Run) (a : Access) : Access := { a with gen := (r.s.ctxAt r.v.g.ctx).mapgen.toNat }

/-- The access goes to a window that a group may lose, so that it can still be cancelled (R287). DEDUCED, unsafe (log 53). -/
def State.mayCancel (s : State) (a : Access) : Bool :=
  !a.done && !isHbm a.pa && (match s.windowAt a.pa with | some (_, w) => w.kind != .host | none => false)

/-- The operation is in flight, and its split issues no later word until its accesses are performed (R135). DEDUCED, unsafe (log 53). -/
def Run.hold (r : Run) (o : Op) : State :=
  let id := r.s.nextId
  { (r.s.setWarp r.v.key ((r.out.raiseFlag o.flag).park r.sp (.held id))) with nextId := id + 1, ops := Tab.put r.s.ops id o }

/-- A memory operation goes to the memory pipe (R28, R133). While an access of it may still be cancelled, the split issues no later word (R135). DEDUCED, unsafe (log 11). -/
def Run.memOp (r : Run) (fsel : Bool) (kind : OpKind) (sc : Scope) (space : Space) (accs : List Access) : State :=
  let o := { r.newOp fsel kind with sc := sc, space := space, accs := accs.map r.stamp }
  if space == .glob && accs.any r.s.mayCancel then (r.hold o).countDrops (accs.map Access.pa) else r.launch o

end Sys2Proof.Machine
end

