-- ==== Sys2Proof/Machine/Atomic.lean ====
section
/-! DEFINITION. Atomics and reductions of class 6 (R147-R151): operands are read at issue, the step is made at the level when the access is performed. -/

namespace Sys2Proof.Machine

/-- Registers an atomic names: its operands and its index. -/
def atomRegs (m : AMem) (rs : List (BitVec 8)) : List Nat := rs.flatMap (fun d => groupOf d.toNat m.regs) ++ idxRegs m.idx

/-- The site of an atomic: R and W of its page (R331). A RED of a poisoned sector raises nothing (R357). -/
def Run.atomSite (r : Run) (m : AMem) (ret : Bool) (a : Nat) : Site :=
  if m.scr then r.scratchSite ret a m.size else r.globalSite .both m.sc ret a m.size

/-- An atomic: one access for each enabled thread, in ascending lane order where they overlap (R133, R136). -/
def atomWord (i : Instr) (h : Head) (fsel : Bool) (op : AtomOp) (m : AMem) (dst : Option (BitVec 8)) (b : BitVec 8) (c : Option (BitVec 8))
    (s : State) : Host.Outcome State Fault Refusal :=
  runWarp i h (Pre.long fsel (atomRegs m (dst.toList ++ [b] ++ c.toList))) s (fun r =>
    let bad := r.poisoned (atomRegs m ([b] ++ c.toList))
    if bad ≠ 0 then r.trapPoisonReg bad else
      let xs := (maskLanes r.en).map (fun l => (l, r.atomSite m dst.isSome (r.addr m.base m.idx m.scl 0 l)))
      r.withSites (!m.scr) xs (fun r =>
        r.memOp fsel (.atom op (dst.map BitVec.toNat)) m.sc (if m.scr then .scr else .glob) (xs.map (fun e =>
          mkAccess e.1 m.size e.2 (r.dataBytes 3 b.toNat m.regs m.size e.1)
            ((c.map (fun c => r.dataBytes 5 c.toNat m.regs m.size e.1)).getD [])))))

def execAtomAdd (h : Head) (fsel : Bool) (m : AMem) (d b : BitVec 8) (s : State) : Host.Outcome State Fault Refusal :=
  atomWord (.atomAdd h fsel m d b) h fsel .add m (some d) b none s
def execAtomMin (h : Head) (fsel : Bool) (m : AMem) (d b : BitVec 8) (s : State) : Host.Outcome State Fault Refusal :=
  atomWord (.atomMin h fsel m d b) h fsel .min m (some d) b none s
def execAtomMax (h : Head) (fsel : Bool) (m : AMem) (d b : BitVec 8) (s : State) : Host.Outcome State Fault Refusal :=
  atomWord (.atomMax h fsel m d b) h fsel .max m (some d) b none s
def execAtomMinu (h : Head) (fsel : Bool) (m : AMem) (d b : BitVec 8) (s : State) : Host.Outcome State Fault Refusal :=
  atomWord (.atomMinu h fsel m d b) h fsel .minu m (some d) b none s
def execAtomMaxu (h : Head) (fsel : Bool) (m : AMem) (d b : BitVec 8) (s : State) : Host.Outcome State Fault Refusal :=
  atomWord (.atomMaxu h fsel m d b) h fsel .maxu m (some d) b none s
def execAtomAnd (h : Head) (fsel : Bool) (m : AMem) (d b : BitVec 8) (s : State) : Host.Outcome State Fault Refusal :=
  atomWord (.atomAnd h fsel m d b) h fsel .and m (some d) b none s
def execAtomOr (h : Head) (fsel : Bool) (m : AMem) (d b : BitVec 8) (s : State) : Host.Outcome State Fault Refusal :=
  atomWord (.atomOr h fsel m d b) h fsel .or m (some d) b none s
def execAtomXor (h : Head) (fsel : Bool) (m : AMem) (d b : BitVec 8) (s : State) : Host.Outcome State Fault Refusal :=
  atomWord (.atomXor h fsel m d b) h fsel .xor m (some d) b none s
def execAtomExch (h : Head) (fsel : Bool) (m : AMem) (d b : BitVec 8) (s : State) : Host.Outcome State Fault Refusal :=
  atomWord (.atomExch h fsel m d b) h fsel .exch m (some d) b none s
def execAtomFadd (h : Head) (fsel : Bool) (m : AMem) (d b : BitVec 8) (s : State) : Host.Outcome State Fault Refusal :=
  atomWord (.atomFadd h fsel m d b) h fsel .fadd m (some d) b none s
def execAtomCas (h : Head) (fsel : Bool) (m : AMem) (d b c : BitVec 8) (s : State) : Host.Outcome State Fault Refusal :=
  atomWord (.atomCas h fsel m d b c) h fsel .cas m (some d) b (some c) s
def execRedAdd (h : Head) (fsel : Bool) (m : AMem) (d : BitVec 8) (s : State) : Host.Outcome State Fault Refusal :=
  atomWord (.redAdd h fsel m d) h fsel .add m none d none s
def execRedMin (h : Head) (fsel : Bool) (m : AMem) (d : BitVec 8) (s : State) : Host.Outcome State Fault Refusal :=
  atomWord (.redMin h fsel m d) h fsel .min m none d none s
def execRedMax (h : Head) (fsel : Bool) (m : AMem) (d : BitVec 8) (s : State) : Host.Outcome State Fault Refusal :=
  atomWord (.redMax h fsel m d) h fsel .max m none d none s
def execRedFadd (h : Head) (fsel : Bool) (m : AMem) (d : BitVec 8) (s : State) : Host.Outcome State Fault Refusal :=
  atomWord (.redFadd h fsel m d) h fsel .fadd m none d none s
def execRedOr (h : Head) (fsel : Bool) (m : AMem) (d : BitVec 8) (s : State) : Host.Outcome State Fault Refusal :=
  atomWord (.redOr h fsel m d) h fsel .or m none d none s

end Sys2Proof.Machine
end

