-- ==== Sys2Proof/Machine/Barrier.lean ====
section
/-! DEFINITION. Workgroup barriers (R157-R159, R311), phase barriers (R160, R161) and the register-quota transfers that barriers apply (R213, R214). -/

namespace Sys2Proof.Machine

/-- The warps of a workgroup. -/
def State.warpsOf (s : State) (wgKey : Nat) : List (Nat × Warp) := s.warps.filter (fun e => e.1 / 32 == wgKey)

/-- Threads of a warp that pass a test. -/
def Warp.those (w : Warp) (f : Thread → Bool) : Mask := maskOf (fun l => f (w.thread l))

/-- Some access of these threads of the warp has not been performed: a release at workgroup scope waits for it (R130, R158, R161). DEDUCED, safe (log 37). -/
def State.pending (s : State) (warp : Nat) (m : Mask) : Bool :=
  s.ops.any (fun e => e.2.warp == warp && e.2.accs.any (fun a => !a.done && accThreads e.2 a &&& m != 0))

/-- A bit of a 32-bit vector. -/
def setBit (x : BitVec 32) (n : Nat) (b : Bool) : BitVec 32 :=
  if b then x ||| (1#32 <<< n) else x &&& ~~~(1#32 <<< n)

/-! Quota transfers (R214). -/

/-- The warp's flag counters are zero, but for the words of collectives it is parked at. -/
def State.idleFlags (s : State) (warp : Nat) : Bool :=
  match Tab.look s.warps warp with
  | none => true
  | some w => (List.range 12).all (fun f =>
      w.flag f == (s.ops.filter (fun e => e.2.warp == warp && e.2.counted && e.2.flag == some f && e.2.kind == .parked false)).length)

/-- Registers lo to hi - 1 of a warp read zero from now on. -/
def Warp.clearRegs (w : Warp) (lo hi : Nat) : Warp :=
  { w with v := w.v.filter (fun e => decide (e.1 / 32 < lo ∨ hi ≤ e.1 / 32)),
           vPoison := w.vPoison.filter (fun k => decide (k / 32 < lo ∨ hi ≤ k / 32)) }

/-- Pending transfers of warps with a thread among the arrivals. -/
def State.transfers (s : State) (wgKey : Nat) (arrived : Nat → Warp → Mask) : List (Nat × Regq) :=
  (s.warpsOf wgKey).filterMap (fun e => match e.2.regq with
    | some q => if arrived e.1 e.2 ≠ 0 then some (e.1, q) else none
    | none => none)

/-- Every live thread of both warps is among the arrivals. -/
def State.transferWhole (s : State) (wgKey : Nat) (arrived : Nat → Warp → Mask) (q : Regq) : Bool :=
  [q.w1, q.w2].all (fun i => match Tab.look s.warps (32 * wgKey + i) with
    | some w => w.liveMask &&& ~~~(arrived (32 * wgKey + i) w) == 0
    | none => true)

/-- A transfer is applied: w1 loses its highest registers, w2 gains as many, reading zero (R214). -/
def State.applyTransfer (s : State) (wgKey warp : Nat) (q : Regq) : State :=
  let s := s.modWarp (32 * wgKey + q.w1) (fun w => { (w.clearRegs (w.quota - 8 * q.k) w.quota) with quota := w.quota - 8 * q.k })
  let s := s.modWarp (32 * wgKey + q.w2) (fun w => { (w.clearRegs w.quota (w.quota + 8 * q.k)) with quota := w.quota + 8 * q.k })
  s.modWarp warp (fun w => { w with regq := none })

/-- The transfers of a completing collective, which is completed by QUOTA_TRANSFER_APPLY (ap) when there are any: not ready while a flag counter of a moved warp is nonzero; otherwise applied, or discarded where a thread of w1 or w2 is missing, with the warps whose arrived threads raise quota-transfer (R214). DESIGN CHOICE, safe (log 25). -/
def State.settleTransfers (s : State) (ap : Bool) (wgKey : Nat) (arrived : Nat → Warp → Mask) : Option (State × List Nat) :=
  let ts := s.transfers wgKey arrived
  if (ap || ts.isEmpty) && ts.all (fun t => !s.transferWhole wgKey arrived t.2 || (s.idleFlags (32 * wgKey + t.2.w1) && s.idleFlags (32 * wgKey + t.2.w2))) then
    some (ts.foldl (fun acc t =>
      if s.transferWhole wgKey arrived t.2 then (acc.1.applyTransfer wgKey t.1 t.2, acc.2)
      else (acc.1.modWarp t.1 (fun w => { w with regq := none }), acc.2 ++ [t.1])) (s, []))
  else none

/-- Threads of a warp raise quota-transfer where they are parked; their words no longer count. -/
def State.raiseTransfer (s : State) (warp : Nat) (m : Mask) : State :=
  match s.view warp with
  | none => s
  | some v =>
    let ids := (s.ops.filter (fun e => e.2.warp == warp && e.2.kind == .parked false && e.2.lanes &&& m != 0)).map (·.1)
    let s := s.raiseParked v m causeQuotaTransfer (fun _ => 0)
    ids.foldl (fun s id => s.countDown id m) s

/-! BAR. -/

/-- Threads of a warp marked arrived at n. DEDUCED, safe (log 37). -/
def arrivedAt (n : Nat) (w : Warp) : Mask := w.those (fun t => t.live && t.arrived.getLsbD n)

/-- Threads of a warp that have arrived at n, those that have exited since among them: the release of their arrival still stands (R158, R311). -/
def arrivedEver (n : Nat) (w : Warp) : Mask := w.those (fun t => t.st != .absent && t.arrived.getLsbD n)

/-- Barrier n completes when every live thread has arrived and every access before the arrivals is performed (R158): arrivals are cleared and the waiting threads released together, once pending transfers are applied (R214). -/
def State.barCheck (s : State) (ap : Bool) (wgKey n : Nat) : State :=
  let ws := s.warpsOf wgKey
  let all := ws.all (fun e => e.2.liveMask &&& ~~~(arrivedAt n e.2) == 0)
  let some_ := ws.any (fun e => arrivedAt n e.2 != 0)
  if !all || !some_ || ws.any (fun e => s.pending e.1 (arrivedEver n e.2)) then s else
    match s.settleTransfers ap wgKey (fun _ w => arrivedAt n w) with
    | none => s
    | some (s, bad) =>
      ws.foldl (fun s e =>
        let m := e.2.those (fun t => t.st == .parked (.bar n))
        let s := if bad.contains e.1 then s.raiseTransfer e.1 m else s.release e.1 m
        s.modWarp e.1 (fun w => w.modThreads (BitVec.allOnes 32) (fun t =>
          { t with arrived := setBit t.arrived n false })
          |>.modThreads m (fun t => { t with owed := setBit t.owed n false }))) s

/-- Every barrier number is looked at again. -/
def State.barsCheck (s : State) (ap : Bool) (wgKey : Nat) : State := (List.range 32).foldl (fun s n => s.barCheck ap wgKey n) s

/-- The checks of R157: the root team, and every live thread of the warp in the split and enabled. -/
def Run.barPartial (r : Run) : Option Mask :=
  let missing := r.v.w.liveMask &&& ~~~r.en
  if missing ≠ 0 ∨ !(maskLanes r.en).all (fun l => (r.v.w.thread l).team == 0) then some missing else none

/-- DETAIL of barrier-under-partial-mask (R344). DEDUCED, unsafe (log 21). -/
def partialDetail (n : Nat) (missing : Mask) : W64 := BitVec.ofNat 64 (n * 2 ^ 32 + missing.toNat)

/-- A word that parks threads after its issue: they keep their place at it (R77). The threads of the split that do not wait go on. -/
def Run.parkOn (r : Run) (w : Warp) (fsel : Bool) (m : Mask) (x : Wait) : State :=
  let o := { r.newOp fsel (.parked false) with lanes := m, left := m }
  let id := r.s.nextId
  let w := (w.raiseFlag o.flag).modThreads (r.sp &&& ~~~m) Thread.pass
  { (r.s.setWarp r.v.key (w.park m x)) with nextId := id + 1, ops := Tab.put r.s.ops id o }

/-- A word of class 6 or 7 that completes as it issues: its flag rises and falls in one step (R28, R80). -/
def Run.parkNone (r : Run) (w : Warp) : State := r.put w

/-- BAR n: arrives and waits. A BAR withdrawn at a save after its arrival does not arrive again (R165). DEDUCED, unsafe (log 7). -/
def execBar (h : Head) (fsel : Bool) (n : BitVec 5) (s : State) : Host.Outcome State Fault Refusal :=
  runWarp (.bar h fsel n) h (Pre.long fsel []) s (fun r =>
    match r.barPartial with
    | some missing => r.trap1 causePartial r.en (partialDetail n.toNat missing)
    | none =>
      let n := n.toNat
      let bad := r.v.w.those (fun t => !t.again && (t.arrived.getLsbD n || t.owed.getLsbD n)) &&& r.en
      if bad ≠ 0 then r.trap1 causeBarOrder bad (BitVec.ofNat 64 n) else
        let done := r.v.w.those (fun t => t.again && !t.arrived.getLsbD n) &&& r.en
        let w := r.out.modThreads (r.en &&& ~~~done) (fun t => { t with arrived := setBit t.arrived n true, owed := setBit t.owed n false, again := false })
        let w := w.modThreads done (fun t => { t with owed := setBit t.owed n false, again := false })
        if done = r.en then r.parkNone w
        else (r.parkOn w fsel (r.en &&& ~~~done) (.bar n)).barCheck false r.v.wgKey n)

/-- BAR.ARRIVE n: arrives and goes on; its BAR.WAIT is owed (R159, R311). DEDUCED, unsafe (log 7). -/
def execBarArrive (h : Head) (fsel : Bool) (n : BitVec 5) (s : State) : Host.Outcome State Fault Refusal :=
  runWarp (.barArrive h fsel n) h (Pre.long fsel []) s (fun r =>
    match r.barPartial with
    | some missing => r.trap1 causePartial r.en (partialDetail n.toNat missing)
    | none =>
      let n := n.toNat
      let bad := r.v.w.those (fun t => t.arrived.getLsbD n || t.owed.getLsbD n) &&& r.en
      if bad ≠ 0 then r.trap1 causeBarOrder bad (BitVec.ofNat 64 n) else
        (r.parkNone (r.out.modThreads r.en (fun t =>
          { t with arrived := setBit t.arrived n true, owed := setBit t.owed n true }))).barCheck false r.v.wgKey n)

/-- BAR.WAIT n: returns at once when its barrier has completed, else waits (R158, R159). -/
def execBarWait (h : Head) (fsel : Bool) (n : BitVec 5) (s : State) : Host.Outcome State Fault Refusal :=
  runWarp (.barWait h fsel n) h (Pre.long fsel []) s (fun r =>
    match r.barPartial with
    | some missing => r.trap1 causePartial r.en (partialDetail n.toNat missing)
    | none =>
      let n := n.toNat
      let bad := r.v.w.those (fun t => !t.owed.getLsbD n) &&& r.en
      if bad ≠ 0 then r.trap1 causeBarOrder bad (BitVec.ofNat 64 n) else
        let wait := r.v.w.those (fun t => t.arrived.getLsbD n) &&& r.en
        let w := r.out.modThreads (r.en &&& ~~~wait) (fun t => { t with owed := setBit t.owed n false })
        if wait = 0 then r.parkNone w else (r.parkOn w fsel wait (.bar n)).barCheck false r.v.wgKey n)

/-! Phase barriers. -/

/-- The object of phase barrier n (R160). -/
def pbarAddr (g : Grid) (n : Nat) : Nat := g.barbase + 8 * n
def pbarObj (wg : Wg) (g : Grid) (n : Nat) : Nat := bytesToNat (readBytes wg.scratch (pbarAddr g n) 8)
def objArr (o : Nat) : Nat := o % 2 ^ 16
def objExp (o : Nat) : Nat := o / 2 ^ 16 % 2 ^ 16
def objPh (o : Nat) : Bool := o.testBit 32

/-- PbarArrive of R161: a cause, or the object after the step. -/
def pbarStep (o e : Nat) : Except Nat Nat :=
  if objExp o = 0 ∨ o / 2 ^ 33 ≠ 0 then .error causePbUninit
  else if objExp o < objArr o + e then .error causePbOver
  else if objArr o + e = objExp o then .ok (objExp o * 2 ^ 16 + (if objPh o then 0 else 2 ^ 32))
  else .ok (o + e)

/-- Threads of a workgroup whose phase barrier has moved on are released, each flipping its parity bit; the sequencer looks for itself (R161). -/
def State.pbarWake (s : State) (wgKey n : Nat) (ph : Bool) : State :=
  (s.warpsOf wgKey).foldl (fun s e =>
    let m := e.2.those (fun t => t.st == .parked (.pbar n) && t.parity.getLsbD n != ph)
    if m = 0 then s else
      (s.release e.1 m).modWarp e.1 (fun w => w.modThreads m (fun t => { t with parity := setBit t.parity n (!t.parity.getLsbD n) }))) s

/-- The arrival's step at the scratch banks (R161). -/
def State.pbarApply (s : State) (wgKey n o' : Nat) (g : Grid) : State :=
  (s.writeScratch wgKey (pbarAddr g n) (natToBytes 8 o')).pbarWake wgKey n (objPh o')

/-- Threads parked at a phase barrier whose object a store or a copy has changed are released too (R160, R161, R316). -/
def State.pbarsCheck (s : State) (wgKey : Nat) : State :=
  match Tab.look s.clusters (wgKey / 8) with
  | none => s
  | some cl =>
    match Tab.look s.grids cl.grid with
    | none => s
    | some g => (List.range g.barn).foldl (fun s n =>
      match Tab.look s.wgs wgKey with
      | some wg => s.pbarWake wgKey n (objPh (pbarObj wg g n))
      | none => s) s

/-- pbar.arrive n: a release at workgroup scope, so its step comes when the threads' earlier accesses are performed; until then the split issues no later word (R161). -/
def execPbarArrive (h : Head) (fsel : Bool) (n : BitVec 5) (s : State) : Host.Outcome State Fault Refusal :=
  runWarp (.pbarArrive h fsel n) h { Pre.long fsel [] with res := [(n.toNat, .bar)] } s (fun r =>
    if s.pending r.v.key r.en then r.parkOn r.out fsel r.en (.arrive n.toNat) else
      match pbarStep (pbarObj r.v.wg r.v.g n.toNat) (popCount r.en) with
      | .error c => r.trap1 c r.en (BitVec.ofNat 64 (pbarObj r.v.wg r.v.g n.toNat))
      | .ok o' => (r.parkNone r.out).pbarApply r.v.wgKey n.toNat o' r.v.g)

/-- The steps of PBAR.ARRIVEs whose earlier accesses have now been performed. -/
def State.arriveCheck (s : State) (wgKey : Nat) : State :=
  s.ops.foldl (fun s e =>
    if e.2.warp / 32 != wgKey || e.2.kind != .parked false then s else
      match s.view e.2.warp with
      | none => s
      | some v =>
        match (v.w.thread (lowLane e.2.lanes)).st with
        | .parked (.arrive n) =>
          if s.pending e.2.warp e.2.lanes then s else
            match pbarStep (pbarObj v.wg v.g n) (popCount e.2.lanes) with
            | .error c =>
              let s := s.countDown e.1 e.2.lanes
              s.raise v (v.w.those (fun t => t.st == .parked (.arrive n)) &&& e.2.lanes) [(c, e.2.lanes)] (BitVec.ofNat 64 (pbarObj v.wg v.g n))
            | .ok o' => (s.release e.2.warp e.2.lanes).pbarApply wgKey n o' v.g
        | _ => s) s

/-- pbar.wait n: each enabled thread waits until the phase differs from its parity bit, then flips the bit (R161). -/
def execPbarWait (h : Head) (fsel : Bool) (n : BitVec 5) (s : State) : Host.Outcome State Fault Refusal :=
  runWarp (.pbarWait h fsel n) h { Pre.long fsel [] with res := [(n.toNat, .bar)] } s (fun r =>
    let n := n.toNat
    let ph := objPh (pbarObj r.v.wg r.v.g n)
    let wait := r.v.w.those (fun t => t.parity.getLsbD n == ph) &&& r.en
    let w := r.out.modThreads (r.en &&& ~~~wait) (fun t => { t with parity := setBit t.parity n (!t.parity.getLsbD n) })
    if wait = 0 then r.parkNone w else r.parkOn w fsel wait (.pbar n))

end Sys2Proof.Machine
end

