-- ==== Sys2Proof/Machine/Fence.lean ====
section
/-! DEFINITION. Fences, acquires, releases and REL.N (R152-R156), monitor waits (R162, R163) and cache control (R215). -/

namespace Sys2Proof.Machine

/-- A word that executes once for its split and stays in flight with no access of its own (R133, R152). -/
def orderWord (i : Instr) (h : Head) (fsel : Bool) (kind : OpKind) (sc : Scope) (s : State) : Host.Outcome State Fault Refusal :=
  runWarp i h (Pre.long fsel []) s (fun r => r.launch { r.newOp fsel kind with sc := sc })

def execFence (h : Head) (fsel : Bool) (sc : Scope) (s : State) : Host.Outcome State Fault Refusal :=
  orderWord (.fence h fsel sc) h fsel (.fence 0) sc s
def execAcq (h : Head) (fsel : Bool) (sc : Scope) (s : State) : Host.Outcome State Fault Refusal :=
  orderWord (.acq h fsel sc) h fsel (.acq false) sc s
def execRel (h : Head) (fsel : Bool) (sc : Scope) (s : State) : Host.Outcome State Fault Refusal :=
  orderWord (.rel h fsel sc) h fsel (.rel false) sc s

/-- rel.n.dev.w: the value of the lowest enabled lane; the store is a device-scope write (R156). In a restartable grid it is not an ST, so it may be made (R140). -/
def execRelN (h : Head) (fsel wide : Bool) (d : BitVec 8) (base : BitVec 6) (off : BitVec 16) (s : State) : Host.Outcome State Fault Refusal :=
  let n := if wide then 2 else 1
  runWarp (.relN h fsel wide d base off) h (Pre.long fsel (groupOf d.toNat n)) s (fun r =>
    let l := lowLane r.en
    let bad := r.poisoned (groupOf d.toNat n) &&& (1#32 <<< l)
    if bad ≠ 0 then r.trapPoisonReg bad else
      let x := r.globalSite .write .dev false (r.scalar 1 base + off.signExtend 64).toNat (4 * n)
      r.withSites true (onceSites r.en x) (fun r =>
        match x with
        | .ok key _ =>
          let a := r.stamp (mkAccess 32 (4 * n) x [] [])
          let o := { r.newOp fsel (.relN key (r.dataBytes 3 d.toNat n (4 * n) l) [] [] false) with sc := .dev, accs := [a] }
          if r.s.mayCancel a then (r.hold o).countDrops [a.pa] else r.launch o
        | _ => r.s))

/-! Monitors. -/

/-- Words of a context that hold an entry at a home, and entries of the home in all (R163, R337). -/
def State.homeEntries (s : State) (home : Nat) : List (Nat × Nat) :=
  (s.mons.filterMap (fun e => if e.2.armed && s.monLevel e.2 == 3 && homeOf e.2.key == home then some (e.2.ctx, e.2.key) else none)).eraseDups

/-- The word read at arming, at the monitor's level. -/
def State.monRead (s : State) (m : Mon) : State × W64 :=
  let core := s.coreOfWarp m.warp
  let word := fun (bs : List Byte) => (BitVec.ofNat 64 (bytesToNat bs) : W64)
  match s.monLevel m with
  | 0 => (match Tab.look s.wgs (m.warp / 32) with
    | some wg => (s, word (readBytes wg.scratch m.key m.size))
    | none => (s, 0))
  | 1 => let r := (s.settleUnit core m.ctx m.key).readL1 core m.ctx m.key m.size; (r.1, word r.2)
  | 2 => let r := (s.settleUnit core m.ctx m.key).readL2 (core / 24) m.ctx m.key m.size; (r.1, word r.2)
  | _ => (s, homeWord s m)

/-- The warp's earlier accesses let the reading at arming be made: no open acquire, fence, CCTL or unread CTEST, and its threads' accesses to the word performed (R154, R243). -/
def State.monFree (s : State) (id : Nat) (m : Mon) : Bool :=
  s.ops.all (fun e => decide (id ≤ e.1) || e.2.warp != m.warp ||
    (!e.2.holds && (e.2.inScratch != m.scr ||
      e.2.accs.all (fun b => b.done || !decide (b.pa < m.key + m.size ∧ m.key < b.pa + b.size) || accThreads e.2 b &&& m.lanes == 0))))

/-- Bytes of the word that the issuing die has written and not yet sent: they go home before the word is read there (R145, R243). -/
def State.sendWord (s : State) (m : Mon) : Option State :=
  let die := s.coreOfWarp m.warp / 24
  if s.unsent die m.ctx m.key m.size then some (s.takeDiff die (tagOf m.ctx m.key) 0 (s.seqOf die m.ctx) false false).1
  else if s.unacked die m.ctx m.key then some s
  else none

/-- The word that a monitor reads when it is armed is poisoned (R357). -/
def State.monPoisoned (s : State) (m : Mon) : Bool :=
  if m.scr then (match Tab.look s.wgs (m.warp / 32) with
    | some wg => (List.range m.size).any (fun i => wg.scrPoison.contains ((m.key + i) / 8))
    | none => false)
  else s.poisonAt (s.coreOfWarp m.warp) m.ctx (if s.monLevel m = 3 then .dev else m.sc) false m.key m.size

/-- Arming would read a poisoned word: the word that waits there is consumption, and its threads park on a record (R135, R357). -/
def State.monFault (s : State) (id : Nat) (m : Mon) : State :=
  match s.view m.warp with
  | none => s
  | some v =>
    let mine := maskOf (fun l => (v.w.thread l).st == .parked (.monitor id))
    let ids := (s.ops.filter (fun e => e.2.warp == m.warp && (match e.2.kind with | .parked _ => true | _ => false) && e.2.lanes &&& mine != 0)).map (·.1)
    let s := { s with mons := Tab.del s.mons id }
    let s := ids.foldl (fun s o => s.countDown o m.lanes) s
    s.raiseParked v mine causePoison (fun _ => BitVec.ofNat 64 (if m.scr then m.key / 8 * 8 else m.key / 64 * 64))

/-- Arm a monitor if its level has room and its page is not flipping; in host bias the line's snoop comes first (R163, R270, R272). -/
def State.armMon (s : State) (id : Nat) : State :=
  match Tab.look s.mons id with
  | none => s
  | some m =>
    if m.armed || !s.monFree id m then s else
      let go := fun (s : State) =>
        if s.monPoisoned m then s.monFault id m else
        let r := s.monRead m
        { r.1 with mons := Tab.put r.1.mons id { m with armed := true, seen := m.seen ++ [r.2] } }
      if s.monLevel m ≠ 3 then go s else
        let line := m.key / 64
        let home := homeOf m.key
        let es := s.homeEntries home
        let mine := (es.filter (fun e => e.1 == m.ctx)).length
        let have_ := es.contains (m.ctx, m.key)
        let state := s.biasState m.key
        if 2 ≤ state then s
        else if !have_ && (decide (4096 ≤ es.length) || decide ((s.ctxAt m.ctx).monmax.toNat ≤ mine)) then s
        else if state = 1 then
          (if s.snooped line then s else
            match s.snoopFor line false with
            | some x => { s with snoops := s.snoops ++ [x] }
            | none => go s)
        else match s.sendWord m with
          | some s' => s'
          | none => go s

/-- Park the enabled threads at a monitor and arm it (R163, R177). -/
def Run.monitor (r : Run) (fsel scr : Bool) (sc : Scope) (key size : Nat) (cc : Cmp) (x : W64) (maskForm : Bool) : State :=
  let id := r.s.nextId
  let o := r.newOp fsel (.parked true)
  let m : Mon := { ctx := r.v.g.ctx, warp := r.v.key, lanes := r.en, pc := o.pc, flag := o.flag, sc := sc, scr := scr, key := key, size := size, cc := cc, x := x, maskForm := maskForm, armed := false, seen := [], since := r.s.clock.toNat }
  let w := (r.out.raiseFlag o.flag).modThreads (r.sp &&& ~~~r.en) Thread.pass
  let w := w.park r.en (.monitor id)
  let s := { r.s.setWarp r.v.key w with nextId := id + 1, ops := Tab.put r.s.ops id o, mons := Tab.put r.s.mons id m }
  s.armMon id

/-- A global monitored word: device memory, or space-mismatch (R162, R177). -/
def Run.monSite (r : Run) (sc : Scope) (va size : Nat) : Site :=
  match r.globalSite .read sc true va size with
  | .ok key a => if isHbm key then .ok key a else .bad causeSpace (BitVec.ofNat 64 va)
  | x => x

/-- The comparison operand (R162). -/
def Run.monX (r : Run) : MX → W64
  | .reg a => r.scalar 2 a
  | .imm x => x.setWidth 64

/-- mwait.sc.w: parks its enabled threads until a value read at the level satisfies the comparison (R162, R163). -/
def execMwait (h : Head) (fsel scr wide : Bool) (sc : Scope) (cc : Cmp) (base : BitVec 6) (off : BitVec 16) (x : MX) (s : State) :
    Host.Outcome State Fault Refusal :=
  runWarp (.mwait h fsel scr wide sc cc base off x) h (Pre.long fsel []) s (fun r =>
    let size := if wide then 8 else 4
    let a := (r.scalar 1 base + off.signExtend 64).toNat
    let site := if scr then r.scratchSite true a size else r.monSite sc a size
    r.withSites (!scr) (onceSites r.en site) (fun r =>
      match site with
      | .ok key _ => r.monitor fsel scr sc key size cc (r.monX x) false
      | _ => r.s))

/-! Cache control. -/

/-- CCTL's effect on the caches its scope names (R215): the packets to wait for. -/
def State.cctlAct (s : State) (core c line : Nat) (sc : Scope) (wb inv : Bool) : State × List Nat :=
  let die := core / 24
  let tags := [tagOf c (128 * line), tagOf c (128 * line + 64)]
  let first := s.nextId
  let l1 := fun (s : State) => if inv then s.dropL1 core (fun t => tags.contains t) else s
  let dropC := fun (s : State) => tags.foldl (fun s t => match Tab.look (s.dieAt die).l2 t with
    | some x => if x.twin.isNone then s.leaveL2 die t else s
    | none => s) s
  let hbm := isHbm (128 * line)
  match sc with
  | .th => (l1 s, [])
  | .wp => (l1 s, [])
  | .wg => (l1 s, [])
  | .cl => ((if inv then dropC (l1 s) else s), [])
  | .die => ((if inv then dropC (l1 s) else s), [])
  | _ =>
    if hbm then
      let s := if wb then tags.foldl (fun s t => (s.takeDiff die t 0 (s.seqOf die c) inv false).1) s else s
      let s := if inv then dropC (l1 s) else s
      (s, (s.pkts.filter (fun e => e.2.die == die && (decide (first ≤ e.1) || (inv && e.2.drop && e.2.ctx == c && tags.contains (tagOf c (64 * e.2.sector)))))).map (·.1))
    else if sc = .sys then
      let both := [2 * line, 2 * line + 1]
      let wbOne := fun (s : State) k => match s.poolAt die k with
        | some x => if x.st == .m then
            let s := (s.poolOut k x.data x.poison).setPool die k { x with st := .e }
            { s with dca := Tab.mod s.dca k (fun d => { d with st := .e }) }
          else s
        | none => s
      let dropOne := fun (s : State) k => match s.poolAt die k with
        | some x => if x.st == .m then s else s.evictPool die k
        | none => s
      let s := if wb then both.foldl wbOne s else s
      ((if inv then both.foldl dropOne s else s), [])
    else (s, [])

/-- cctl: the address is translated as a load's is and needs R; the memory pipe holds later accesses until it completes (R215). -/
def cctlWord (i : Instr) (h : Head) (sc : Scope) (base : BitVec 6) (off : BitVec 16) (wb inv : Bool) (s : State) :
    Host.Outcome State Fault Refusal :=
  runWarp i h Pre.none s (fun r =>
    let a := (r.scalar 1 base + off.signExtend 64).toNat
    let va := a / 128 * 128
    let x := if 2 ^ 57 ≤ a then Site.bad causeVaRange (BitVec.ofNat 64 a) else
      match r.globalSite .read sc false va 1 with
      | .bad c _ => .bad (if c = causeAperture then causeSpace else c) (BitVec.ofNat 64 a)
      | y => y
    r.withSites true (onceSites r.en x) (fun r =>
      match x with
      | .ok key _ =>
        let c := r.s.cctlAct r.v.wg.core r.v.g.ctx (key / 128) sc wb inv
        let o := { r.newOp false (.cctl (key / 128) wb inv) with sc := sc, acks := c.2, flag := none, counted := false }
        let id := c.1.nextId
        let s := { c.1 with nextId := id + 1, ops := Tab.put c.1.ops id o }
        let s := s.setWarp r.v.key (r.out.modThreads r.sp Thread.pass)
        if c.2.isEmpty then s.countDown id o.lanes else s
      | _ => r.s))

def execCctlWb (h : Head) (sc : Scope) (base : BitVec 6) (off : BitVec 16) (s : State) : Host.Outcome State Fault Refusal :=
  cctlWord (.cctlWb h sc base off) h sc base off true false s
def execCctlInv (h : Head) (sc : Scope) (base : BitVec 6) (off : BitVec 16) (s : State) : Host.Outcome State Fault Refusal :=
  cctlWord (.cctlInv h sc base off) h sc base off false true s
def execCctlWbinv (h : Head) (sc : Scope) (base : BitVec 6) (off : BitVec 16) (s : State) : Host.Outcome State Fault Refusal :=
  cctlWord (.cctlWbinv h sc base off) h sc base off true true s

end Sys2Proof.Machine
end

