-- ==== Sys2Proof/Machine/Fetch.lean ====
section
/-! DEFINITION. Fetching instruction words (R332, R357, R370) and moving threads to branch targets. -/

namespace Sys2Proof.Machine

/-- What a fetch finds. -/
inductive Fetched where
  | word (w : W64)
  | bad (cause : Nat) (detail : W64)
  | far (page : Nat)
  | miss (va : Nat)
  deriving DecidableEq, Repr

/-- The word at an address, fetched by a core: at its home or its system target (R370), its page granting X (R332). A poisoned sector is consumption (R357). -/
def State.fetch (s : State) (core c va : Nat) : Fetched :=
  if 2 ^ 57 ≤ va then .bad causeVaRange (BitVec.ofNat 64 va)
  else match s.lookup core c va with
    | .error e => .bad e (BitVec.ofNat 64 va)
    | .ok t =>
      if t.kind = 3 then .bad causeAperture (BitVec.ofNat 64 (Config.freeNat s.draws))
      else match s.checkTrans c .fetch t with
        | some e => .bad e (BitVec.ofNat 64 va)
        | none =>
          if t.kind = 1 then .far (va / 65536)
          else
            let key := cellOf t.pa
            if s.homePoisoned key then .bad causePoison (BitVec.ofNat 64 (key / 64 * 64))
            else .word (BitVec.ofNat 64 (bytesToNat (s.portRead key 8)))

/-- The tag of an instruction-cache line. -/
def lineTag (c key : Nat) : Nat := c * 2 ^ 52 + key / 128

/-- The word at an address through the core's instruction cache, whose lines keep the bytes they were filled with (R370). DEDUCED, unsafe (log 16). -/
def State.fetchCode (s : State) (core c va : Nat) : Fetched :=
  match s.fetch core c va with
  | .word _ =>
    (match s.lookup core c va with
      | .ok t =>
        let key := cellOf t.pa
        (match Tab.look (s.coreAt core).icache (lineTag c key) with
          | some bs => .word (BitVec.ofNat 64 (bytesToNat ((bs.drop (key % 128)).take 8)))
          | none => .miss va)
      | .error _ => .miss va)
  | x => x

/-- The line that holds an address enters the core's instruction cache, if it can be fetched; the cache holds 256 KiB, and past that one of its lines leaves (R7). DEDUCED, unsafe (log 16). -/
def State.fillLine (s : State) (core c va : Nat) : State :=
  match s.fetch core c va, s.lookup core c va with
  | .word _, .ok t =>
    let key := cellOf t.pa
    let co := s.coreAt core
    let kept := if (Tab.look co.icache (lineTag c key)).isSome then co.icache else makeRoom 2048 co.icache (Config.freeNat ((s.draws + 1) * 2 ^ 80 + 2 ^ 73 + s.nextId))
    s.setCore core { co with icache := Tab.put kept (lineTag c key) (s.portRead (key / 128 * 128) 128) }
  | _, _ => s

/-- Each miss is a schedule slip of the context (R303). -/
def State.slip (s : State) (c : Nat) : State :=
  let x := s.ctxAt c
  s.setCtx c { x with slips := x.slips + 1 }

/-- The address that OFF32 names from a word: its own address + 8 × OFF32 (R117). -/
def relTarget (pc : Nat) (off : BitVec 32) : Nat := (BitVec.ofNat 64 pc + off.signExtend 64 * 8).toNat

/-- Threads of a mask go each to its own target. -/
def Warp.gotoEach (w : Warp) (m : Mask) (f : Nat → Nat) : Warp :=
  { w with threads := w.threads.mapIdx (fun l t => if inMask m l then t.goto (f l) else t) }

/-- A word after which some threads of the split jump and the others go on (R77, R117). -/
def Run.jump (r : Run) (w : Warp) (m : Mask) (f : Nat → Nat) : State :=
  r.s.setWarp r.v.key ((w.modThreads (r.sp &&& ~~~m) Thread.pass).gotoEach m f)

/-- The word's own address. -/
def Run.pc (r : Run) : Nat := r.v.w.pcOf r.sp

end Sys2Proof.Machine
end

