-- ==== Sys2Proof/Machine/Team.lean ====
section
/-! DEFINITION. Teams: collectives, team-calls, returns and rejoins (R121-R131, R307-R309), and the end of a workgroup (R16, R119). -/

namespace Sys2Proof.Machine

/-! Membership. -/

/-- Threads of a warp in a team, exited ones among them. -/
def Warp.ofTeam (w : Warp) (t : Nat) : Mask := w.those (fun x => x.st != .absent && x.team == t)

/-- Live threads of a warp in a team. -/
def Warp.liveOf (w : Warp) (t : Nat) : Mask := w.those (fun x => x.live && x.team == t)

/-- Live threads of a team in a test over the whole workgroup. -/
def State.allLive (s : State) (wgKey t : Nat) (f : Thread → Bool) : Bool :=
  (s.warpsOf wgKey).all (fun e => (List.range 32).all (fun l =>
    let x := e.2.thread l
    !(x.live && x.team == t) || f x))

/-- The team has no live thread. -/
def State.noLive (s : State) (wgKey t : Nat) : Bool := s.allLive wgKey t (fun _ => false)

/-- Some access of the team's threads is not yet performed: the release of R130 waits for it. -/
def State.teamPending (s : State) (wgKey t : Nat) : Bool :=
  (s.warpsOf wgKey).any (fun e => s.pending e.1 (e.2.ofTeam t))

def Wg.team (wg : Wg) (t : Nat) : Option Team := Tab.look wg.teams t

def State.setTeam (s : State) (wgKey t : Nat) (x : Team) : State :=
  s.modWg wgKey (fun wg => { wg with teams := Tab.put wg.teams t x })

/-- Change the threads of the workgroup that pass a test. -/
def State.modTeam (s : State) (wgKey : Nat) (f : Thread → Bool) (g : Thread → Thread) : State :=
  (s.warpsOf wgKey).foldl (fun s e => s.modWarp e.1 (fun w => w.modThreads (w.those f) g)) s

/-- A new sub-team's entry. -/
def Team.new (parent callee depth size : Nat) : Team :=
  { st := .active, parent := some parent, callee := callee, depth := depth, size := size, pending := none,
    byWarp := false, cancel := false, quit := false, status := [], called := false, callees := 0, table := [] }

/-- The root team's entry at launch (R121, R122). -/
def Team.root (size : Nat) : Team := { Team.new 0 0 0 size with parent := none }

/-! Division (R123). -/

/-- The index of the largest number; of equals the lowest if low, else the highest. -/
def argMax (low : Bool) (xs : List Int) : Nat :=
  (xs.zipIdx.foldl (fun (b : Int × Nat) e => if e.1 > b.1 ∨ (!low && e.1 = b.1) then e else b) (-2, 0)).2

def giveOne (xs : List Nat) (i : Nat) : List Nat := xs.mapIdx (fun j x => if j = i then x + 1 else x)

/-- Rounding by the largest fractional remainder. -/
def roundShares : Nat → List Nat → List Int → List Nat
  | 0, c, _ => c
  | k + 1, c, f =>
    let i := argMax true f
    roundShares k (giveOne c i) (f.mapIdx (fun j x => if j = i then -1 else x))

/-- TeamShares(n, w, m) of R123. -/
def teamShares (n : Nat) (ws : List Nat) : List Nat :=
  let total := ws.sum
  let k := (ws.filter (· != 0)).length
  if n < k then
    (ws.foldl (fun (a : List Nat × Nat) w => if w ≠ 0 ∧ a.2 < n then (a.1 ++ [1], a.2 + 1) else (a.1 ++ [0], a.2)) ([], 0)).1
  else
    let c := ws.map (fun w => n * w / total)
    let c := roundShares (n - c.sum) c (ws.map (fun w => ((n * w % total : Nat) : Int)))
    ws.zipIdx.foldl (fun c e =>
      if e.1 ≠ 0 ∧ c.getD e.2 0 = 0 then
        let j := argMax false (c.map (fun (x : Nat) => (x : Int)))
        c.mapIdx (fun i x => if i = j then x - 1 else if i = e.2 then 1 else x)
      else c) c

/-- Live threads of a team as (rank, warp, lane), in any order. -/
def State.members (s : State) (wgKey t : Nat) : List (Nat × Nat × Nat) :=
  (s.warpsOf wgKey).flatMap (fun e => (maskLanes (e.2.liveOf t)).map (fun l => ((e.2.thread l).rank, e.1, l)))

def insertMember (x : Nat × Nat × Nat) : List (Nat × Nat × Nat) → List (Nat × Nat × Nat)
  | [] => [x]
  | y :: ys => if x.1 ≤ y.1 then x :: y :: ys else y :: insertMember x ys

/-- Live threads of a team in ascending rank. -/
def State.ranked (s : State) (wgKey t : Nat) : List (Nat × Nat × Nat) := (s.members wgKey t).foldr insertMember []

/-- Warp-aligned (R124): each warp with a live thread of the team holds 32 of them, of ranks 32u + lane. -/
def State.warpAligned (s : State) (wgKey t : Nat) : Bool :=
  (s.warpsOf wgKey).all (fun e =>
    let m := e.2.liveOf t
    m == 0 || (m == BitVec.allOnes 32 &&
      (List.range 32).all (fun l => (e.2.thread l).rank == (e.2.thread 0).rank / 32 * 32 + l)))

/-- The lowest numbers that name no team of the workgroup. -/
def freeTeams (wg : Wg) (n : Nat) : List Nat :=
  ((List.range (wg.teams.length + n + 1)).filter (fun i => (Tab.look wg.teams i).isNone)).take n

/-- A thread begins a callee: its path grows, and what the rejoin needs is kept (R123). -/
def Thread.enter (t : Thread) (callee team rank size target : Nat) : Thread :=
  { (t.goto target) with
    st := .ready, team := team, rank := rank, size := size, path := t.path ++ [callee],
    frames := { rank := t.rank, size := t.size, team := t.team, pc := t.pc, cl := t.cl } :: t.frames }

/-- The team-call of a team divides it: every callee with a share takes an entry, the others are skipped (R123, R128). -/
def State.divide (s : State) (wgKey t : Nat) (x : Team) : State :=
  match Tab.look s.wgs wgKey with
  | none => s
  | some wg =>
    let ms := s.ranked wgKey t
    let unit := if x.byWarp then 32 else 1
    let shares := (teamShares (ms.length / unit) (x.table.map (·.1))).map (· * unit)
    let used := (shares.filter (· != 0)).length
    let ids := freeTeams wg used
    let x' : Team := { x with
      st := .suspended, pending := none, cancel := false, called := true, callees := used,
      status := shares.map (fun c => if c = 0 then 1#64 else BitVec.ofNat 64 (c * 2 ^ 32)) }
    let s := s.setTeam wgKey t x'
    let step := fun (a : State × List (Nat × Nat × Nat) × List Nat) (e : (Nat × Nat) × Nat) =>
      let (s, ms, ids) := a
      let (share, i) := (e.1.1, e.2)
      match ids with
      | [] => a
      | id :: rest =>
        if share = 0 then a else
          let s := s.setTeam wgKey id (Team.new t i (x.depth + 1) share)
          let s := ((ms.take share).zipIdx).foldl (fun s m =>
            s.modWarp m.1.2.1 (fun w => w.modThreads (1#32 <<< m.1.2.2) (fun y => y.enter i id m.2 share e.1.2))) s
          (s, ms.drop share, rest)
    (((shares.zip (x.table.map (·.2))).zipIdx).foldl step (s, ms, ids)).1

/-! Return and rejoin (R126). -/

/-- Every thread of a sub-team has executed TRET or EXIT. -/
def State.returned (s : State) (wgKey t : Nat) (x : Team) : Bool :=
  x.parent.isSome && (x.st == .active || x.st == .returning) && s.allLive wgKey t (fun y => y.st == .parked .tret)

/-- A thread of a returned sub-team is its parent's again, parked for the rejoin at the TCALL. -/
def Thread.back (t : Thread) : Thread :=
  match t.frames with
  | [] => t
  | f :: fs =>
    { t with rank := f.rank, size := f.size, team := f.team, pc := f.pc, cl := f.cl, frames := fs,
             path := t.path.dropLast, st := if t.live then .parked .rejoin else t.st }

/-- A sub-team returns: its status goes to the parent's entry, its entry is freed. -/
def State.giveBack (s : State) (wgKey t : Nat) (x : Team) : State :=
  match x.parent, (Tab.look s.wgs wgKey).bind (fun wg => x.parent.bind wg.team) with
  | some p, some px =>
    let word : W64 := BitVec.ofNat 64 (x.size * 2 ^ 32 + (if s.noLive wgKey t then 4 else 0) + (if x.quit then 2 else 0))
    let s := s.setTeam wgKey p { px with
      status := px.status.mapIdx (fun i w => if i = x.callee then word else w), callees := px.callees - 1 }
    let s := s.modWg wgKey (fun wg => { wg with teams := Tab.del wg.teams t })
    s.modTeam wgKey (fun y => y.st != .absent && y.team == t) Thread.back
  | _, _ => s

/-- The parent's live threads resume at the word after the TCALL. -/
def State.rejoin (s : State) (wgKey t : Nat) (x : Team) : State :=
  (s.setTeam wgKey t { x with st := .active }).modTeam wgKey (fun y => y.live && y.team == t)
    (fun y => y.pass.wake)

/-! Collectives that complete. -/

/-- Every live thread of the team has arrived, and its accesses are performed. -/
def State.allArrived (s : State) (wgKey t : Nat) : Bool :=
  s.allLive wgKey t (fun y => y.st == .parked .tbar || y.st == .parked .tcall) && !s.noLive wgKey t && !s.teamPending wgKey t

/-- Teams are ACTIVE again, their pending collectives and arrivals cleared, and their parked threads raise a cause at the collective's word: in ascending warp ids, one record for each warp and word (R307, R369). -/
def State.failTeams (s : State) (wgKey : Nat) (ts : List (Nat × Team)) (cause : Nat) : State :=
  let s := ts.foldl (fun s e => s.setTeam wgKey e.1 { e.2 with st := .active, pending := none, table := [] }) s
  (s.warpsOf wgKey).foldl (fun s e =>
    match s.view e.1 with
    | none => s
    | some v =>
      let m := ts.foldl (fun m x => m ||| v.w.liveOf x.1) 0
      if m = 0 then s else s.raiseParked v m cause (fun pc => BitVec.ofNat 64 pc)) s

/-- One team fails (R307). -/
def State.failTeam (s : State) (wgKey t : Nat) (x : Team) (cause : Nat) : State := s.failTeams wgKey [(t, x)] cause

/-- A TBAR completes: pending transfers are applied first, and every arrived thread is released together (R129, R214). -/
def State.tbarDone (s : State) (ap : Bool) (wgKey t : Nat) (x : Team) : Option State :=
  let arrived := fun (_ : Nat) (w : Warp) => w.liveOf t
  match s.settleTransfers ap wgKey arrived with
  | none => none
  | some (s, bad) =>
    let s := s.setTeam wgKey t { x with st := .active, pending := none, table := [] }
    some ((s.warpsOf wgKey).foldl (fun s e =>
      let m := e.2.liveOf t
      if m = 0 then s
      else if bad.contains e.1 then s.raiseTransfer e.1 m
      else s.modWarp e.1 (fun w => w.modThreads m (fun y => y.pass.wake))) s)

/-- Entries the pending team-call needs. -/
def State.needs (s : State) (wgKey t : Nat) (x : Team) : Nat :=
  let n := (s.members wgKey t).length / (if x.byWarp then 32 else 1)
  ((teamShares n (x.table.map (·.1))).filter (· != 0)).length

/-- Team-table entries reserved for the workgroup. -/
def State.teamRoom (s : State) (wgKey : Nat) : Nat :=
  match Tab.look s.wgs wgKey, Tab.look s.clusters (wgKey / 8) with
  | some wg, some cl =>
    (match Tab.look s.grids cl.grid with
      | some g => g.teamn - wg.teams.length
      | none => 0)
  | _, _ => 0

/-- The next change of one team, if one is due (R307). -/
def State.teamStep (s : State) (ap : Bool) (wgKey t : Nat) (x : Team) : Option State :=
  match x.st with
  | .suspended =>
    if x.callees = 0 && !s.teamPending wgKey t then
      (if s.noLive wgKey t && x.parent.isSome then some (s.giveBack wgKey t x) else some (s.rejoin wgKey t x))
    else none
  | .collecting | .blocked =>
    if !s.allArrived wgKey t then none
    else if x.table.isEmpty then s.tbarDone ap wgKey t x
    else if x.byWarp && !s.warpAligned wgKey t then some (s.failTeam wgKey t x causeAlignment)
    else if s.needs wgKey t x ≤ s.teamRoom wgKey then some (s.divide wgKey t x)
    else if x.st == .blocked then none
    else some (s.setTeam wgKey t { x with st := .blocked })
  | _ => if s.returned wgKey t x then some (s.giveBack wgKey t x) else none

/-- The condition of R125: a team is blocked, and no team that is neither suspended nor blocked has a live thread. A team whose callees have all returned is about to rejoin (R126, R316), and counts as not suspended. -/
def State.exhausted (s : State) (wgKey : Nat) (wg : Wg) : Bool :=
  wg.teams.any (fun e => e.2.st == .blocked) &&
    wg.teams.all (fun e => (e.2.st == .suspended && e.2.callees != 0) || e.2.st == .blocked || (e.2.st != .suspended && s.noLive wgKey e.1))

/-- Changes of the workgroup's teams, as long as one is due, the lowest entry's first: so the BLOCKED team of the lowest entry takes freed entries first. DESIGN CHOICE, unsafe (log 92). -/
def settleTeams (ap : Bool) (wgKey : Nat) : Nat → State → State
  | 0, s => s
  | k + 1, s =>
    match Tab.look s.wgs wgKey with
    | none => s
    | some wg =>
      match wg.teams.findSome? (fun e => s.teamStep ap wgKey e.1 e.2) with
      | some s' => settleTeams ap wgKey k s'
      | none =>
        if s.exhausted wgKey wg then
          s.failTeams wgKey (wg.teams.filter (fun e => e.2.st == .blocked)) causeExhausted
        else s

/-! The end of a workgroup. -/

/-- Every thread of the workgroup has exited and every counter of its warps is zero: it holds no reservation any more (R16). -/
def State.wgFree (s : State) (wgKey : Nat) : Bool := (s.warpsOf wgKey).all (fun e => e.2.liveMask == 0 && e.2.flagsZero)

/-- Every thread of the workgroup has exited, every counter is zero, nothing of it is in flight (R16, R80, R119), and no record of its sequencer or of a copy still decides whether the grid ends (R172, R184). DEDUCED, safe (log 28). -/
def State.wgDone (s : State) (wgKey : Nat) : Bool :=
  s.wgFree wgKey &&
    !s.ops.any (fun e => e.2.warp / 32 == wgKey) &&
    !s.copies.any (fun e => e.2.wg == wgKey && (e.2.srcTile.isSome || e.2.dstTile.isSome)) &&
    !s.recs.any (fun e => e.2.wgKey == wgKey)

/-- A finished workgroup frees its reservations (R16); it leaves its core with its warps and its sequencer; with the last of its workgroups, the cluster is done (R16, R17, R182). DEDUCED, safe (log 28). -/
def State.reap (s : State) (wgKey : Nat) : State :=
  match Tab.look s.wgs wgKey, Tab.look s.clusters (wgKey / 8) with
  | some _, some cl =>
    let s := if s.wgFree wgKey then s.wakeGroup cl.die cl.group else s
    if cl.st != .resident || !s.wgDone wgKey then s else
      let s := { s with
        wgs := Tab.del s.wgs wgKey
        warps := s.warps.filter (fun e => e.1 / 32 != wgKey) }
      if s.wgs.any (fun e => e.1 / 8 == wgKey / 8) then s else
        { s with
          clusters := Tab.del s.clusters (wgKey / 8)
          grids := Tab.mod s.grids cl.grid (fun g => { g with exited := g.exited + 1 }) }
  | _, _ => s

/-- Everything of a workgroup that waits for its own threads is looked at again. -/
def State.settle (s : State) (ap : Bool) (wgKey : Nat) : State :=
  (settleTeams ap wgKey 512 (((s.barsCheck ap wgKey).arriveCheck wgKey).pbarsCheck wgKey)).reap wgKey

def State.settleWg (s : State) (wgKey : Nat) : State := s.settle false wgKey

/-! Arrivals. -/

/-- Teams of a mask's threads. -/
def Warp.teamsOf (w : Warp) (m : Mask) : List Nat := sortNats ((maskLanes m).map (fun l => (w.thread l).team))

/-- Causes of a team word: for each team with an enabled thread, a cause and its DETAIL, or none. The failing teams' threads raise them, and the word faults for the whole split (R122). -/
def Run.teamCauses (r : Run) (f : Nat → Team → Mask → Option (Nat × W64)) : List (Nat × Mask × W64) :=
  (r.v.w.teamsOf r.en).filterMap (fun t =>
    match r.v.wg.team t with
    | none => none
    | some x =>
      let m := r.en &&& r.v.w.liveOf t
      (f t x m).map (fun c => (c.1, m, c.2)))

/-- The trap of failing teams: DETAIL is the lowest cause's; missing masks of several teams are joined. -/
def Run.teamTrap (r : Run) (cs : List (Nat × Mask × W64)) : State :=
  let all := sortCauses (cs.map (fun e => (e.1, e.2.1)))
  let c0 := (all.headD (0, 0)).1
  let ds := (cs.filter (fun e => e.1 == c0)).map (fun e => e.2.2)
  let d := if c0 = causePartial then ds.foldl (· ||| ·) 0 else ds.headD 0
  r.trap all d

/-- The address of a pending collective, or 0 (R344). DEDUCED, unsafe (log 21). -/
def Team.detail (x : Team) : W64 := BitVec.ofNat 64 (x.pending.getD 0)

/-- Arrival at a collective: R125's depth check, then R122's checks; then every team arrives, its threads park, and what is due happens (R122). The table that divides a team is the one its first arrival read. DESIGN CHOICE, unsafe (log 93). -/
def Run.collective (r : Run) (call byWarp : Bool) (table : List (Nat × Nat)) : State :=
  let cs := r.teamCauses (fun t x m =>
    let missing := r.v.w.liveOf t &&& ~~~m
    if call && decide (8 ≤ x.depth) then some (causeDepth, x.detail)
    else if missing ≠ 0 then some (causePartial, BitVec.ofNat 64 missing.toNat)
    else if x.st == .returning || (x.pending.isSome && x.pending != some r.pc) then some (causeMismatch, x.detail)
    else none)
  if !cs.isEmpty then r.teamTrap cs else
    let w := (r.out.modThreads (r.sp &&& ~~~r.en) Thread.pass).park r.en (if call then .tcall else .tbar)
    let s := r.s.setWarp r.v.key w
    let s := (r.v.w.teamsOf r.en).foldl (fun s t =>
      s.modWg r.v.wgKey (fun wg => { wg with teams := Tab.mod wg.teams t (fun x =>
        if x.pending.isSome then x else { x with st := .collecting, pending := some r.pc, byWarp := byWarp, table := table }) })) s
    s.settleWg r.v.wgKey

/-- tbar (R129). -/
def execTbar (h : Head) (s : State) : Host.Outcome State Fault Refusal :=
  runWarp (.tbar h) h Pre.none s (fun r => r.collective false false [])

/-- The words of a team table, read as code is (R62, R370), or what a fetch of one meets. -/
def State.teamWords (s : State) (core c a : Nat) : Nat → Except Fetched (List W64)
  | 0 => .ok []
  | n + 1 =>
    match s.fetch core c a with
    | .word w =>
      (match s.teamWords core c (a + 8) n with
        | .ok ws => .ok (w :: ws)
        | .error e => .error e)
    | e => .error e

/-- A team table with no illegal field: weights and targets (R62). All its words are fetched before word 0 is checked. DESIGN CHOICE, unsafe (log 91). -/
def teamTable (a : Nat) (ws : List W64) : Option (List (Nat × Nat)) :=
  match ws with
  | [] => none
  | w0 :: es =>
    let t := es.map (fun (e : W64) => ((e >>> 56).toNat, (BitVec.ofNat 64 a + ((e.setWidth 48 : BitVec 48).signExtend 64) * 8).toNat))
    if w0.toNat < 8 ∧ w0 ≠ 0 ∧ es.all (fun (e : W64) => (e >>> 48).toNat % 256 == 0) ∧ t.any (fun e => e.1 != 0) then some t else none

/-- tcall and tcall.w: the table is checked, then the depth, before any thread arrives (R62, R125). -/
def Run.teamCall (r : Run) (word : W64) (byWarp : Bool) (off : BitVec 32) : State :=
  let a := relTarget r.pc off
  let stop := fun (e : Fetched) => match e with
    | .bad c d => r.trap1 c r.en d
    | .far p => r.parkWarp (.far p)
    | .word _ => r.s
    | .miss _ => r.s
  if a % 8 ≠ 0 then r.trap1 causeIllegal r.en word else
  match r.s.fetch r.v.wg.core r.v.g.ctx a with
  | .word w0 =>
    (match r.s.teamWords r.v.wg.core r.v.g.ctx (a + 8) (w0.toNat % 8 + 1) with
      | .ok es =>
        (match teamTable a (w0 :: es) with
          | some t => r.collective true byWarp t
          | none => r.trap1 causeIllegal r.en word)
      | .error e => stop e)
  | e => stop e

def execTcall (h : Head) (off : BitVec 32) (s : State) : Host.Outcome State Fault Refusal :=
  runWarp (.tcall h off) h Pre.none s (fun r => r.teamCall (encode (.tcall h off)) false off)

def execTcallW (h : Head) (off : BitVec 32) (s : State) : Host.Outcome State Fault Refusal :=
  runWarp (.tcallW h off) h Pre.none s (fun r => r.teamCall (encode (.tcallW h off)) true off)

/-- tret: parks the enabled threads of a sub-team (R126); team-depth in the root team, team-collective-mismatch while a collective is pending (R307). -/
def execTret (h : Head) (s : State) : Host.Outcome State Fault Refusal :=
  runWarp (.tret h) h Pre.none s (fun r =>
    let cs := r.teamCauses (fun _ x _ =>
      if x.parent.isNone then some (causeDepth, x.detail)
      else if x.pending.isSome then some (causeMismatch, x.detail)
      else none)
    if !cs.isEmpty then r.teamTrap cs else
      let w := (r.out.modThreads (r.sp &&& ~~~r.en) Thread.pass).park r.en .tret
      let s := r.s.setWarp r.v.key w
      let s := (r.v.w.teamsOf r.en).foldl (fun s t =>
        s.modWg r.v.wgKey (fun wg => { wg with teams := Tab.mod wg.teams t (fun x => { x with st := .returning }) })) s
      s.settleWg r.v.wgKey)

/-- tquit: the parent's cancel bit and the sub-team's quit bit (R127). -/
def execTquit (h : Head) (s : State) : Host.Outcome State Fault Refusal :=
  runWarp (.tquit h) h Pre.none s (fun r =>
    (r.v.w.teamsOf r.en).foldl (fun s t =>
      match r.v.wg.team t with
      | none => s
      | some x =>
        match x.parent with
        | none => s
        | some p => s.modWg r.v.wgKey (fun wg => { wg with
            teams := Tab.mod (Tab.mod wg.teams t (fun x => { x with quit := true })) p (fun x => { x with cancel := true }) }))
      (r.put r.out))

/-- The team of the lowest enabled lane (R128). -/
def Run.lowTeam (r : Run) : Option Team := r.v.wg.team (r.v.w.thread (lowLane r.en)).team

/-- tstat sd, n: the status of callee n of the most recent completed team-call (R128). -/
def execTstat (h : Head) (sd : BitVec 6) (n : BitVec 3) (s : State) : Host.Outcome State Fault Refusal :=
  scalarOp (.tstat h sd n) h sd (fun r =>
    match r.lowTeam with
    | some x => if x.called then x.status.getD n.toNat 1 else 0
    | none => 0) s

/-- tstat sd, cancel: the parent's cancel bit (R128). -/
def execTstatCancel (h : Head) (sd : BitVec 6) (s : State) : Host.Outcome State Fault Refusal :=
  scalarOp (.tstatCancel h sd) h sd (fun r =>
    match r.lowTeam.bind (fun x => x.parent.bind r.v.wg.team) with
    | some p => if p.cancel then 1 else 0
    | none => 0) s

/-- exit: the enabled threads end; it counts as their TRET in a callee (R119, R126). A transfer still pending when the warp exits is discarded (R214). -/
def execExit (h : Head) (s : State) : Host.Outcome State Fault Refusal :=
  runWarp (.exit h) h Pre.none s (fun r =>
    let w := (r.out.modThreads (r.sp &&& ~~~r.en) Thread.pass).modThreads r.en (fun t => { t with st := .exited, cl := none })
    let w := if w.liveMask = 0 then { w with regq := none } else w
    (r.s.setWarp r.v.key w).settleWg r.v.wgKey)

end Sys2Proof.Machine
end

