-- ==== Sys2Proof/Machine/Control.lean ====
section
/-! DEFINITION. Branches, calls and returns (R117, R118, R120). -/

namespace Sys2Proof.Machine

/-- nop has no effect beyond its DIST (R120). -/
def execNop (h : Head) (s : State) : Host.Outcome State Fault Refusal :=
  runWarp (.nop h) h Pre.none s (fun r => r.put r.out)

/-- Latencies past a taken branch: it adds nothing for the threads that take it, neither its DIST nor its place (R82). -/
def Run.branchHazards (r : Run) (h : Head) : List Hazard :=
  match Tab.look r.s.warps r.v.key with
  | some w => age (h.dist.toNat + 1) (r.sp &&& ~~~r.en) w.hazards
  | none => []

/-- A branch: the condition is read once for the split, and each enabled thread jumps when it holds (R117). -/
def branch (i : Instr) (h : Head) (off : BitVec 32) (cond : Run → Bool) (s : State) : Host.Outcome State Fault Refusal :=
  runWarp i h Pre.none s (fun r =>
    if cond r then r.jump { r.out with hazards := r.branchHazards h } r.en (fun _ => relTarget r.pc off) else r.put r.out)

def execBra (h : Head) (off : BitVec 32) (s : State) : Host.Outcome State Fault Refusal :=
  branch (.bra h off) h off (fun _ => true) s
def execBnz (h : Head) (sc : BitVec 6) (off : BitVec 32) (s : State) : Host.Outcome State Fault Refusal :=
  branch (.bnz h sc off) h off (fun r => r.scalar 1 sc != 0) s
def execBz (h : Head) (sc : BitVec 6) (off : BitVec 32) (s : State) : Host.Outcome State Fault Refusal :=
  branch (.bz h sc off) h off (fun r => r.scalar 1 sc == 0) s

/-- The issuing split's word is not the last of its clause: CALL may not stand there (R95 order 5, R118). -/
def State.notLast (s : State) : Bool :=
  match s.curView with
  | none => false
  | some v =>
    let t := v.w.thread (lowLane v.w.split)
    match t.cl with
    | some c => decide (t.pc < c.hdr + 8 * c.cnt)
    | none => false

/-- call v, label: the next word's address to the pair, then the jump (R118). R82's table has no row for it: its latency is 1, and it and RET count in the sum of DIST. DEDUCED, unsafe (log 94). -/
def execCall (h : Head) (lv : BitVec 8) (off : BitVec 32) (s : State) : Host.Outcome State Fault Refusal :=
  runWarp (.call h lv off) h { Pre.none with regs := groupOf lv.toNat 2, bad := s.notLast } s (fun r =>
    let a : W64 := BitVec.ofNat 64 (r.pc + 8)
    let w := r.out.writeV 1 lv.toNat r.en (fun _ => a.setWidth 32)
    let w := w.writeV 1 (lv.toNat + 1) r.en (fun _ => (a >>> 32).setWidth 32)
    r.jump w r.en (fun _ => relTarget r.pc off))

/-- ret v: each enabled thread goes to the address in its own pair (R118). DEDUCED, unsafe (log 94). Where that address is no header's, the fault comes at the arrival there (R96). -/
def execRet (h : Head) (lv : BitVec 8) (s : State) : Host.Outcome State Fault Refusal :=
  runWarp (.ret h lv) h { Pre.none with regs := groupOf lv.toNat 2 } s (fun r =>
    let bad := r.poisoned (groupOf lv.toNat 2)
    if bad ≠ 0 then r.trapPoisonReg bad else
      r.jump r.out r.en (fun l => (r.value 1 l (.r64 (.v lv))).toNat))

end Sys2Proof.Machine
end

