-- ==== Sys2Proof/Machine/Issue.lean ====
section
/-! DEFINITION. Clause starts (R22, R75, R76, R300-R303) and what a warp's next word is: fetched, checked in R95's order, decoded. -/

namespace Sys2Proof.Machine

/-! Splits by R22. -/

/-- Ready threads at one place. -/
structure Group where
  mask : Mask
  pc : Nat
  cl : Option ClauseCtx
  deriving DecidableEq, Repr

/-- A lane into the group of its place: threads at one PC of which some are inside a clause and some arrive are two groups. DEDUCED, unsafe (log 95). -/
def addLane (l : Nat) (t : Thread) : List Group → List Group
  | [] => [{ mask := 1#32 <<< l, pc := t.pc, cl := t.cl }]
  | g :: gs => if g.pc = t.pc ∧ g.cl = t.cl then { g with mask := g.mask ||| (1#32 <<< l) } :: gs else g :: addLane l t gs

/-- The ready threads of a warp by place. -/
def Warp.groups (w : Warp) : List Group :=
  lanes32.foldl (fun gs l => if (w.thread l).isReady then addLane l (w.thread l) gs else gs) []

/-- R22's order: more threads first, the lower PC among equals. -/
def Group.before (a b : Group) : Bool :=
  decide (popCount b.mask < popCount a.mask) || (popCount a.mask == popCount b.mask && decide (a.pc ≤ b.pc))

def insertGroup (x : Group) : List Group → List Group
  | [] => [x]
  | y :: ys => if x.before y then x :: y :: ys else y :: insertGroup x ys

/-- The groups in R22's order. -/
def Warp.ordered (w : Warp) : List Group := w.groups.foldr insertGroup []

/-! What stands at a group's place. -/

/-- A group may start with a clause of so many words still to issue, or why not. enter: it stands at a header. -/
inductive Start where
  | go (c : ClauseCtx) (words : Nat) (enter : Bool)
  | bad (fetch : Bool) (cause : Nat) (detail : W64)
  | far (page : Nat)
  | miss (va : Nat)
  deriving DecidableEq, Repr

/-- The clause that a header at an address opens. -/
def clauseOf (pc : Nat) (x : Header) : ClauseCtx :=
  { hdr := pc, cls := x.cls.toNat, cnt := x.cnt.toNat + 1, wait := x.wait,
    setA := if x.av then some x.af.toNat else none, setB := if x.bv then some x.bf.toNat else none }

/-- Arrival at a place: a thread inside a clause goes on with its next word, once it is fetched (R77, R300); any other place must be a header that passes R75, of no stream clause (R78, R96). DEDUCED, unsafe (log 20). -/
def State.startOf (s : State) (core c : Nat) (g : Group) : Start :=
  match g.cl with
  | some x =>
    (match s.fetchCode core c g.pc with
      | .miss va => .miss va
      | _ => .go x ((x.hdr + 8 * x.cnt - g.pc) / 8 + 1) false)
  | none =>
    if g.pc % 8 ≠ 0 then .bad false causeMce (BitVec.ofNat 64 g.pc) else
      match s.fetchCode core c g.pc with
      | .bad cause d => .bad true cause d
      | .far p => .far p
      | .miss va => .miss va
      | .word w =>
        if !isHeader w then .bad false causeMce (BitVec.ofNat 64 g.pc)
        else if !headerOk w then .bad false causeIllegal w
        else
          let x := clauseOf g.pc (parseHeader w)
          if x.cls = 8 then .bad false causeClass w else .go x x.cnt true

/-- The set flags of a clause, each once. -/
def ClauseCtx.sets (c : ClauseCtx) : List Nat := c.setA.toList ++ c.setB.toList

/-- WAIT flags zero at a header (R76), and R30 for the flags a clause sets. -/
def Warp.mayStart (w : Warp) (c : ClauseCtx) (words : Nat) (enter : Bool) : Bool :=
  (!enter || (List.range 12).all (fun f => !c.wait.getLsbD f || w.flag f == 0)) &&
    c.sets.all (fun f => decide (w.flag f + words ≤ 63))

/-- A view whose split is one group, A or B. -/
def View.asSplit (v : View) (m : Mask) (b : Bool) : View :=
  { v with w := { v.w with pair := some { a := if b then 0 else m, b := if b then m else 0, turnB := b } } }

/-- A faulty arrival parks its threads on a record, marked FETCH where the fetch itself faults (R96, R332). DEDUCED, unsafe (log 20). -/
def State.arrivalFault (s : State) (v : View) (m : Mask) (b fetch : Bool) (cause : Nat) (detail : W64) : State :=
  let v := v.asSplit m b
  if fetch then s.raiseFetch v m cause detail else s.raise v m [(cause, m)] detail

/-- The fault unit parks a warp whose page has to be brought near: every ready thread, at its own word (R338). DEDUCED, unsafe (log 39). -/
def State.parkAll (s : State) (key : Nat) (x : Wait) : State :=
  s.modWarp key (fun w => w.park (w.those Thread.isReady) x)

/-- Arrivals of the two leading groups are looked at, until none of them faults, parks or misses. -/
def settleArrivals : Nat → Nat → State → State
  | 0, _, s => s
  | k + 1, key, s =>
    match s.view key with
    | none => s
    | some v =>
      if v.w.frozen.isSome then s else
        let first := (v.w.ordered.take 2).zipIdx.findSome? (fun e =>
          match s.startOf v.wg.core v.g.ctx e.1 with
          | .go _ _ _ => none
          | x => some (e.1, e.2 == 1, x))
        match first with
        | none => s
        | some (g, b, .bad fetch cause d) => settleArrivals k key (s.arrivalFault v g.mask b fetch cause d)
        | some (_, _, .far p) => s.parkAll key (.far p)
        | some (_, _, .miss va) => (s.slip v.g.ctx).modWarp key (fun w => { w with frozen := some va })
        | some (_, _, .go _ _ _) => s

/-- The pair that a warp would start now (R300): split A, and split B where it may join; none when the warp is not eligible. -/
def State.pairOf (s : State) (v : View) : Option ((Group × ClauseCtx × Bool) × Option (Group × ClauseCtx × Bool)) :=
  if v.w.frozen.isSome then none else
    match v.w.ordered with
    | [] => none
    | ga :: rest =>
      match s.startOf v.wg.core v.g.ctx ga with
      | .go ca na ea =>
        if !v.w.mayStart ca na ea then none else
          let b := match rest with
            | [] => none
            | gb :: _ =>
              (match s.startOf v.wg.core v.g.ctx gb with
                | .go cb nb eb =>
                  if cb.cls = ca.cls ∧ v.w.mayStart cb nb eb ∧
                      ca.sets.all (fun f => !cb.sets.contains f || decide (v.w.flag f + na + nb ≤ 63)) then some (gb, cb, eb)
                  else none
                | _ => none)
          some ((ga, ca, ea), b)
      | _ => none

/-- Threads at a header go inside its clause. -/
def Warp.enter (w : Warp) (g : Group) (c : ClauseCtx) (enter : Bool) : Warp :=
  if enter then w.modThreads g.mask (fun t => { t with pc := g.pc + 8, cl := some c }) else w

/-! The choice of R301. -/

/-- Cycles of one unit of AGE: 16 µs at 2.7 GHz (R296). -/
def ageCycles : Nat := 43200


/-- The cluster is on its cores. -/
def ClSt.onCore : ClSt → Bool
  | .resident => true
  | .saving => true
  | .releasing => true
  | _ => false

/-- Every cluster of the grid is placed: it is on its cores, also while it is saved there (R296). -/
def State.allPlaced (s : State) (gKey : Nat) (g : Grid) : Bool :=
  decide (g.nclus ≤ g.next) && g.again.isEmpty && s.clusters.all (fun e => e.2.grid != gKey || e.2.st.onCore)

/-- Time since the grid became eligible or had a cluster placed or offered again. -/
def State.waited (s : State) (g : Grid) : Nat := (s.clock - BitVec.ofNat 64 g.since).toNat

/-- AGE of a grid's partition, in cycles. -/
def State.ageOf (s : State) (g : Grid) : Nat := (s.partAt (s.ctxAt g.ctx).part.toNat).age.toNat * ageCycles

/-- The effective class (R296). -/
def State.effClass (s : State) (gKey : Nat) (g : Grid) : Nat :=
  if s.allPlaced gKey g then g.prio else Nat.min 3 (g.prio + s.waited g / s.ageOf g)

/-- The warps of a slice of a core. -/
def State.onSlice (s : State) (core slice : Nat) : List Nat :=
  (s.warps.filter (fun e => e.2.wid % 4 == slice &&
    (match Tab.look s.wgs (e.1 / 32), Tab.look s.clusters (e.1 / 256) with
      | some wg, some cl => wg.core == core && cl.st.onCore
      | _, _ => false))).map (·.1)

/-- A warp whose pair has a ready thread and whose fetch is not frozen. DEDUCED, unsafe (log 22). -/
def Warp.inPair (w : Warp) : Bool :=
  match w.pair with
  | some p => w.frozen.isNone && (w.those Thread.isReady &&& (p.a ||| p.b)) != 0
  | none => false

/-- Threads of a mask that are ready inside a clause at one word: those at the word that R22 puts first. -/
def Warp.readyIn (w : Warp) (m : Mask) : Mask :=
  match (w.ordered.filter (fun g => g.cl.isSome && g.mask &&& m != 0)) with
  | g :: _ => g.mask &&& m
  | [] => 0

/-- The pair that a warp resumes (R302): the one that its fetch froze, or, where every thread of it had parked, its threads that are ready again. Threads that wait at other PCs start a pair of their own while no thread of this one is ready. DEDUCED, unsafe (log 22). -/
def Warp.resumed (w : Warp) : Option Pair :=
  match w.pair with
  | none => none
  | some p =>
    if w.frozen.isSome then none
    else if (w.those Thread.isReady &&& (p.a ||| p.b)) != 0 then some p
    else
      let a := w.readyIn p.pa
      let b := w.readyIn p.pb
      if a = 0 ∧ b = 0 then none else some { a := a, b := b, turnB := a == 0, pa := p.pa &&& ~~~a, pb := p.pb &&& ~~~b }

/-- A warp eligible to start, or to resume the pair it has (R300, R302). -/
def State.eligible (s : State) (key : Nat) : Bool :=
  match s.view key with
  | none => false
  | some v => v.cl.st == .resident && !v.w.saved && (v.w.resumed.isSome || (s.pairOf v).isSome)

/-- Effective class of a warp's grid. -/
def State.warpClass (s : State) (key : Nat) : Nat :=
  match s.view key with
  | some v => s.effClass v.gKey v.g
  | none => 0

def State.eligCount (s : State) (key : Nat) : Nat := ((Tab.look s.warps key).map (·.elig)).getD 0

/-- R301's choice among the eligible warps. DESIGN CHOICE, unsafe (log 23). -/
def State.choose (s : State) (core slice : Nat) (ks : List Nat) : Option Nat :=
  let old := ks.filter (fun k => decide (512 ≤ s.eligCount k))
  match old with
  | k :: rest => some (rest.foldl (fun a b => if s.eligCount a < s.eligCount b then b else a) k)
  | [] =>
    let top := ks.foldl (fun c k => Nat.max c (s.warpClass k)) 0
    let best := ks.filter (fun k => s.warpClass k == top)
    match Tab.look (s.coreAt core).rr (4 * slice + top) with
    | none => best.head?
    | some last => (best.find? (fun k => decide (last < k))).or best.head?

/-- The warp that holds a slice: it has a pair that can go on (R24, R301-R303). -/
def State.holder (s : State) (core slice : Nat) : Option Nat :=
  match Tab.look (s.coreAt core).holds slice with
  | some k => (match Tab.look s.warps k with
    | some w => if w.inPair then some k else none
    | none => none)
  | none => none

/-- A chosen warp resumes the pair it has, or starts one; it holds the slice. -/
def State.startClause (s : State) (core slice key : Nat) : State :=
  match s.view key with
  | none => s
  | some v =>
    let c := s.coreAt core
    let cls := s.effClass v.gKey v.g
    let s := s.setCore core { c with rr := Tab.put c.rr (4 * slice + cls) key, holds := Tab.put c.holds slice key }
    match v.w.resumed with
    | some p => s.setWarp key { v.w with pair := some p }
    | none =>
      match s.pairOf v with
      | none => s
      | some ((ga, ca, ea), b) =>
        let w := v.w.enter ga ca ea
        let w := match b with
          | some (gb, cb, eb) => { w.enter gb cb eb with pair := some { a := ga.mask, b := gb.mask, turnB := false } }
          | none => { w with pair := some { a := ga.mask, b := 0, turnB := false } }
        s.setWarp key w

/-- CLAUSE_START: warps that a breakpoint has stopped park (R347); arrivals on the slice are settled; then, if no warp holds the slice, R301 chooses one, which starts (R300). -/
def execClauseStart (core slice : Nat) (s : State) : Host.Outcome State Fault Refusal :=
  let slice := slice % 4
  if (s.holder core slice).isSome then .next s else
    let all := s.onSlice core slice
    let s := all.foldl (fun s k =>
      match s.view k with
      | some v =>
        if v.w.resumed.isSome || v.w.frozen.isSome || v.cl.st != .resident then s
        else if v.w.dbg == .stopped then s.parkAll k .brk
        else if v.g.stopped then s.parkAll k .stop
        else settleArrivals 40 k s
      | none => s) s
    let ks := all.filter s.eligible
    match s.choose core slice ks with
    | none => .next s
    | some k =>
      let s := all.foldl (fun s j => s.modWarp j (fun w => { w with elig := if j ≠ k ∧ ks.contains j then w.elig + 1 else 0 })) s
      .next (s.startClause core slice k)

/-- ICACHE_MISS_FILL: the line that a frozen warp misses is filled, and the warp may issue again (R303). -/
def execIcacheMissFill (warp : Nat) (s : State) : Host.Outcome State Fault Refusal :=
  match s.view warp with
  | none => .next s
  | some v =>
    match v.w.frozen with
    | none => .next s
    | some va => .next ((s.fillLine v.wg.core v.g.ctx va).modWarp warp (fun w => { w with frozen := none }))

/-! The next word of the issuing split. -/

/-- What a split's next word is (R95): an instruction, a word of no effect, a cause in some threads, or a fetch that cannot go on. -/
inductive Next where
  | run (i : Instr)
  | void (dist : Nat)
  | bad (cause : Nat) (mask : Mask) (detail : W64)
  | fetch (cause : Nat) (detail : W64)
  | far (page : Nat)
  | miss (va : Nat)
  deriving DecidableEq, Repr

/-- Orders 1 to 5 of R95 on a fetched word; causes of orders 2 to 5 only in threads whose guard is true (R96). -/
def Warp.checkWord (w : Warp) (n : Nat) (sp : Mask) (word : W64) : Next :=
  let h := wHead word
  if h.guard = 0xF#4 then .bad causeIllegal sp word else
    let en := { w with hazards := age h.dist.toNat sp w.hazards }.enabled n h sp
    let bad := fun c => if en = 0 then Next.void h.dist.toNat else .bad c en word
    match opClass (wOp word) with
    | none => bad causeIllegal
    | some c =>
      let cls := ((w.thread (lowLane sp)).cl.map (·.cls)).getD 16
      if c ≠ cls then bad causeClass else
        match decode word with
        | some i => .run i
        | none => bad causeIllegal

/-- The next word of the issuing split. -/
def State.nextWord (s : State) (v : View) : Next :=
  match s.fetchCode v.wg.core v.g.ctx (v.w.pcOf v.w.split) with
  | .bad c d => .fetch c d
  | .far p => .far p
  | .miss va => .miss va
  | .word word => v.w.checkWord s.draws v.w.split word

/-- A word whose guard is false in every thread, and which does not decode, issues with no effect: it is counted and honours its DIST (R96). -/
def State.voidWord (s : State) (v : View) (dist : Nat) : State :=
  let sp := v.w.split
  if v.w.budget < v.w.cost then
    s.watchdog v
  else s.setWarp v.key ({ v.w with budget := v.w.budget - 1, hazards := age (dist + 1) sp v.w.hazards }.modThreads sp Thread.pass)

/-- Threads of a split that go on in the clause past the word at pc. -/
def Warp.goOn (w : Warp) (m : Mask) (pc : Nat) : Mask := m &&& w.those (fun t => t.isReady && t.cl.isSome && t.pc == pc + 8)

/-- Threads of a split that have parked inside the clause. -/
def Warp.parkedIn (w : Warp) (m : Mask) : Mask := m &&& w.those (fun t => t.live && !t.isReady && t.cl.isSome)

/-- The scalar that an operation writes when it completes; s0 for none. -/
def OpKind.scalar : OpKind → Nat
  | .lds sd => sd
  | .ctest sd _ => sd
  | .regs (.s sd) _ _ _ => sd
  | _ => 0

/-- The operation without its write of a scalar: it goes to s0. -/
def OpKind.noScalar : OpKind → OpKind
  | .lds _ => .lds 0
  | .ctest _ m => .ctest 0 m
  | .regs (.s _) w v f => .regs (.s 0) w v f
  | k => k

/-- Where both words of a co-issue are in flight with one scalar to write, the register ends with split B's value (R50). -/
def State.lastScalar (s : State) (key : Nat) (co : Option Nat) : State :=
  match co with
  | none => s
  | some n =>
    let mine := s.ops.filter (fun e => decide (n ≤ e.1) && e.2.warp == key && e.2.kind.scalar != 0)
    let lost := mine.filter (fun e => mine.any (fun f => decide (e.1 < f.1) && f.2.kind.scalar == e.2.kind.scalar))
    lost.foldl (fun s e => { s with ops := Tab.mod s.ops e.1 (fun o => { o with kind := o.kind.noScalar }) }) s

/-- After a split's word: who goes on, whose turn it is, and whether the pair has ended (R22, R98, R300); where threads of it have parked inside the clause, it may be resumed (R302). DESIGN CHOICE, unsafe (log 9). DEDUCED, unsafe (log 22). -/
def State.afterWord (s : State) (key pc : Nat) (wasB : Bool) : State :=
  match Tab.look s.warps key with
  | none => { s with cur := none }
  | some w =>
    match w.pair with
    | none => { s with cur := none }
    | some p =>
      let s := if wasB then s.lastScalar key p.co else s
      let a := if wasB then p.a &&& w.those Thread.isReady else w.goOn p.a pc
      let b := if wasB then w.goOn p.b pc else p.b &&& w.those Thread.isReady
      let q : Pair := { p with a := a, b := b, pa := w.parkedIn (p.pa ||| p.a), pb := w.parkedIn (p.pb ||| p.b) }
      if wasB || b = 0 then
        if a = 0 ∧ b = 0 then
          { s.setWarp key { w with pair := if q.pa = 0 ∧ q.pb = 0 then none else some { q with turnB := false, co := none }, coS := none } with cur := none }
        else s.setWarp key { w with pair := some { q with turnB := a == 0, co := none }, coS := none }
      else s.setWarp key { w with pair := some { q with turnB := true } }

/-- Before split A's word of a co-issue, the scalars that both words read are noted, and where its operations begin (R50, R98). DESIGN CHOICE, unsafe (log 9). -/
def State.beforeWord (s : State) (v : View) : State :=
  match v.w.pair with
  | some p => if p.a ≠ 0 ∧ p.b ≠ 0 ∧ !p.turnB then s.setWarp v.key { v.w with coS := some v.w.s, pair := some { p with co := some s.nextId } } else s
  | none => s

/-- A warp may issue: it holds its slice, or takes a step (R348). -/
def State.mayIssue (s : State) (v : View) : Bool :=
  v.cl.st == .resident && v.w.split != 0 && (v.w.dbg == .step || s.holder v.wg.core (v.w.wid % 4) == some v.key)

/-- After a stepped word: the split parks on a record of cause 38, the threads that the word parked where they are; bit 0 of DETAIL says that there are such (R348). PC is where the split stands. DEDUCED, unsafe (log 56). -/
def State.afterStep (s : State) (key : Nat) (sp : Mask) (b : Bool) : State :=
  match s.view key with
  | none => s
  | some v =>
    let v := v.asSplit sp b
    let go := sp &&& v.w.those Thread.isReady
    let parked := v.w.liveMask &&& sp &&& ~~~go
    let id := s.nextId
    let s := s.addRec { v.record s (v.w.pcOf (if go = 0 then sp else go)) sp [(causeStep, sp)] ((b1 (parked != 0)).setWidth 64) 0 with dbg := true }
    { (s.modWarp key (fun w =>
      let w := w.park go (.record id)
      { w.park (w.those Thread.isReady) .brk with dbg := .stopped, pair := none, coS := none })) with cur := none }

end Sys2Proof.Machine
end

