-- ==== Sys2Proof/Machine/Grids.lean ====
section
/-! DEFINITION. From the submission ring to the core and back: admission, eligibility, placement, completion and the ends of grids (R16, R17, R69, R70, R292-R299, R351). -/

namespace Sys2Proof.Machine

/-! The dispatch unit's accesses (R250). -/

/-- Where an access of the dispatch unit goes: a page-table walk with no TLB. -/
def State.unitSite (s : State) (c : Nat) (need : Need) (va : Nat) : Except Nat Nat :=
  if 2 ^ 57 ≤ va then .error causeVaRange else
    match s.walk c va with
    | .error e => .error e
    | .ok t =>
      if t.kind = 3 then .error causeAperture else
        match s.checkTrans c need t with
        | some e => .error e
        | none => .ok (cellOf t.pa)

/-- A word read by the dispatch unit. -/
def State.unitWord (s : State) (c va : Nat) : Except Nat W64 :=
  match s.unitSite c .read va with
  | .error e => .error e
  | .ok key => .ok (BitVec.ofNat 64 (bytesToNat (s.portRead key 8)))

/-- Consecutive words. -/
def State.unitWords (s : State) (c va : Nat) : Nat → Except Nat (List W64)
  | 0 => .ok []
  | n + 1 =>
    match s.unitWord c va with
    | .error e => .error e
    | .ok w =>
      match s.unitWords c (va + 8) n with
      | .error e => .error e
      | .ok ws => .ok (w :: ws)

/-- Bytes written where their address translates; nothing happens elsewhere. DEDUCED, unsafe (log 46). -/
def State.unitWrite (s : State) (c va : Nat) (bs : List Byte) : State :=
  match s.unitSite c .write va with
  | .error _ => s
  | .ok key => s.portWrite key bs

/-- Bytes written from an address on, each through its own page. -/
def State.unitPut (s : State) (c va : Nat) (bs : List Byte) : State :=
  (bs.zipIdx).foldl (fun s e => s.unitWrite c (va + e.2) [e.1]) s

/-- The far page that a read of the dispatch unit meets first among the words from an address on; it waits for it as a parked access would (R338). -/
def State.unitFar (s : State) (c va n : Nat) : Option Nat :=
  ((List.range n).map (fun i => va + 8 * i)).findSome? (fun a =>
    match s.walk c a with
    | .ok t => if t.kind = 1 ∧ (s.checkTrans c .read t).isNone then some (a / 65536) else none
    | .error _ => none)

/-- The name under which the monitor of a waiting grid stands (R293). -/
def unitWarp (gKey : Nat) : Nat := 2 ^ 62 + gKey

/-! Ends of clusters and grids. -/

/-- Everything of the clusters that a test picks is gone from the cores: threads, operations in flight, monitors, records and copies of their tiles. DESIGN CHOICE, unsafe (log 29). -/
def State.removeClusters (s : State) (p : Nat → Bool) : State :=
  let deadRec := fun (e : Nat × TrapRec) => p (e.2.wgKey / 8)
  let ids := (s.recs.filter deadRec).map (·.1)
  let s : State := { s with
    clusters := s.clusters.filter (fun e => !p e.1)
    wgs := s.wgs.filter (fun e => !p (e.1 / 8))
    warps := s.warps.filter (fun e => !p (e.1 / 256))
    ops := s.ops.filter (fun e => !p (e.2.warp / 256))
    mons := s.mons.filter (fun e => !p (e.2.warp / 256))
    copies := s.copies.filter (fun e => !(p e.2.cluster && (e.2.srcTile.isSome || e.2.dstTile.isSome)))
    recs := s.recs.filter (fun e => !deadRec e)
    cores := s.cores.map (fun e => (e.1, { e.2 with queue := e.2.queue.filter (fun i => !ids.contains i) }))
    cur := match s.cur with
      | some (.warp k) => if p (k / 256) then none else s.cur
      | some (.seq k) => if p (k / 8) then none else s.cur
      | none => none }
  s.wakeGroups

def State.ringAt (s : State) (c r : Nat) : Ring := Tab.get Ring.reset (s.ctxAt c).rings r
def State.setRing (s : State) (c r : Nat) (x : Ring) : State :=
  let y := s.ctxAt c
  s.setCtx c { y with rings := Tab.put y.rings r x }

/-- The status word (R294): CODE and DETAIL. -/
def statusWord (code detail : Nat) : W64 := BitVec.ofNat 64 (code + detail % 2 ^ 32 * 2 ^ 16)

/-- The dispatch unit writes a status word, where there is one and it can be written; a misaligned one byte by byte (R294). DEDUCED, unsafe (log 46). -/
def State.writeStatus (s : State) (c stat code detail : Nat) : State :=
  let bs := natToBytes 8 (statusWord code detail).toNat
  if stat = 0 then s else if stat % 8 = 0 then s.unitWrite c stat bs else s.unitPut c stat bs

/-- HALT of a ring (R294). -/
def State.halt (s : State) (c r : Nat) : State := s.setRing c r { s.ringAt c r with halt := true }

/-- Every hold for a grid is released, and what was held back requests work again (R297, R298). -/
def State.unhold (s : State) (gKey : Nat) : State :=
  { s with
    dies := s.dies.map (fun e => (e.1, { e.2 with holds := e.2.holds.filter (fun h => h.2 != gKey), idle := [] }))
    preempts := s.preempts.filter (· != gKey) }

/-- A grid leaves: its holds, its frames' remap entries, its monitor and its record of starvation with it. -/
def State.dropGrid (s : State) (gKey : Nat) (g : Grid) : State :=
  let x := s.ctxAt g.ctx
  let s := s.setCtx g.ctx { x with remaps := x.remaps.filter (fun r => !g.frames.any (fun f => decide (f.1 ≤ r.img ∧ r.img < f.1 + f.2))) }
  { s.unhold gKey with grids := Tab.del s.grids gKey, mons := s.mons.filter (fun e => e.2.warp != unitWarp gKey) }

/-- On-chip entries of a queue (R295): a grid holds one until its last cluster is placed. -/
def State.onChip (s : State) (c prio : Nat) : List Nat :=
  (s.grids.filter (fun e => e.2.ctx == c && e.2.prio == prio && !e.2.spilled &&
    (e.2.st == .waiting || e.2.st == .eligible) && (decide (e.2.next < e.2.nclus) || !e.2.again.isEmpty))).map (·.1)

/-- Spilled entries of a queue, oldest first. -/
def State.spilledOf (s : State) (c prio : Nat) : List Nat :=
  (s.grids.filter (fun e => e.2.ctx == c && e.2.prio == prio && e.2.spilled)).map (·.1)

/-- Weevil moves the oldest spilled entry of a queue back when an on-chip entry is free (R295). -/
def State.unspill (s : State) (c prio : Nat) : State :=
  match s.spilledOf c prio with
  | [] => s
  | g :: _ => if (s.onChip c prio).length < 32 then { s with grids := Tab.mod s.grids g (fun x => { x with spilled := false }) } else s

/-- A grid that has run ends with a code (R294): its clusters leave their cores, HALT is set, and the status word is written. DESIGN CHOICE, unsafe (log 29). -/
def State.endGrid (s : State) (gKey code detail : Nat) : State :=
  match Tab.look s.grids gKey with
  | none => s
  | some g =>
    let mine := fun k => match Tab.look s.clusters k with | some c => c.grid == gKey | none => false
    let s := (s.removeClusters mine).dropGrid gKey g
    let s := (s.halt g.ctx g.ring).writeStatus g.ctx g.stat code detail
    s.unspill g.ctx g.prio

/-- Every admitted grid of a context ends with code 11 (R294). -/
def State.abortCtx (s : State) (c : Nat) : State :=
  ((s.grids.filter (fun e => e.2.ctx == c)).map (·.1)).foldl (fun s k => s.endGrid k 11 0) s

/-! Admission (R293, R294). -/

/-- A ring admits up to its tail (R292). -/
def execRtailWrite (ctx : BitVec 6) (ring : BitVec 3) (x : BitVec 32) (s : State) : Host.Outcome State Fault Refusal :=
  if s.mgmt.recov then .next s else
  let r := s.ringAt ctx.toNat ring.toNat
  if 2 ^ r.log2n.toNat < (x - r.rhead).toNat then .next s
  else .next (s.setRing ctx.toNat ring.toNat { r with rtail := x })

/-- HALT is cleared; the ring retries its entry (R294). -/
def execHaltClear (ctx : BitVec 6) (ring : BitVec 3) (s : State) : Host.Outcome State Fault Refusal :=
  if s.mgmt.recov then .next s else
  .next (s.setRing ctx.toNat ring.toNat { s.ringAt ctx.toNat ring.toNat with halt := false })

/-- Some bit hi:lo of a word is set. -/
def bitsSet (w : W64) (hi lo : Nat) : Bool := w.toNat / 2 ^ lo % 2 ^ (hi + 1 - lo) != 0

/-- Reserved bits of a launch record (R69), as (word, high, low). -/
def recordReserved : List (Nat × Nat × Nat) :=
  [(0, 63, 57), (1, 63, 57), (2, 31, 27), (2, 23, 13), (2, 7, 6), (3, 55, 52), (3, 47, 47), (3, 39, 39), (3, 31, 30),
   (3, 23, 12), (4, 55, 54), (4, 49, 0), (5, 63, 57), (6, 63, 57), (24, 63, 32), (25, 63, 0), (26, 63, 0), (27, 63, 0),
   (28, 63, 0), (29, 63, 0), (30, 63, 0), (31, 63, 0)]

/-- The launch record as a grid, for its fields. -/
def Grid.ofWords (ws : List W64) : Grid :=
  { ctx := 0, ring := 0, ridx := 0, stat := 0, words := ws, st := .waiting, next := 0, again := [], exited := 0, since := 0,
    slot := none, spilled := false, frames := [], stopped := false }

/-- Fields outside their range, by word, lowest first (R69, R70, R227). -/
def Grid.rangeFault (g : Grid) : Option Nat :=
  let bad2 := g.nclus == 0 || g.lastw == 0 || decide (32 < g.lastw)
  let bad3 := g.regq == 0 || decide (31 < g.regq) || decide (8 < g.accn) || decide (64 < g.tilen) || g.teamn == 0
    || decide (64 < g.teamn) || decide (32 < g.barn) || decide (2048 < g.field 3 11 0)
  let badSlot := fun n => decide (18 < g.field (8 + n) 63 59) || decide (4 < g.field (8 + n) 54 52)
  if bad2 then some 2 else if bad3 then some 3 else if g.ceiling == 0 then some 4
  else ((List.range 8).find? badSlot).map (8 + ·)

/-- Warps of a workgroup on a slice (R15). -/
def Grid.onSlice (g : Grid) (slice : Nat) : Nat := ((List.range g.nwarps).filter (fun w => w % 4 == slice)).length

/-- The first failing row among codes 2 to 8 of R294, with its DETAIL. DEDUCED, unsafe (log 30). -/
def Grid.refusal (g : Grid) (e0 e1 : W64) (pmax : Nat) : Option (Nat × Nat) :=
  let entry := fun n => 0x80000000 + n
  if bitsSet e0 63 57 then some (2, entry 0)
  else if bitsSet e1 63 57 then some (2, entry 1)
  else match recordReserved.find? (fun r => bitsSet (g.words.getD r.1 0) r.2.1 r.2.2) with
    | some r => some (2, r.1)
    | none =>
      match g.rangeFault with
      | some w => some (3, w)
      | none =>
        if bitsSet e0 7 0 then some (4, entry 0)
        else if bitsSet e1 2 0 then some (4, entry 1)
        else if g.entry % 8 ≠ 0 then some (4, 0)
        else if g.donectr % 8 ≠ 0 then some (4, 5)
        else if g.waitctr % 8 ≠ 0 then some (4, 6)
        else if g.scrBytes < 8 * g.barn then some (5, 3)
        else if g.mstream ≠ 0 ∧ g.accn = 0 then some (6, 1)
        else if 1024 < 8 * g.regq * ((g.nwarps + 3) / 4) then some (7, 2)
        else if pmax < g.prio then some (8, 4)
        else none

/-- An instruction cache drops a context's lines (R370). -/
def State.dropCode (s : State) (c : Nat) : State :=
  { s with cores := s.cores.map (fun e => (e.1, { e.2 with icache := e.2.icache.filter (fun l => l.1 / 2 ^ 52 != c) })) }

/-- A grid becomes eligible (R293, R296, R370). -/
def State.makeEligible (s : State) (gKey : Nat) : State :=
  match Tab.look s.grids gKey with
  | none => s
  | some g => { (s.setGrid gKey { g with st := .eligible, since := s.clock.toNat }).dropCode g.ctx with
      mons := s.mons.filter (fun e => e.2.warp != unitWarp gKey) }.wakeGroups

/-- The dispatch unit's device-scope monitor on the counter that a waiting grid names (R293). -/
def State.watchCounter (s : State) (gKey : Nat) (g : Grid) : State :=
  match s.unitSite g.ctx .read g.waitctr with
  | .error _ => s
  | .ok key =>
    { s with
      nextId := s.nextId + 1
      mons := Tab.put s.mons s.nextId {
        ctx := g.ctx, warp := unitWarp gKey, lanes := 0, pc := 0, flag := none, sc := .dev, scr := false, key := key, size := 8,
        cc := .geu, x := BitVec.ofNat 64 g.waitval, maskForm := false, armed := false, seen := [], since := s.clock.toNat } }
      |>.armMon s.nextId

/-- An entry is refused: HALT is set, RHEAD stands, and the status word says why (R294). -/
def State.refuse (s : State) (c r stat code detail : Nat) : State := (s.halt c r).writeStatus c stat code detail

/-- Weevil writes a spill entry, whose layout the spec does not give (R295): free bytes in the spill ring. DESIGN CHOICE, unsafe (log 81). -/
def State.writeSpill (s : State) (c gKey : Nat) : State :=
  let x := s.ctxAt c
  let slot := Config.freeNat (s.draws + gKey) % (x.wquota.toNat)
  s.unitWrite c (x.saveb.toNat * 4096 + 32 * slot) ((List.range 32).map (fun i => Config.frameByte gKey i))

/-- The far page that the entry at a ring's head leads to, in the entry, its record or its counter (R338). -/
def State.ringFar (s : State) (c rn : Nat) : Option Nat :=
  let r := s.ringAt c rn
  if !(s.ctxAt c).en || !r.en || r.halt || r.rhead == r.rtail then none else
    let a := r.rbase.toNat + 16 * (r.rhead.toNat % 2 ^ r.log2n.toNat)
    match s.unitFar c a 2 with
    | some p => some p
    | none =>
      match s.unitWord c a with
      | .error _ => none
      | .ok e0 =>
        let lrec := e0.toNat % 2 ^ 57
        match s.unitFar c lrec 32 with
        | some p => some p
        | none =>
          match s.unitWord c (lrec + 48) with
          | .ok w => if w.toNat % 2 ^ 57 = 0 then none else s.unitFar c (w.toNat % 2 ^ 57) 1
          | .error _ => none

/-- RING_ENTRY_ADMIT: the entry at RHEAD is read, checked and admitted, or refused; it waits for a far page (R293-R295, R338). DEDUCED, unsafe (log 30). -/
def execRingEntryAdmit (ctx : BitVec 6) (ring : BitVec 3) (s : State) : Host.Outcome State Fault Refusal :=
  let c := ctx.toNat
  let rn := ring.toNat
  let r := s.ringAt c rn
  let waiting := s.grids.any (fun e => e.2.ctx == c && e.2.ring == rn && e.2.st == .waiting)
  if !(s.ctxAt c).en || !r.en || r.halt || r.rhead == r.rtail || waiting || (s.ringFar c rn).isSome then .next s else
    let a := r.rbase.toNat + 16 * (r.rhead.toNat % 2 ^ r.log2n.toNat)
    match s.unitWords c a 2 with
    | .ok [e0, e1] =>
      let lrec := e0.toNat % 2 ^ 57
      let stat := e1.toNat % 2 ^ 57
      (match s.unitWords c lrec 32 with
        | .error _ => .next (s.refuse c rn stat 9 0)
        | .ok ws =>
          let g := { Grid.ofWords ws with ctx := c, ring := rn, ridx := r.rhead.toNat, stat := stat }
          match g.refusal e0 e1 r.pmax.toNat with
          | some (code, detail) => .next (s.refuse c rn stat code detail)
          | none =>
            let unread := g.waitctr != 0 && (match s.unitSite c .read g.waitctr with | .ok _ => false | .error _ => true)
            if unread then .next (s.refuse c rn stat 9 6) else
              let full := decide (32 ≤ (s.onChip c g.prio).length) || !(s.spilledOf c g.prio).isEmpty
              let spilled := (s.grids.filter (fun e => e.2.ctx == c && e.2.spilled)).length
              if full && decide ((s.ctxAt c).wquota.toNat ≤ spilled) then .next (s.refuse c rn stat 12 0) else
                let id := s.nextId
                let s := { s with nextId := id + 1, grids := Tab.put s.grids id { g with spilled := full } }
                let s := if full then s.writeSpill c id else s
                let s := s.setRing c rn { r with rhead := r.rhead + 1 }
                .next (if g.waitctr = 0 then s.makeEligible id else s.watchCounter id g))
    | _ => .next (s.refuse c rn 0 9 0x80000000)

/-- A value of the counter that the dispatch unit's monitor has read, at its arming or at a write, satisfies the grid (R42, R293). -/
def State.counterMet (s : State) (gKey : Nat) : Bool := s.mons.any (fun e => e.2.warp == unitWarp gKey && e.2.seen.any e.2.holds)

/-- GRID_ELIGIBLE: the counter, read at the home by the dispatch unit's monitor, is at least waitval (R293). -/
def execGridEligible (grid : Nat) (s : State) : Host.Outcome State Fault Refusal :=
  match Tab.look s.grids grid with
  | none => .next s
  | some g => if g.st == .waiting && s.counterMet grid then .next (s.makeEligible grid) else .next s

/-! Reservation (R25, R299). -/

/-- The warps that hold a slot of a slice (R16, R299). -/
def State.slots (s : State) (core slice : Nat) : List Nat := (s.onSlice core slice).filter (fun k => !s.wgFree (k / 32))

/-- Registers reserved on a slice: its warps' quotas and the transfers pending into them (R213). -/
def State.sliceRegs (s : State) (core slice : Nat) : Nat :=
  ((s.slots core slice).map (fun k => match Tab.look s.warps k with
    | some w => w.quota + ((s.warpsOf (k / 32)).map (fun e => match e.2.regq with
        | some q => if q.w2 = w.wid ∧ q.w1 % 4 ≠ q.w2 % 4 then 8 * q.k else 0
        | none => 0)).sum
    | none => 0)).sum

/-- The grid of a workgroup. -/
def State.gridOf (s : State) (wgKey : Nat) : Option Grid :=
  match Tab.look s.clusters (wgKey / 8) with
  | some c => Tab.look s.grids c.grid
  | none => none

/-- A workgroup holds reservations on a core: it is there, not saved and not finished. -/
def State.onCore (s : State) (core : Nat) (e : Nat × Wg) : Bool :=
  e.2.core == core && !s.wgFree e.1 && (match Tab.look s.clusters (e.1 / 8) with | some c => c.st.onCore | none => false)

/-- What a core's workgroups reserve of one resource. -/
def State.reserved (s : State) (core : Nat) (f : Grid → Nat) : Nat :=
  ((s.wgs.filter (s.onCore core)).map (fun e => ((s.gridOf e.1).map f).getD 0)).sum

/-- Registers that a workgroup needs on each slice at its launch. -/
def Grid.launchRegs (g : Grid) : List Nat := (List.range 4).map (fun sl => 8 * g.regq * g.onSlice sl)

/-- Registers that a saved workgroup needs on each slice: the quotas that its warps have now, and what is pending into them (R213, R353). -/
def State.savedRegs (s : State) (wgKey : Nat) : List Nat :=
  let ws := s.warpsOf wgKey
  (List.range 4).map (fun sl => ((ws.filter (fun e => e.2.wid % 4 == sl)).map (fun e => e.2.quota +
    (ws.map (fun f => match f.2.regq with
      | some q => if q.w2 = e.2.wid ∧ q.w1 % 4 ≠ q.w2 % 4 then 8 * q.k else 0
      | none => 0)).sum)).sum)

/-- More workgroups of the grid, with these needs of registers, fit a core (R299). -/
def State.fitsCore (s : State) (core : Nat) (g : Grid) (needs : List (List Nat)) : Bool :=
  let n := needs.length
  (List.range 4).all (fun sl =>
    decide ((s.slots core sl).length + n * g.onSlice sl ≤ 16) &&
      decide (s.sliceRegs core sl + (needs.map (fun d => d.getD sl 0)).sum ≤ 1024)) &&
    decide (s.reserved core Grid.scrBytes + n * g.scrBytes ≤ 524288) &&
    decide (s.reserved core Grid.accn + n * g.accn ≤ 8) &&
    decide (s.reserved core Grid.tilen + n * g.tilen ≤ 64) &&
    decide (s.reserved core Grid.teamn + n * g.teamn ≤ 256) &&
    decide (s.reserved core (fun g => if g.mstream = 0 then 0 else 1) + n * (if g.mstream = 0 then 0 else 1) ≤ 1)

/-- The cores of a cluster group. -/
def groupCores (die group : Nat) : List Nat := (List.range 8).map (fun i => 24 * die + 8 * group + i)

/-- The needs of the workgroups that a list of (core, need) puts on a core. -/
def needsOn (core : Nat) (l : List (Nat × List Nat)) : List (List Nat) := (l.filter (fun e => e.1 == core)).map (·.2)

/-- Cores for every workgroup of a cluster: each goes to the first core of the group that still has room; fewer than the workgroups, where one has none. -/
def State.fillCores (s : State) (die group : Nat) (g : Grid) (needs : List (List Nat)) : List Nat :=
  (needs.foldl (fun acc d =>
    match (groupCores die group).find? (fun c => s.fitsCore c g (needsOn c acc ++ [d])) with
    | some c => acc ++ [(c, d)]
    | none => acc) []).map (·.1)

/-- The cores an event names for the workgroups, where they fit; else cores that do (R297: the choice is the module's). -/
def State.pickCores (s : State) (die group : Nat) (g : Grid) (needs : List (List Nat)) (cores : List Nat) : List Nat :=
  let cs := cores.map (fun i => 24 * die + 8 * group + i)
  if cores.length = g.nwgs ∧ cores.all (fun i => decide (i < 8)) ∧ cs.all (fun c => s.fitsCore c g (needsOn c (cs.zip needs))) then cs
  else s.fillCores die group g needs

/-- Needs of a cluster that has never run, and of a saved one. -/
def Grid.launchNeeds (g : Grid) : List (List Nat) := List.replicate g.nwgs g.launchRegs
def State.savedNeeds (s : State) (cluster : Nat) : List (List Nat) :=
  (s.wgs.filter (fun e => e.1 / 8 == cluster)).map (fun e => s.savedRegs e.1)

/-- Bytes of a cluster's save frame (R351). -/
def Grid.frameBytes (g : Grid) : Nat :=
  let wg := 512 + g.scrBytes + 16384 * g.accn + 32 * g.tilen + 64 * g.teamn + 18432 +
    (if g.mstream = 0 then 0 else 26624) + g.nwarps * (1024 + 128 * (8 * g.regq))
  (256 + g.nwgs * wg + 4095) / 4096 * 4096

/-- The lowest address at which a frame fits the context's save area (R351). -/
def State.findFrame (s : State) (g : Grid) : Option Nat :=
  let x := s.ctxAt g.ctx
  let base := x.saveb.toNat * 4096 + (32 * x.wquota.toNat + 4095) / 4096 * 4096
  let stop := x.saveb.toNat * 4096 + x.saven.toNat * 2 ^ 20
  let held := (s.grids.filter (fun e => e.2.ctx == g.ctx)).flatMap (fun e => e.2.frames)
  let n := g.frameBytes
  let ok := fun a => decide (base ≤ a ∧ a + n ≤ stop) && held.all (fun f => decide (a + n ≤ f.1 ∨ f.1 + f.2 ≤ a))
  match (base :: held.map (fun f => f.1 + f.2)).filter ok with
  | [] => none
  | a :: rest => some (rest.foldl Nat.min a)

/-- The private slot a grid holds or would take: none of them free is none (R335). DESIGN CHOICE, unsafe (log 81). -/
def State.findSlot (s : State) (g : Grid) : Option (Option Nat) :=
  let n := (s.ctxAt g.ctx).prvng.toNat
  if n = 0 then some none
  else match g.slot with
    | some k => some (some k)
    | none =>
      let used := s.grids.filterMap (fun e => if e.2.ctx = g.ctx then e.2.slot else none)
      ((List.range n).find? (fun k => !used.contains k)).map some

/-- The cluster fits the group now: cores, a frame and a private slot (R299, R335, R351). -/
def State.fits (s : State) (die group : Nat) (g : Grid) : Bool :=
  decide ((s.fillCores die group g g.launchNeeds).length = g.nwgs) && (s.findFrame g).isSome && (s.findSlot g).isSome

/-- No resident cluster of a spread grid is on the die (R20). -/
def State.spreadOk (s : State) (die gKey : Nat) (g : Grid) : Bool :=
  !g.spread || s.clusters.all (fun e => !(e.2.grid == gKey && e.2.st.onCore && e.2.die == die))

/-! Placement (R66, R121, R182, R187). -/

/-- Threads of a warp at launch: lanes past lastw are missing from the last warp (R15). -/
def launchThreads (g : Grid) (wid : Nat) : List Thread :=
  let size := 32 * (g.nwarps - 1) + g.lastw
  (List.range 32).map (fun l =>
    if wid + 1 = g.nwarps ∧ g.lastw ≤ l then Thread.missing else
      { Thread.missing with st := .ready, pc := g.entry, rank := 32 * wid + l, size := size })

/-- s1 to s8 hold the arguments (R66). -/
def launchScalars (g : Grid) : Tab W64 := (List.range 8).foldl (fun t n => Tab.set 0 t (n + 1) (g.arg n)) []

def launchWarp (g : Grid) (cluster wg wid : Nat) : Warp :=
  { cluster := cluster, wg := wg, wid := wid, quota := 8 * g.regq, threads := launchThreads g wid, v := [], vPoison := [],
    s := launchScalars g, p := [], flags := [], fpflags := 0, budget := 16 * g.ceiling, pair := none, coS := none,
    hazards := [], liveK := 8 * g.regq, regq := none, marked := false, elig := 0, frozen := none,
    dbg := .none, declined := [] }

def Seq.launch (g : Grid) : Seq :=
  { st := .wantTask, pc := g.mstream, cl := none, s := launchScalars g, loop := [], parity := 0, latch0 := none,
    latch1 := none, next1 := false, last1 := none, accqPos := 0 }

def launchWg (g : Grid) (cluster wgid core : Nat) : Wg :=
  { cluster := cluster, wgid := wgid, core := core, scratch := [], scrPoison := [], acc := [], accPoison := [], accMode := [],
    tiles := (List.range g.tilen).map (fun t => (t, { st := .empty, base := 0, count := 0, bits := 0 })),
    teams := [(0, Team.root (32 * (g.nwarps - 1) + g.lastw))], qa := [], qm := [],
    seq := if g.mstream = 0 then none else some (Seq.launch g) }

/-- The acquire that a warp makes before its first access: at .sys after a launch made eligible by waitctr, at .dev after a restore or an answered SYSCALL (R249, R353). DEDUCED, unsafe (log 27). -/
def State.acquireWarp (s : State) (c warp : Nat) (sc : Scope) : State :=
  let o : Op := {
    ctx := c, warp := warp, pc := 0, flag := none, kind := .acq false, sc := sc, space := .glob, lanes := BitVec.allOnes 32,
    left := BitVec.allOnes 32, accs := [], acks := [], counted := false }
  { s with nextId := s.nextId + 1, ops := Tab.put s.ops s.nextId o }

/-- A never-placed cluster is placed on a group. DEDUCED, unsafe (log 27). -/
def State.place (s : State) (gKey : Nat) (g : Grid) (clid die group : Nat) (cores : List Nat) : State :=
  match s.findFrame g, s.findSlot g with
  | some frame, some slot =>
    let cs := s.pickCores die group g g.launchNeeds cores
    let k := s.nextId
    let again := g.again.contains clid
    let g' := { g with
      next := if again then g.next else g.next + 1, again := g.again.filter (· != clid), since := s.clock.toNat, slot := slot,
      frames := g.frames ++ [(frame, g.frameBytes)] }
    let cl : Cluster := {
      grid := gKey, clid := clid, die := die, group := group, st := .resident, frame := frame,
      frameLen := g.frameBytes, marked := false, swapped := false, offeredAt := 0, published := false }
    let s := { s with nextId := k + 1, clusters := Tab.put s.clusters k cl, grids := Tab.put s.grids gKey g' }
    let s := (cs.zipIdx).foldl (fun s e =>
      let wk := 8 * k + e.2
      let s := { s with wgs := Tab.put s.wgs wk (launchWg g k e.2 e.1) }
      (List.range g.nwarps).foldl (fun s w =>
        let s := { s with warps := Tab.put s.warps (32 * wk + w) (launchWarp g k e.2 w) }
        if g.waitctr = 0 then s else s.acquireWarp g.ctx (32 * wk + w) .sys) s) s
    ((s.unhold gKey).unspill g.ctx g.prio).wakeGroups
  | _, _ => s

/-! Pulling (R297, R298). -/

/-- The partition that holds a die (R327). -/
def State.partOfDie (s : State) (die : Nat) : Option Nat :=
  (s.parts.find? (fun e => e.2.dies.getLsbD die)).map (·.1)

/-- A saved cluster may be restored: every remap entry of its frame is free (R353). -/
def State.remapFree (s : State) (c : Nat) (cl : Cluster) : Bool :=
  (s.ctxAt c).remaps.all (fun r => !decide (cl.frame ≤ r.img ∧ r.img < cl.frame + cl.frameLen))

/-- What a grid offers: a cluster saved and offered again, a lost one to run again, or the next never placed. -/
inductive Offer where
  | saved (cluster : Nat)
  | fresh (clid : Nat)
  deriving DecidableEq, Repr

/-- The clusters of a grid that are offered again, oldest offer first. -/
def State.offeredAgain (s : State) (gKey : Nat) : List (Nat × Cluster) :=
  s.clusters.filter (fun e => e.2.grid == gKey && e.2.st == .offered)

/-- The cluster a grid offers (R297, R299). -/
def State.offerOf (s : State) (gKey : Nat) (g : Grid) : Option Offer :=
  if g.st != .eligible then none else
    match (s.offeredAgain gKey).find? (fun e => s.remapFree g.ctx e.2) with
    | some e => some (.saved e.1)
    | none =>
      match g.again with
      | c :: _ => some (.fresh c)
      | [] => if g.next < g.nclus then some (.fresh g.next) else none

/-- A queue's offers: of its grids with a cluster offered again, then of the first four eligible grids on chip in admission order. -/
def State.queueOffers (s : State) (c prio : Nat) : List (Nat × Grid × Offer) :=
  let all := (s.grids.filter (fun e => e.2.ctx == c && e.2.prio == prio && !e.2.spilled)).filterMap (fun e =>
    (s.offerOf e.1 e.2).map (fun o => (e.1, e.2, o)))
  let heads := all.filter (fun e => match e.2.2 with | .saved _ => true | .fresh _ => !e.2.1.again.isEmpty)
  heads ++ (all.filter (fun e => !heads.contains e)).take 4

/-- The offers of a dispatch unit to a partition (R295, R297). -/
def State.unitOffers (s : State) (part unit : Nat) : List (Nat × Grid × Offer) :=
  ((List.range 64).filter (fun c => c % 4 == unit && (s.ctxAt c).part.toNat == part)).flatMap (fun c =>
    (List.range 4).flatMap (fun p => s.queueOffers c p))

/-- Starving (R296). -/
def State.starving (s : State) (gKey : Nat) (g : Grid) : Bool :=
  g.st == .eligible && !s.allPlaced gKey g && decide ((7 - g.prio) * s.ageOf g ≤ s.waited g)

/-- Insert by descending effective class, then ascending admission (the key). -/
def State.insertOffer (s : State) (x : Nat × Grid × Offer) : List (Nat × Grid × Offer) → List (Nat × Grid × Offer)
  | [] => [x]
  | y :: ys =>
    let cx := s.effClass x.1 x.2.1
    let cy := s.effClass y.1 y.2.1
    if cy < cx ∨ (cx = cy ∧ x.1 ≤ y.1) then x :: y :: ys else y :: s.insertOffer x ys

/-- The offered cluster can go to the group. -/
def State.canPlace (s : State) (die group : Nat) (x : Nat × Grid × Offer) : Bool :=
  (match x.2.2 with
    | .fresh _ => s.fits die group x.2.1
    | .saved c => let needs := s.savedNeeds c; decide ((s.fillCores die group x.2.1 needs).length = needs.length)) && s.spreadOk die x.1 x.2.1

/-- The decision of Pull(g) (R297): a placement, or a hold for a starving grid. -/
inductive Pulled where
  | place (x : Nat × Grid × Offer)
  | hold (grid : Nat)
  | nothing
  deriving DecidableEq, Repr

/-- Some resource of R299 on some core of the group is unreserved. -/
def State.someRoom (s : State) (die group : Nat) : Bool :=
  (groupCores die group).any (fun c =>
    (List.range 4).any (fun sl => decide ((s.slots c sl).length < 16) || decide (s.sliceRegs c sl < 1024)) ||
      decide (s.reserved c Grid.scrBytes < 524288) || decide (s.reserved c Grid.accn < 8) || decide (s.reserved c Grid.tilen < 64) ||
      decide (s.reserved c Grid.teamn < 256) || decide (s.reserved c (fun g => if g.mstream = 0 then 0 else 1) < 1))

/-- The oldest starving grid among some offers. -/
def State.oldestStarving (s : State) (xs : List (Nat × Grid × Offer)) : Option (Nat × Grid × Offer) :=
  (xs.filter (fun x => s.starving x.1 x.2.1)).foldl (fun b x => match b with
    | some y => if x.1 < y.1 then some x else b
    | none => some x) none

/-- Pull(g) of R297. A held group is served for the cluster it is held for only (R298). A starving grid without an offered cluster, and a held group whose grid offers none, wait. DEDUCED, safe (log 97). -/
def State.pull (s : State) (die group : Nat) : Pulled :=
  match s.partOfDie die with
  | none => .nothing
  | some part =>
    let own := die / 2
    let others := ((List.range 4).filter (· != own)).map (fun u => s.unitOffers part u)
    let mine := s.unitOffers part own
    let all := mine ++ others.flatten
    match Tab.look (s.dieAt die).holds group with
    | some k =>
      (match all.find? (fun x => x.1 == k) with
        | some x => if s.canPlace die group x then .place x else .nothing
        | none => .nothing)
    | none =>
      if !s.someRoom die group then .nothing else
        match s.oldestStarving all with
        | some x => if s.canPlace die group x then .place x else .hold x.1
        | none =>
          let sorted := (if !mine.isEmpty then [mine] else others).flatMap (fun l => l.foldr s.insertOffer [])
          match sorted.find? (s.canPlace die group) with
          | some x => .place x
          | none => .nothing

/-! Completion (R17, R69). -/

/-- Nothing of the grid is still on its way: clusters, and the copies they started. -/
def State.gridQuiet (s : State) (gKey : Nat) : Bool :=
  s.clusters.all (fun e => e.2.grid != gKey) && s.copies.all (fun e => e.2.grid != gKey)

/-- A release at system scope of a context on every die (R69). -/
def State.releaseAll (s : State) (c : Nat) : State :=
  s.dies.foldl (fun s e => ((List.range 3).foldl (fun s u => s.flushUnit (24 * e.1 + 8 * u) c) s).releaseDie e.1 c |>.1) s

/-- What the advance of donectr comes to: it is made; it waits, for a far page, a flip, a snoop that it has sent, or a port; or it cannot be made. -/
inductive Advance where
  | made (s : State)
  | waits (s : State)
  | fails (cause : Nat)
  deriving DecidableEq, Repr

/-- donectr advances by one, as a device-scope atomic does: at its home; through the DCA in host bias; held while its page flips; at the port for other memory (R69, R148, R270, R273, R338). -/
def State.advance (s : State) (c a : Nat) : Advance :=
  if a = 0 then .made s
  else if (s.unitFar c a 1).isSome then .waits s
  else match s.unitSite c .both a with
    | .error e => .fails e
    | .ok key =>
      let go := fun (s : State) => s.portWrite key (natToBytes 8 (bytesToNat (s.portRead key 8) + 1))
      let busy := s.ops.any (fun e => e.2.accs.any (fun b => !b.done && !b.res.isEmpty && decide (b.pa < key + 8 ∧ key < b.pa + b.size)))
      if busy then .waits s
      else if isHbm key && decide (2 ≤ s.biasState key) then .waits s
      else if isHbm key && s.biasState key == 1 then
        (if s.snooped (key / 64) then .waits s else match s.snoopFor (key / 64) true with
          | some x => .waits { s with snoops := s.snoops ++ [x] }
          | none => .made (go s))
      else .made (go s)

/-- GRID_COMPLETE: the last thread has exited. First the release of the grid's memory effects; when it has completed, the advance of donectr and the status word (R69, R294). -/
def execGridComplete (grid : Nat) (s : State) : Host.Outcome State Fault Refusal :=
  match Tab.look s.grids grid with
  | none => .next s
  | some g =>
    if g.st == .eligible && decide (g.exited = g.nclus) && s.gridQuiet grid then
      .next ((s.setGrid grid { g with st := .complete }).releaseAll g.ctx)
    else if g.st == .complete && s.pkts.all (fun e => e.2.ctx != g.ctx) then
      match s.advance g.ctx g.donectr with
      | .made s => .next ((s.dropGrid grid g).writeStatus g.ctx g.stat 1 0)
      | .waits s => .next s
      | .fails e => .next (((s.dropGrid grid g).halt g.ctx g.ring).writeStatus g.ctx g.stat 10 e)
    else .next s

/-! Pre-emption requests (R298, R304). -/

/-- A record of a breakpoint or of a step of a debug session (R347, R350). -/
def State.isDbg (s : State) (id : Nat) : Bool :=
  match Tab.look s.recs id with | some r => r.dbg | none => false

/-- A thread parked at a yield point (R165, R313, R350), or exited. -/
def State.atYield (s : State) (t : Thread) : Bool :=
  !t.live || (match t.st with
    | .parked (.bar _) => true
    | .parked (.pbar _) => true
    | .parked (.monitor _) => true
    | .parked (.cwaitTile _ _ _) => true
    | .parked (.twait _) => true
    | .parked (.publish _) => true
    | .parked .tbar => true
    | .parked .tcall => true
    | .parked .tret => true
    | .parked .rejoin => true
    | .parked (.tile _) => true
    | .parked .qa => true
    | .parked .qm => true
    | .parked .brk => true
    | .parked .stop => true
    | .parked (.far _) => true
    | .parked .yieldSave => true
    | .parked (.record id) => s.isDbg id
    | _ => false)

/-- A marked warp whose live threads are all parked at yield points is held for the save, as one that has executed a YIELD is: it issues nothing more (R304, R313). -/
def State.holdWarps (s : State) (p : Nat → Bool) : State :=
  { s with warps := s.warps.map (fun e =>
      if p e.1 && e.2.marked && !e.2.saved && (List.range 32).all (fun l => s.atYield (e.2.thread l)) then (e.1, { e.2 with saved := true }) else e) }

/-- Every resident warp of the clusters that a test picks is marked; one that is parked at a yield point is held at once. -/
def State.markClusters (s : State) (p : Nat → Cluster → Bool) : State :=
  let ks := (s.clusters.filter (fun e => e.2.st == .resident && p e.1 e.2)).map (·.1)
  let s : State := { s with
    clusters := s.clusters.map (fun e => if ks.contains e.1 then (e.1, { e.2 with marked := true }) else e)
    warps := s.warps.map (fun e => if ks.contains (e.1 / 256) then (e.1, { e.2 with marked := true }) else e) }
  s.holdWarps (fun k => ks.contains (k / 256))

/-- Every resident cluster of a context is to be pre-empted (R304). -/
def State.preempt (s : State) (c : Nat) : State :=
  s.markClusters (fun _ cl => match Tab.look s.grids cl.grid with | some g => g.ctx == c | none => false)

/-- PRE of a context (R295, R304). -/
def execPreRequest (ctx : BitVec 6) (s : State) : Host.Outcome State Fault Refusal :=
  if s.mgmt.recov then .next s else .next (s.preempt ctx.toNat)

/-- The held groups of a grid, as (die, group). -/
def State.heldFor (s : State) (gKey : Nat) : List (Nat × Nat) :=
  s.dies.flatMap (fun e => (e.2.holds.filter (fun h => h.2 == gKey)).map (fun h => (e.1, h.1)))

/-- A cluster of lower prio on a group. -/
def State.lowerOn (s : State) (prio die group : Nat) (c : Cluster) : Bool :=
  c.die == die && c.group == group && (match Tab.look s.grids c.grid with | some g => decide (g.prio < prio) | none => false)

/-- The freed resources of a group would fit the cluster. -/
def State.wouldFit (s : State) (gKey : Nat) (g : Grid) (d : Nat × Nat) : Bool :=
  let low := fun k => match Tab.look s.clusters k with | some c => c.st == .resident && s.lowerOn g.prio d.1 d.2 c | none => false
  let needs := match s.offerOf gKey g with | some (.saved c) => s.savedNeeds c | _ => g.launchNeeds
  decide (((s.removeClusters low).fillCores d.1 d.2 g needs).length = needs.length)

/-- STARVATION_PREEMPT: after a further 4 × AGE, pre-emption of the clusters of lower prio on one held group that would fit (R298). -/
def execStarvationPreempt (grid : Nat) (s : State) : Host.Outcome State Fault Refusal :=
  match Tab.look s.grids grid with
  | none => .next s
  | some g =>
    if !s.starving grid g || decide (s.waited g < (11 - g.prio) * s.ageOf g) || s.preempts.contains grid then .next s else
      match (s.heldFor grid).find? (s.wouldFit grid g) with
      | none => .next s
      | some d => .next { s.markClusters (fun _ c => s.lowerOn g.prio d.1 d.2 c) with preempts := insertNat grid s.preempts }

end Sys2Proof.Machine
end

