-- ==== Sys2Proof/Machine/System.lean ====
section
/-! DEFINITION. System instructions of class 9 (R205-R213): special registers, yields, calls to Scarab, breakpoints, hints and register quota. -/

namespace Sys2Proof.Machine

/-! Special registers (R67, R211, R212). -/

/-- The value of a special register, for a lane of the split. -/
def Run.special (r : Run) (sel l : Nat) : W64 :=
  let t := r.v.w.thread l
  let n := fun (x : Nat) => (BitVec.ofNat 64 x : W64)
  match sel with
  | 0x00 => n l
  | 0x01 => n r.v.w.wid
  | 0x02 => n r.v.g.nwarps
  | 0x03 => n r.v.wg.wgid
  | 0x04 => n r.v.g.nwgs
  | 0x05 => n r.v.cl.clid
  | 0x06 => n r.v.g.nclus
  | 0x07 => n t.rank
  | 0x08 => n t.size
  | 0x09 => n t.path.length
  | 0x0A => r.en.setWidth 64
  | 0x0B => r.v.w.liveMask.setWidth 64
  | 0x0C => r.s.clockAt r.v.wg.core
  | 0x0D => r.v.w.fpflags.setWidth 64
  | 0x0E => (r.s.ctxAt r.v.g.ctx).mapgen
  | 0x0F => n r.v.g.ctx
  | 0x10 => n r.v.w.budget
  | 0x11 => n r.v.w.quota
  | 0x12 => n r.v.g.scrBytes
  | _ => n r.v.g.barbase

/-- Selectors that R67 assigns. -/
def selAssigned (sel : Nat) : Bool := decide (sel < 0x14)

/-- mfsr: a special register into each enabled thread, or once into a scalar (R211). -/
def execMfsr (h : Head) (d : MDst) (sel : BitVec 8) (s : State) : Host.Outcome State Fault Refusal :=
  let bad := !selAssigned sel.toNat
  match d with
  | .s sd => runWarp (.mfsr h d sel) h { Pre.none with bad := bad } s (fun r =>
      r.put (r.out.writeS 1 sd.toNat r.sp (r.special sel.toNat (lowLane r.en))))
  | .v rd =>
    let wide := selWide sel
    runWarp (.mfsr h d sel) h { Pre.none with bad := bad, regs := groupOf rd.toNat (if wide then 2 else 1) } s (fun r =>
      let w := r.out.writeV 1 rd.toNat r.en (fun l => (r.special sel.toNat l).setWidth 32)
      r.put (if wide then w.writeV 1 (rd.toNat + 1) r.en (fun l => ((r.special sel.toNat l) >>> 32).setWidth 32) else w))

/-- mtsr: fpflags is the only selector that may be written (R67, R212). -/
def execMtsr (h : Head) (sel : BitVec 8) (a : Src) (s : State) : Host.Outcome State Fault Refusal :=
  let o := Opnd.r32 a
  runWarp (.mtsr h sel a) h { Pre.none with bad := sel != 0x0D#8, regs := o.regs } s (fun r =>
    let l := lowLane r.en
    let bad := r.poisoned o.reads &&& (1#32 <<< l)
    if bad ≠ 0 then r.trapPoisonReg bad else
      r.put { r.out with fpflags := (r.value 1 l o).setWidth 6 })

/-! Yield (R31, R207, R304). -/

/-- After a YIELD with live count k, register k and above holds its value or zero (R31). DESIGN CHOICE, safe (log 78). -/
def Warp.forget (w : Warp) (n k : Nat) : Warp :=
  { w with v := w.v.filter (fun e => decide (e.1 / 32 < k) || Config.freeNat (n + e.1) % 2 == 0), liveK := k }

/-- yield d, k. A warp marked for pre-emption is held here for its save, every thread at its own place (R207, R304). DESIGN CHOICE, safe (log 78). -/
def execYield (h : Head) (d k : BitVec 8) (s : State) : Host.Outcome State Fault Refusal :=
  let pre := match s.curView with
    | some v => if v.w.quota < k.toNat then { Pre.none with regs := [k.toNat] } else Pre.none
    | none => Pre.none
  runWarp (.yield h d k) h pre s (fun r =>
    let w := { r.out with budget := Nat.min d.toNat r.v.g.ceiling * 16 }
    let w := (w.forget (r.n + 2 ^ 59) k.toNat).modThreads r.sp Thread.pass
    let w := if w.marked then { w.park (w.those Thread.isReady) .yieldSave with saved := true } else w
    r.s.setWarp r.v.key w)

/-! Scarab (R208, R209, R347). -/

/-- syscall n: one request record; the enabled threads park and the others go on (R208, R349). -/
def execSyscall (h : Head) (n : BitVec 16) (s : State) : Host.Outcome State Fault Refusal :=
  runWarp (.syscall h n) h Pre.none s (fun r =>
    let id := r.s.nextId
    let s := r.s.addRec (r.v.record r.s r.pc r.en [(causeSyscall, r.en)] (n.setWidth 64) 3)
    let w := (r.out.modThreads (r.sp &&& ~~~r.en) Thread.pass).park r.en (.record id)
    s.setWarp r.v.key w)

/-- trap n: software-trap in the enabled threads (R209). -/
def execTrap (h : Head) (n : BitVec 16) (s : State) : Host.Outcome State Fault Refusal :=
  runWarp (.trap h n) h Pre.none s (fun r => r.trap1 causeSoftTrap r.en (n.setWidth 64))

/-- brk n: breakpoint; in a debug session every thread of the warp parks at its own place (R209, R347). -/
def execBrk (h : Head) (n : BitVec 16) (s : State) : Host.Outcome State Fault Refusal :=
  runWarp (.brk h n) h Pre.none s (fun r =>
    let ctl := (r.s.ctxAt r.v.g.ctx).dbgctl
    if ctl.getLsbD 0 then
      let id := r.s.nextId
      let s := r.s.addRec { r.v.record r.s r.pc r.sp [(causeBreak, r.en)] (n.setWidth 64) 0 with dbg := true }
      let s := s.modWarp r.v.key (fun w =>
        let w := w.park r.sp (.record id)
        { w.park (w.those Thread.isReady) .brk with dbg := .stopped })
      if ctl.getLsbD 1 then { s with grids := Tab.mod s.grids r.v.gKey (fun g => { g with stopped := true }) } else s
    else r.trap1 causeBreak r.en (n.setWidth 64))

/-- ipf is a hint with no architectural effect (R210, R303). -/
def execIpf (h : Head) (base : BitVec 6) (off : BitVec 16) (nm1 : BitVec 8) (s : State) : Host.Outcome State Fault Refusal :=
  runWarp (.ipf h base off nm1) h Pre.none s (fun r => r.put r.out)

/-! Register quota (R213). -/

/-- Registers of the pending transfers of a workgroup that pass a test. -/
def State.pendingRegs (s : State) (wgKey : Nat) (f : Regq → Bool) : Nat :=
  ((s.warpsOf wgKey).map (fun e => match e.2.regq with | some q => if f q then 8 * q.k else 0 | none => 0)).sum

/-- REGQ's transfer may be recorded (R213). -/
def Run.regqOk (r : Run) (q : Regq) : Bool :=
  let quota := fun i => ((Tab.look r.s.warps (32 * r.v.wgKey + i)).map (·.quota)).getD 0
  let out1 := r.s.pendingRegs r.v.wgKey (fun p => p.w1 == q.w1)
  let in2 := r.s.pendingRegs r.v.wgKey (fun p => p.w2 == q.w2)
  decide (q.w1 < r.v.g.nwarps) && decide (q.w2 < r.v.g.nwarps) && q.w1 != q.w2 && q.k != 0 && decide (q.k ≤ 30) &&
    decide (8 + 8 * q.k + out1 ≤ quota q.w1) && decide (quota q.w2 + in2 + 8 * q.k ≤ 248) &&
    (q.w1 % 4 == q.w2 % 4 || decide (r.s.sliceRegs r.v.wg.core (q.w2 % 4) + 8 * q.k ≤ 1024)) && r.v.w.regq.isNone

/-- regq w1, w2, k: the transfer is recorded as pending (R213). -/
def execRegq (h : Head) (w1 w2 : BitVec 5) (k : BitVec 36) (s : State) : Host.Outcome State Fault Refusal :=
  runWarp (.regq h w1 w2 k) h Pre.none s (fun r =>
    let q : Regq := { w1 := w1.toNat, w2 := w2.toNat, k := k.toNat }
    if r.regqOk q then r.put { r.out with regq := some q } else r.trap1 causeQuotaTransfer r.en 0)

/-- qstat: the number of entries of a queue, places reserved and not yet filled among them (R204, R205). -/
def execQstat (h : Head) (sd : BitVec 6) (qm : Bool) (s : State) : Host.Outcome State Fault Refusal :=
  scalarOp (.qstat h sd qm) h sd (fun r => BitVec.ofNat 64 (if qm then r.v.wg.qm.length else r.v.wg.qa.length)) s

end Sys2Proof.Machine
end

