-- ==== Sys2Proof/Machine/Matrix.lean ====
section
/-! DEFINITION. The matrix sequencer and the instructions of class 8 (R182-R197, R231-R236). -/

namespace Sys2Proof.Machine

/-- A stream word that issues: its workgroup, sequencer and grid. -/
structure SeqRun where
  key : Nat
  wg : Wg
  q : Seq
  g : Grid
  gKey : Nat
  s : State
  deriving DecidableEq, Repr

/-- How a stream word ends: done in a state, done with the stream going elsewhere, a cause, a wait, or the end of the grid. -/
inductive SeqOut where
  | done (s : State)
  | goto (s : State) (pc : Nat)
  | bad (cause : Nat) (detail : W64)
  | wait
  | stay (s : State)
  | endGrid (cause : Nat)
  deriving DecidableEq, Repr

def State.modSeq (s : State) (key : Nat) (f : Seq → Seq) : State :=
  s.modWg key (fun wg => { wg with seq := wg.seq.map f })

/-- The sequencer moves past the word at its pc (R76). -/
def Seq.pass (q : Seq) : Seq :=
  match q.cl with
  | some c => { q with pc := q.pc + 8, cl := if q.pc + 8 ≤ c.hdr + 8 * c.cnt then some c else none }
  | none => { q with pc := q.pc + 8 }

/-- A fault in the stream stops the sequencer at the word; its record has zero masks and WARP zero (R97, R184, R343). -/
def State.raiseSeq (s : State) (key : Nat) (wg : Wg) (q : Seq) (g : Grid) (fetch : Bool) (cause : Nat) (detail : W64) : State :=
  let clid := ((Tab.look s.clusters (key / 8)).map (·.clid)).getD 0
  let id := s.nextId
  let s := s.addRec {
    core := wg.core, warp := none, wgKey := key, pc := q.pc, exec := 0, live := 0, causes := [(cause, 0)], ctx := g.ctx,
    origin := 1, splitB := false, fetch := fetch, wid := 0, wgid := wg.wgid, clid := clid, detail := detail,
    clock := s.clockAt wg.core, dbg := false, queued := false }
  s.modSeq key (fun q => { q with st := .parked id })

/-- The workgroup whose sequencer issues. -/
def State.curSeq (s : State) : Option SeqRun :=
  match s.cur with
  | some (.seq k) =>
    (match Tab.look s.wgs k, Tab.look s.clusters (k / 8) with
      | some wg, some cl =>
        (match wg.seq, Tab.look s.grids cl.grid with
          | some q, some g => some { key := k, wg := wg, q := q, g := g, gKey := cl.grid, s := s }
          | _, _ => none)
      | _, _ => none)
  | _ => none

/-- One stream word: the reservation (R92), then the conditions of its execution. DESIGN CHOICE, safe (log 82). -/
def runSeq (res : List (Nat × ResKind)) (s : State) (f : SeqRun → SeqOut) : Host.Outcome State Fault Refusal :=
  match s.curSeq with
  | none => .fault .noSequencer
  | some r =>
    let limit := fun (k : ResKind) => match k with | .tile => r.g.tilen | .acc => r.g.accn | .bar => r.g.barn
    match res.find? (fun e => decide (limit e.2 ≤ e.1)) with
    | some e => .next (s.raiseSeq r.key r.wg r.q r.g false causeReservation (BitVec.ofNat 64 e.1))
    | none =>
      match f r with
      | .done s => .next (s.modSeq r.key Seq.pass)
      | .goto s a => .next (s.modSeq r.key (fun q => { q with pc := a, cl := none }))
      | .bad c d => .next (s.raiseSeq r.key r.wg r.q r.g false c d)
      | .wait => .next s
      | .stay s => .next s
      | .endGrid c => .next (s.endGrid r.gKey 10 c)

/-- The cause with the lowest code among those that hold (R135). -/
def lowestCause (cs : List (Bool × Nat × W64)) : Option (Nat × W64) :=
  ((cs.filter (·.1)).map (·.2)).foldl (fun b c => match b with
    | some x => if c.1 < x.1 then some c else b
    | none => some c) none

/-- FP flags of a stream word go to every live warp of the workgroup (R187). -/
def State.orFlagsAll (s : State) (key : Nat) (fl : Fl) : State :=
  if fl = 0 then s else
    { s with warps := s.warps.map (fun e => if e.1 / 32 = key ∧ e.2.liveMask ≠ 0 then (e.1, { e.2 with fpflags := e.2.fpflags ||| fl }) else e) }

/-! Tiles and images. -/

/-- A word that names a tile waits while it is FILLING and faults unless it is READY (R174). -/
def SeqRun.named (r : SeqRun) (ta : BitVec 6) (f : Tile → SeqOut) : SeqOut :=
  let bad := SeqOut.bad causeTileNotReady (ta.setWidth 64)
  match Tab.look r.wg.tiles ta.toNat with
  | none => bad
  | some t =>
    if t.count = 0 then bad else
      match t.st with
      | .ready => f t
      | .filling => .wait
      | _ => bad

def SeqRun.slot (r : SeqRun) (fs : BitVec 3) : Slot := slotOf (r.g.slotWord fs.toNat)

/-- Formats that no plane operand has (R188, R189): s64, u64, f64, wfx96. -/
def Slot.noPlanes (f : Slot) : Bool := f.fmt == 3 || f.fmt == 7 || f.fmt == 8 || f.fmt == 18

/-- Element k of row r of a p-plane image (R185). -/
def planeInt (scr : Tab Byte) (base p r k : Nat) : Int :=
  let x := (List.range p).foldl (fun a j =>
    if (Tab.get 0 scr (base + 4096 * j + 16 * r + k / 8)).getLsbD (k % 8) then a + 2 ^ j else a) 0
  intValue p true x

/-- Where the scale byte of block b of row r stands (R186). -/
def scaleAt (f : Slot) (base r b : Nat) : Nat := f.scaleAddr (base + 16 * r + 4 * b)

/-- Scale addresses of an image's rows. -/
def scaleAddrs (f : Slot) (base rows : Nat) : List Nat :=
  (List.range rows).flatMap (fun r => (List.range 4).map (scaleAt f base r))

/-- A poisoned scratch word among addresses read. -/
def Wg.poisonedAt (wg : Wg) (as : List Nat) : Option Nat := as.find? (fun a => wg.scrPoison.contains (a / 8))

/-- Addresses of an image's plane words: the first byte of each row of each plane, and its second half. -/
def planeAddrs (base p rows : Nat) : List Nat :=
  (List.range p).flatMap (fun j => (List.range rows).flatMap (fun r => [base + 4096 * j + 16 * r, base + 4096 * j + 16 * r + 8]))

/-- The conditions on the scale bytes and on poison that reading an image has (R186, R357). -/
def SeqRun.imageFaults (r : SeqRun) (f : Slot) (base p rows : Nat) : List (Bool × Nat × W64) :=
  let sc := scaleAddrs f base rows
  let out := sc.find? (fun a => decide (r.g.scrBytes ≤ a))
  let poison := r.wg.poisonedAt (planeAddrs base p rows ++ sc)
  [(out.isSome, causeScratch, BitVec.ofNat 64 (out.getD 0)),
   (poison.isSome, causePoison, BitVec.ofNat 64 (poison.getD 0 / 8 * 8))]

/-! Accumulators (R187). -/

def Wg.mode (wg : Wg) (n : Nat) : AccMode := (Tab.look wg.accMode n).getD .fp32

def accKey (n i j : Nat) : Nat := 4096 * n + 64 * i + j

def Wg.accAt (wg : Wg) (n i j : Nat) : W32 := Tab.get 0 wg.acc (accKey n i j)

/-- The value of a triple's element. -/
def Wg.tripleAt (wg : Wg) (n i j : Nat) : Int :=
  wfxOfBits ((wg.accAt n i j).toNat + (wg.accAt (n + 1) i j).toNat * 2 ^ 32 + (wg.accAt (n + 2) i j).toNat * 2 ^ 64)

/-- Every element of a tile is written. -/
def Wg.setTile (wg : Wg) (n : Nat) (xs : List W32) : Wg :=
  let new := (xs.zipIdx).filterMap (fun e => if e.1 = 0 then none else some (4096 * n + e.2, e.1))
  { wg with
    acc := wg.acc.filter (fun e => decide (e.1 < 4096 * n)) ++ new ++ wg.acc.filter (fun e => decide (4096 * (n + 1) ≤ e.1))
    accPoison := wg.accPoison.filter (fun k => k / 4096 != n) }

/-- Every element of a triple is written. -/
def Wg.setTriple (wg : Wg) (n : Nat) (vs : List Int) : Wg :=
  let part := fun k => vs.map (fun v => BitVec.ofNat 32 (wfxBits v / 2 ^ (32 * k)))
  ((wg.setTile n (part 0)).setTile (n + 1) (part 1)).setTile (n + 2) (part 2)

def Wg.poisonedTile (wg : Wg) (ns : List Nat) : Bool := wg.accPoison.any (fun k => ns.contains (k / 4096))

def AccMode.isFp32 : AccMode → Bool
  | .fp32 => true
  | .wfx _ _ => false

/-- The tile starts a triple. -/
def AccMode.starts (m : AccMode) (n : Nat) : Bool :=
  match m with
  | .wfx first _ => first == n
  | .fp32 => false

def AccMode.lam : AccMode → Nat
  | .wfx _ lam => lam
  | .fp32 => 0

/-- The elements (i, j) of a tile in order. -/
def elems : List (Nat × Nat) := (List.range 4096).map (fun k => (k / 64, k % 64))

/-! Plane-engine instructions. -/

/-- mldb: the latch that is next receives the B image (R188, R233). -/
def execMldb (ta : BitVec 6) (fs : BitVec 3) (s : State) : Host.Outcome State Fault Refusal :=
  runSeq [(ta.toNat, .tile)] s (fun r => r.named ta (fun t =>
    let f := r.slot fs
    let p := f.planes
    let slotBad := f.noPlanes || decide (12 < p)
    match lowestCause ([(decide (512 * t.count < 4096 * (p - 1) + 1024), causeTileRange, ta.setWidth 64),
        (slotBad, causeSlot, fs.setWidth 64)] ++ (if slotBad then [] else r.imageFaults f t.base p 64)) with
    | some c => .bad c.1 c.2
    | none =>
      let l : Latch := {
        q := p
        ints := (List.range 8192).map (fun k => (k, planeInt r.wg.scratch t.base p (k / 128) (k % 128)))
        scale := (List.range 256).map (fun k => (k, Tab.get 0 r.wg.scratch (scaleAt f t.base (k / 4) (k % 4)))) }
      .done (r.s.modSeq r.key (fun q =>
        if q.next1 then { q with latch1 := some l, next1 := false, last1 := some true }
        else { q with latch0 := some l, next1 := true, last1 := some false }))))

/-- The latch that the most recent MLDB filled (R233). -/
def Seq.latch (q : Seq) : Option Latch :=
  match q.last1 with
  | some true => q.latch1
  | some false => q.latch0
  | none => none

/-- S of R189: the exact sum of one block's products. -/
def blockSum (scr : Tab Byte) (base p m : Nat) (l : Latch) (j b : Nat) : Int :=
  (List.range 32).foldl (fun a k => a + planeInt scr base p m (32 * b + k) * Tab.get 0 l.ints (128 * j + 32 * b + k)) 0

/-- The binary exponent of W(sa) × W(sb). -/
def weights (sa sb : Nat) : Int := scaleWeight (scaleType sa) (scaleExp sa) + scaleWeight (scaleType sb) (scaleExp sb)

/-- One block of MMA.P in FP32 mode (R189). -/
def mmaFp (sat : Bool) (sa sb : Nat) (sum : Int) (x : Nat) : Nat × Fl :=
  if scaleExp sa = 63 ∨ scaleExp sb = 63 then (fp32.nan, flNV) else
    let v := fp32.deliver .rn false (ofScaled false sum (weights sa sb))
    let y := fp32.add .rn sat x v.1
    (y.1, v.2 ||| y.2)

/-- One block of MMA.P in WFX96 mode (R189). -/
def mmaWfx (lam sa sb : Nat) (sum v : Int) : Int × Fl :=
  if scaleExp sa = 63 ∨ scaleExp sb = 63 ∨ v = wfxInvalid then (wfxInvalid, flNV) else
    let d := roundNE (decide (sum < 0)) sum.natAbs (weights sa sb + lam)
    let y := wfxClamp (v + d.1)
    (y.1, y.2 ||| (if d.2 then flNX else 0))

/-- The scale bytes and sum of block b of element (m, j). -/
def SeqRun.block (r : SeqRun) (f : Slot) (t : Tile) (l : Latch) (m j b : Nat) : Nat × Nat × Int :=
  ((Tab.get 0 r.wg.scratch (scaleAt f t.base m b)).toNat, (Tab.get 0 l.scale (4 * j + b)).toNat,
    blockSum r.wg.scratch t.base f.planes m l j b)

/-- One subtile in FP32 mode: its elements and flags. -/
def SeqRun.mmaTile (r : SeqRun) (f : Slot) (t : Tile) (l : Latch) (n k : Nat) : List (Nat × Fl) :=
  elems.map (fun e => (List.range 4).foldl (fun (x : Nat × Fl) b =>
    let c := r.block f t l (64 * k + e.1) e.2 b
    let y := mmaFp f.sat c.1 c.2.1 c.2.2 x.1
    (y.1, x.2 ||| y.2)) ((r.wg.accAt (n + k) e.1 e.2).toNat, 0))

/-- One subtile in WFX96 mode. -/
def SeqRun.mmaTriple (r : SeqRun) (f : Slot) (t : Tile) (l : Latch) (n k : Nat) : List (Int × Fl) :=
  elems.map (fun e => (List.range 4).foldl (fun (x : Int × Fl) b =>
    let c := r.block f t l (64 * k + e.1) e.2 b
    let y := mmaWfx (r.wg.mode (n + 3 * k)).lam c.1 c.2.1 c.2.2 x.1
    (y.1, x.2 ||| y.2)) (r.wg.tripleAt (n + 3 * k) e.1 e.2, 0))

def flagsOf {α : Type} (xs : List (α × Fl)) : Fl := xs.foldl (fun a e => a ||| e.2) 0

/-- mma.p: each subtile accumulates its blocks in ascending K (R189, R235). -/
def execMmaP (acc : BitVec 3) (ta : BitVec 6) (fs : BitVec 3) (rows : BitVec 2) (s : State) : Host.Outcome State Fault Refusal :=
  let n := acc.toNat
  let nt := rows.toNat + 1
  runSeq ((ta.toNat, .tile) :: (List.range nt).map (fun k => (n + k, .acc))) s (fun r => r.named ta (fun t =>
    let f := r.slot fs
    let wfx := !(r.wg.mode n).isFp32
    let used := if wfx then (List.range (3 * nt)).map (n + ·) else (List.range nt).map (n + ·)
    let high := used.find? (fun a => decide (r.g.accn ≤ a))
    let modeOk := if wfx then (nt == 1 || (nt == 2 && n == 0)) && (List.range nt).all (fun k => (r.wg.mode (n + 3 * k)).starts (n + 3 * k))
      else (List.range nt).all (fun k => (r.wg.mode (n + k)).isFp32)
    match lowestCause ([(high.isSome, causeReservation, BitVec.ofNat 64 (high.getD 0)),
        (decide (512 * t.count < 4096 * (f.planes - 1) + 1024 * nt), causeTileRange, ta.setWidth 64),
        (f.noPlanes, causeSlot, fs.setWidth 64),
        (!modeOk || r.q.latch.isNone, causeAccMode, BitVec.ofNat 64 n)] ++ (if f.noPlanes then [] else r.imageFaults f t.base f.planes (64 * nt))),
      r.q.latch with
    | some c, _ => .bad c.1 c.2
    | none, none => .wait
    | none, some l =>
      if r.wg.poisonedTile used then .endGrid causePoison
      else if wfx then
        let out := (List.range nt).map (fun k => (k, r.mmaTriple f t l n k))
        let wg := out.foldl (fun (wg : Wg) e => wg.setTriple (n + 3 * e.1) (e.2.map (·.1))) r.wg
        .done ((r.s.setWg r.key wg).orFlagsAll r.key (out.foldl (fun a e => a ||| flagsOf e.2) 0))
      else
        let out := (List.range nt).map (fun k => (k, r.mmaTile f t l n k))
        let wg := out.foldl (fun (wg : Wg) e => wg.setTile (n + e.1) (e.2.map (fun x => BitVec.ofNat 32 x.1))) r.wg
        .done ((r.s.setWg r.key wg).orFlagsAll r.key (out.foldl (fun a e => a ||| flagsOf e.2) 0))))

/-- mclr: tiles become zero; a triple keeps its mode and LSB exponent and must be covered whole (R191). -/
def execMclr (acc km1 : BitVec 3) (s : State) : Host.Outcome State Fault Refusal :=
  let n := acc.toNat
  let k := km1.toNat + 1
  runSeq ((List.range k).map (fun i => (n + i, .acc))) s (fun r =>
    let part := (List.range k).find? (fun i => match r.wg.mode (n + i) with
      | .wfx first _ => decide (first < n ∨ n + k < first + 3)
      | .fp32 => false)
    match part with
    | some i => .bad causeAccMode (BitVec.ofNat 64 (n + i))
    | none => .done (r.s.setWg r.key ((List.range k).foldl (fun (wg : Wg) i => wg.setTile (n + i) []) r.wg)))

/-- The scratch words that a range of bytes touches hold poison. -/
def Wg.poisonedRange (wg : Wg) (a n : Nat) : Option Nat :=
  (wg.scrPoison.find? (fun w => decide (8 * w < a + n ∧ a < 8 * w + 8))).map (8 * ·)

/-- mscl: row i is multiplied by the FP32 value at SS + 4i (R192). -/
def execMscl (acc : BitVec 3) (ss : BitVec 6) (s : State) : Host.Outcome State Fault Refusal :=
  let n := acc.toNat
  runSeq [(n, .acc)] s (fun r =>
    let a := (sregOf r.q.s ss.toNat).toNat
    let poison := r.wg.poisonedRange a 256
    match lowestCause [(a % 4 != 0, causeMisaligned, BitVec.ofNat 64 a), (decide (r.g.scrBytes < a + 256), causeScratch, BitVec.ofNat 64 a),
        (!(r.wg.mode n).isFp32, causeAccMode, BitVec.ofNat 64 n), (poison.isSome, causePoison, BitVec.ofNat 64 (poison.getD 0))] with
    | some c => .bad c.1 c.2
    | none =>
      if r.wg.poisonedTile [n] then .endGrid causePoison else
        let out := elems.map (fun e => fp32.mul .rn false (r.wg.accAt n e.1 e.2).toNat (bytesToNat (readBytes r.wg.scratch (a + 4 * e.1) 4)))
        .done ((r.s.setWg r.key (r.wg.setTile n (out.map (fun x => BitVec.ofNat 32 x.1)))).orFlagsAll r.key (flagsOf out)))

/-- z of R193's table: bytes of an element in scratch. -/
def Slot.accBytes (f : Slot) : Option Nat :=
  if f.isWfx then some 12 else
    match f.type with
    | some .s64 => none
    | some .u64 => none
    | some .f64 => none
    | some t => some (typeBytes t)
    | none => none

/-- The scratch address of ACCST and ACCLD: SS + IMM14. -/
def SeqRun.accAddr (r : SeqRun) (ss : BitVec 6) (imm : BitVec 14) : Nat := (sregOf r.q.s ss.toNat + imm.signExtend 64).toNat

/-- A triple's element as an integer of a type: rounded, clamped with NV; the invalid mark gives 0 with NV (R193). -/
def wfxToInt (mode : Rnd) (lo hi : Int) (lam : Nat) (v : Int) : Int × Fl :=
  if v = wfxInvalid then (0, flNV) else
    let r := roundMag mode (decide (v < 0)) v.natAbs (lam : Int) false
    let x := signedInt (decide (v < 0)) r.1
    let nx : Fl := if r.2 then flNX else 0
    if x < lo then (lo, flNV ||| nx) else if hi < x then (hi, flNV ||| nx) else (x, nx)

/-- A triple's element in a slot's format. -/
def Slot.ofTriple (f : Slot) (lam : Nat) (v : Int) : Nat × Fl :=
  if f.isWfx then (wfxBits v, 0) else
    match f.type with
    | none => (0, 0)
    | some t =>
      match fpType t, intType t with
      | some g, _ => fromWfx g f.rnd f.sat lam v
      | none, some (bits, sgn) => let r := wfxToInt f.rnd (intLo bits sgn) (intHi bits sgn) lam v; (intBits bits r.1, r.2)
      | none, none => (0, 0)

/-- An FP32 element in a slot's format: as held for f32, else as CVT gives (R193). -/
def Slot.ofFp (f : Slot) (x : Nat) : Nat × Fl :=
  match f.type with
  | some .f32 => (x, 0)
  | some t => convert f.rnd f.sat t .f32 x
  | none => (0, 0)

/-- accst: a tile or a triple to scratch (R193). -/
def execAccst (acc : BitVec 3) (ss : BitVec 6) (imm : BitVec 14) (fs : BitVec 3) (s : State) : Host.Outcome State Fault Refusal :=
  let n := acc.toNat
  runSeq [(n, .acc)] s (fun r =>
    let f := r.slot fs
    let a := r.accAddr ss imm
    let z := f.accBytes.getD 1
    let m := r.wg.mode n
    let modeBad := if m.isFp32 then f.isWfx else !m.starts n
    match lowestCause [(f.accBytes.isSome && a % Nat.min z 4 != 0, causeMisaligned, BitVec.ofNat 64 a),
        (f.accBytes.isSome && decide (r.g.scrBytes < a + 4096 * z), causeScratch, BitVec.ofNat 64 a),
        (f.accBytes.isNone, causeSlot, fs.setWidth 64), (modeBad, causeAccMode, BitVec.ofNat 64 n)] with
    | some c => .bad c.1 c.2
    | none =>
      if r.wg.poisonedTile (if m.isFp32 then [n] else [n, n + 1, n + 2]) then .endGrid causePoison else
        let out := elems.map (fun e => if m.isFp32 then f.ofFp (r.wg.accAt n e.1 e.2).toNat else f.ofTriple m.lam (r.wg.tripleAt n e.1 e.2))
        .done (((r.s.writeScratch r.key a (out.flatMap (fun x => natToBytes z x.1))).orFlagsAll r.key (flagsOf out)).pbarsCheck r.key))

/-- Loaded tiles, and those that a triple of them no longer holds together, are in FP32 mode, their bits as they stand (R193). DEDUCED, unsafe (log 77). -/
def Wg.breakTriples (wg : Wg) (ns : List Nat) : Wg :=
  { wg with accMode := wg.accMode.filter (fun e => !(ns.contains e.1 || ns.any (fun n => match wg.mode n with
      | .wfx first _ => decide (first ≤ e.1 ∧ e.1 ≤ first + 2)
      | .fp32 => false))) }

/-- accld: a tile or a triple from scratch; it sets the mode (R193). DEDUCED, unsafe (log 77). -/
def execAccld (acc : BitVec 3) (ss : BitVec 6) (imm : BitVec 14) (fs : BitVec 3) (s : State) : Host.Outcome State Fault Refusal :=
  let n := acc.toNat
  runSeq [(n, .acc)] s (fun r =>
    let f := r.slot fs
    let a := r.accAddr ss imm
    let z := f.accBytes.getD 1
    let poison := r.wg.poisonedRange a (4096 * z)
    match lowestCause [(f.isWfx && decide (r.g.accn ≤ n + 2), causeReservation, BitVec.ofNat 64 (n + 2)),
        (f.accBytes.isSome && a % Nat.min z 4 != 0, causeMisaligned, BitVec.ofNat 64 a),
        (f.accBytes.isSome && decide (r.g.scrBytes < a + 4096 * z), causeScratch, BitVec.ofNat 64 a),
        (f.accBytes.isNone, causeSlot, fs.setWidth 64), (f.accBytes.isSome && poison.isSome, causePoison, BitVec.ofNat 64 (poison.getD 0))] with
    | some c => .bad c.1 c.2
    | none =>
      let raw := elems.map (fun e => bytesToNat (readBytes r.wg.scratch (a + (64 * e.1 + e.2) * z) z))
      if f.isWfx then
        let wg := (r.wg.breakTriples [n, n + 1, n + 2]).setTriple n (raw.map wfxOfBits)
        let m := AccMode.wfx n f.shift
        .done (r.s.setWg r.key { wg with accMode := Tab.put (Tab.put (Tab.put wg.accMode n m) (n + 1) m) (n + 2) m })
      else
        let out := raw.map (fun x => match f.type with
          | some .f32 => (x, 0)
          | some t => convert .rn false .f32 t x
          | none => (0, 0))
        let wg := (r.wg.breakTriples [n]).setTile n (out.map (fun x => BitVec.ofNat 32 x.1))
        .done ((r.s.setWg r.key wg).orFlagsAll r.key (flagsOf out)))

/-! Queues, barriers and loops. -/

/-- Threads that wait for a queue look at it again, at their own word (R204). -/
def State.wakeAll (s : State) (key : Nat) (x : Wait) : State :=
  (s.warpsOf key).foldl (fun s e =>
    let m := e.2.those (fun t => t.st == .parked x)
    if m = 0 then s else s.modWarp e.1 (fun w => w.modThreads m Thread.wake)) s

/-- Entry number e of an ACCQ: row e / 2, columns 32 (e mod 2) and above (R194). -/
def SeqRun.accqEntry (r : SeqRun) (n e : Nat) : List (Nat × Fl) :=
  let m := r.wg.mode n
  (List.range 32).map (fun l =>
    let j := 32 * (e % 2) + l
    if m.isFp32 then ((r.wg.accAt n (e / 2) j).toNat, 0) else fromWfx fp32 .rn false m.lam (r.wg.tripleAt n (e / 2) j))

/-- accq: pushes one entry, or waits while qa is full; with its last entry the word is done (R194). DEDUCED, safe (log 51). -/
def execAccq (acc : BitVec 3) (rm1 : BitVec 6) (s : State) : Host.Outcome State Fault Refusal :=
  let n := acc.toNat
  let count := 2 * (rm1.toNat + 1)
  runSeq [(n, .acc)] s (fun r =>
    let m := r.wg.mode n
    if !m.isFp32 && !m.starts n then .bad causeAccMode (BitVec.ofNat 64 n)
    else if r.wg.poisonedTile (if m.isFp32 then [n] else [n, n + 1, n + 2]) then .endGrid causePoison
    else if 128 ≤ r.wg.qa.length then .wait
    else
      let e := r.q.accqPos
      let entry := r.accqEntry n e
      let words := (entry.zipIdx).foldl (fun t x => Tab.set 0 t x.2 (BitVec.ofNat 32 x.1.1)) []
      let s := (r.s.modWg r.key (fun wg => { wg with qa := wg.qa ++ [{ owner := none, words := words }] })).wakeAll r.key .qa
      if e + 1 < count then .stay (s.modSeq r.key (fun q => { q with accqPos := e + 1 }))
      else
        let fl := (List.range count).foldl (fun a e => a ||| flagsOf (r.accqEntry n e)) 0
        .done ((s.modSeq r.key (fun q => { q with accqPos := 0 })).orFlagsAll r.key fl))

/-- mbar.arrive n: PbarArrive(n, 1) (R161, R195). -/
def execMbarArrive (n : BitVec 5) (s : State) : Host.Outcome State Fault Refusal :=
  runSeq [(n.toNat, .bar)] s (fun r =>
    match pbarStep (pbarObj r.wg r.g n.toNat) 1 with
    | .error c => .bad c (BitVec.ofNat 64 (pbarObj r.wg r.g n.toNat))
    | .ok o => .done (r.s.pbarApply r.key n.toNat o r.g))

/-- mbar.wait n: PbarWait for the sequencer's own parity bit (R161, R195). -/
def execMbarWait (n : BitVec 5) (s : State) : Host.Outcome State Fault Refusal :=
  runSeq [(n.toNat, .bar)] s (fun r =>
    let par := r.q.parity.getLsbD n.toNat
    if objPh (pbarObj r.wg r.g n.toNat) = par then .wait
    else .done (r.s.modSeq r.key (fun q => { q with parity := setBit q.parity n.toNat (!par) })))

/-- mloop k, label (R196). DETAIL of stream-loop-depth is none of the numbers R344 names: a free value. -/
def execMloop (km1 : BitVec 8) (imm : BitVec 14) (s : State) : Host.Outcome State Fault Refusal :=
  runSeq [] s (fun r =>
    let a := r.q.pc
    let target := (BitVec.ofNat 64 a + imm.signExtend 64 * 8).toNat
    let setLoop := fun (l : List (Nat × Nat)) => r.s.modSeq r.key (fun q => { q with loop := l })
    match r.q.loop with
    | (b, left) :: rest =>
      if b = a then
        if left = 1 then .done (setLoop rest) else .goto (setLoop ((a, left - 1) :: rest)) target
      else if km1 = 0 then .done r.s
      else if r.q.loop.length = 4 then .bad causeLoopDepth (BitVec.ofNat 64 (Config.freeNat s.draws))
      else .goto (setLoop ((a, km1.toNat) :: r.q.loop)) target
    | [] => if km1 = 0 then .done r.s else .goto (setLoop [(a, km1.toNat)]) target)

/-- mend: the task ends, the loop stack is emptied, and the next task is wanted (R197). -/
def execMend (s : State) : Host.Outcome State Fault Refusal :=
  runSeq [] s (fun r => .done (r.s.modSeq r.key (fun q => { q with st := .wantTask, loop := [] })))

/-- SEQUENCER_TASK_LOAD: the next qm entry, once filled, is loaded into s32 to s47 and the stream starts, or stops for good (R182, R204). -/
def execSequencerTaskLoad (wg : Nat) (s : State) : Host.Outcome State Fault Refusal :=
  match Tab.look s.wgs wg, s.gridOf wg with
  | some w, some g =>
    (match w.seq, w.qm with
      | some q, e :: rest =>
        if q.st != .wantTask || e.owner.isSome then .next s else
          let word := fun i => (Tab.get 0 e.words (2 * i + 1) : W32) ++ (Tab.get 0 e.words (2 * i) : W32)
          let sc := (List.range 16).foldl (fun t i => Tab.set 0 t (32 + i) (word i)) q.s
          let stop := word 0 == BitVec.allOnes 64
          let q := { q with s := sc, st := if stop then .stopped else .running, pc := g.mstream, cl := none, accqPos := 0 }
          .next ((s.setWg wg { w with qm := rest, seq := some q }).wakeAll wg .qm)
      | _, _ => .next s)
  | _, _ => .next s

/-! Issuing stream words (R183). -/

/-- A line that a sequencer's fetch misses is filled at once; the miss counts (R303, R370). -/
def State.streamLine (s : State) (core c va : Nat) : State :=
  match s.fetchCode core c va with
  | .miss va => (s.slip c).fillLine core c va
  | _ => s

/-- The lines that a sequencer's next word needs: its header's, where it stands at one, and its own. DESIGN CHOICE, unsafe (log 17). -/
def State.seqFill (s : State) (r : SeqRun) : State :=
  let core := r.wg.core
  let c := r.g.ctx
  match r.q.cl with
  | some _ => s.streamLine core c r.q.pc
  | none =>
    if r.q.pc % 8 ≠ 0 then s else
      let s := s.streamLine core c r.q.pc
      match s.fetchCode core c r.q.pc with
      | .word w => if isHeader w && headerOk w then s.streamLine core c (r.q.pc + 8) else s
      | _ => s

/-- The next word of a sequencer, after its header where it stands at one (R75, R78, R183): the clause it is in, and what the word is. -/
def State.seqNext (s : State) (r : SeqRun) : Option ClauseCtx × Nat × Next :=
  let read := s.fetchCode r.wg.core r.g.ctx
  let word := fun (c : ClauseCtx) pc => match read pc with
    | .bad cause d => Next.fetch cause d
    | .far p => .far p
    | .miss va => .miss va
    | .word w =>
      if (wHead w).guard = 0xF#4 ∨ opClass (wOp w) = none then .bad causeIllegal 0 w
      else if opClass (wOp w) ≠ some c.cls then .bad causeClass 0 w
      else match decode w with
        | some i => .run i
        | none => .bad causeIllegal 0 w
  match r.q.cl with
  | some c => (some c, r.q.pc, word c r.q.pc)
  | none =>
    let pc := r.q.pc
    let bad := fun (n : Next) => ((none : Option ClauseCtx), pc, n)
    if pc % 8 ≠ 0 then bad (.bad causeMce 0 (BitVec.ofNat 64 pc)) else
      match read pc with
      | .bad cause d => bad (.fetch cause d)
      | .far p => bad (.far p)
      | .miss va => bad (.miss va)
      | .word w =>
        if !isHeader w then bad (.bad causeMce 0 (BitVec.ofNat 64 pc))
        else if !headerOk w then bad (.bad causeIllegal 0 w)
        else
          let x := parseHeader w
          let c := clauseOf pc x
          if c.cls ≠ 8 then bad (.bad causeClass 0 w)
          else if x.wait ≠ 0 ∨ x.av ∨ x.bv then bad (.bad causeIllegal 0 w)
          else (some c, pc + 8, word c (pc + 8))

end Sys2Proof.Machine
end

