-- ==== Sys2Proof/Machine/Copy.lean ====
section
/-! DEFINITION. Copies as data: templates, the elements they move and their chunks (R71-R73, R166-R169, R229), and the instructions of class 7 that start, await and name them (R35-R39, R143, R174-R179). -/

namespace Sys2Proof.Machine

/-! Templates (R71, R72). -/

/-- A template as its table holds it. -/
structure Template where
  hdr : List W64
  dims : List (Nat × Int × Int)
  deriving DecidableEq, Repr

/-- Little-endian bytes as a signed number. -/
def bytesToInt (bs : List Byte) : Int := intValue (8 * bs.length) true (bytesToNat bs)

/-- The 128 bytes of a template. -/
def Template.ofBytes (bs : List Byte) : Template :=
  { hdr := (List.range 5).map (fun n => BitVec.ofNat 64 (bytesToNat ((bs.drop (8 * n)).take 8)))
    dims := (List.range 8).map (fun d =>
      let r := bs.drop (40 + 11 * d)
      (bytesToNat (r.take 3), bytesToInt ((r.drop 3).take 4), bytesToInt ((r.drop 7).take 4))) }

/-- Bits hi:lo of a header word. -/
def Template.field (t : Template) (n hi lo : Nat) : Nat := (t.hdr.getD n 0).toNat / 2 ^ lo % 2 ^ (hi + 1 - lo)

def Template.ndims (t : Template) : Nat := t.field 0 62 60 + 1
def Template.esize (t : Template) : Nat := t.field 0 59 56 + 1
def Template.xform (t : Template) : Nat := t.field 0 55 52
def Template.slotNo (t : Template) : Nat := t.field 0 51 49
def Template.shadow (t : Template) : Bool := t.field 0 48 48 == 1
def Template.pscope (t : Template) : Nat := t.field 0 47 45
def Template.toMem (t : Template) : Bool := t.field 0 44 44 == 1
def Template.idx64 (t : Template) : Bool := t.field 0 43 43 == 1

def scopeOfP (n : Nat) : Scope := if n = 4 then .die else if n = 5 then .dev else .sys

/-- The template has one of the defects of R73, or xform 3 with another esize (R169). Bits that R71 calls zero otherwise count as reserved bits: idxbase without xform 4, and target bits [56:6] with done = 0; so does a reduce-add into a tile, which R169's table rules out without naming a fault. DEDUCED, unsafe (log 90). -/
def Template.invalid (t : Template) (tilen : Nat) : Bool :=
  t.field 0 63 63 != 0 || t.field 0 42 0 != 0 || (List.range 4).any (fun n => t.field (n + 1) 63 57 != 0)
  || decide (6 ≤ t.xform) || !([4, 5, 6].contains t.pscope)
  || (t.dims.take t.ndims).any (fun d => d.1 == 0) || (t.dims.drop t.ndims).any (fun d => d != (0, 0, 0))
  || (if t.toMem then t.field 3 2 0 != 0 else t.field 3 56 6 != 0 || decide (tilen ≤ t.field 3 5 0))
  || (t.xform != 4 && t.field 4 56 0 != 0) || (t.xform == 3 && t.esize != 4) || (t.xform == 5 && !t.toMem)
  || (t.shadow && !t.toMem)

/-! What a copy moves (R72, R169). -/

/-- All tuples of indices below given counts. -/
def tuples : List Nat → List (List Nat)
  | [] => [[]]
  | n :: ns => (List.range n).flatMap (fun i => (tuples ns).map (fun t => i :: t))

/-- Rows of a copy: index tuples of dimensions 1 and above. -/
def Copy.rows (c : Copy) : List (List Nat) := tuples (c.dims.tail.map (·.1))

def Copy.count0 (c : Copy) : Nat := (c.dims.headD (0, 0, 0)).1
def Copy.sstr0 (c : Copy) : Int := (c.dims.headD (0, 0, 0)).2.1
def Copy.dstr0 (c : Copy) : Int := (c.dims.headD (0, 0, 0)).2.2

/-- Offsets of a row in the source and in the destination. -/
def Copy.rowSrc (c : Copy) (row : List Nat) : Int := ((row.zip c.dims.tail).map (fun e => (e.1 : Int) * e.2.2.1)).sum
def Copy.rowDst (c : Copy) (row : List Nat) : Int := ((row.zip c.dims.tail).map (fun e => (e.1 : Int) * e.2.2.2)).sum

def Copy.fmt (c : Copy) : Slot := slotOf c.slot

/-- Bytes of one element of the slot's format; a block format packs two codes in a byte (R229). -/
def Slot.elemBytes (f : Slot) : Nat :=
  if f.isWfx then 12 else match f.type with | some t => typeBytes t | none => 1

/-- Bytes of a source element; 0 where the source is planes or packed codes, read byte by byte. -/
def Copy.srcBytes (c : Copy) : Nat :=
  match c.xform with
  | 1 => if c.fmt.isBlock then 0 else c.fmt.elemBytes
  | 2 => 0
  | 3 => 4
  | 5 => c.fmt.elemBytes
  | _ => c.esize

/-- A run of destination bytes that one rule gives: its row, its place in the row, its plane, its offset and length. -/
structure Piece where
  row : List Nat
  k : Nat
  j : Nat
  off : Int
  n : Nat
  deriving DecidableEq, Repr

/-- The destination bytes of a copy: elements, bytes of planes (R185), or bytes of two codes. -/
def Copy.pieces (c : Copy) : List Piece :=
  let elems := fun (n : Nat) => c.rows.flatMap (fun r => (List.range c.count0).map (fun k =>
    ({ row := r, k := k, j := 0, off := c.rowDst r + k * c.dstr0, n := n } : Piece)))
  match c.xform with
  | 1 => c.rows.flatMap (fun r => (List.range c.fmt.planes).flatMap (fun j => (List.range ((c.count0 + 7) / 8)).map (fun m =>
      ({ row := r, k := m, j := j, off := c.rowDst r + 4096 * j + m, n := 1 } : Piece))))
  | 2 => elems 4
  | 3 => if c.fmt.isBlock then c.rows.flatMap (fun r => (List.range ((c.count0 + 1) / 2)).map (fun m =>
      ({ row := r, k := m, j := 0, off := c.rowDst r + m, n := 1 } : Piece))) else elems c.fmt.elemBytes
  | 5 => elems c.fmt.elemBytes
  | _ => elems c.esize

/-- Source bytes of a copy, as (offset, length); a gather's index terms are taken as 0 (R167). -/
def Copy.spans (c : Copy) : List (Int × Nat) :=
  let elems := fun (n : Nat) => c.rows.flatMap (fun r => (List.range c.count0).map (fun (k : Nat) => (c.rowSrc r + k * c.sstr0, n)))
  match c.xform with
  | 1 => if c.fmt.isBlock then c.rows.map (fun r => (c.rowSrc r, (c.count0 + 1) / 2)) else elems c.srcBytes
  | 2 => c.rows.flatMap (fun r => (List.range c.fmt.planes).map (fun (j : Nat) => (c.rowSrc r + 4096 * j, (c.count0 + 7) / 8)))
  | 4 => c.rows.map (fun r => (c.rowSrc r, c.esize))
  | _ => elems c.srcBytes

/-- The lowest destination offset, and the first past the highest. -/
def Copy.lo (c : Copy) : Int := match c.pieces with | [] => 0 | p :: ps => ps.foldl (fun a q => min a q.off) p.off
def Copy.hi (c : Copy) : Int := match c.pieces with | [] => 0 | p :: ps => ps.foldl (fun a q => max a (q.off + q.n)) (p.off + p.n)

/-- Chunks count from the tile's base, or from the lowest destination byte (R72). -/
def Copy.base0 (c : Copy) : Int := if c.dstTile.isSome then 0 else c.lo

/-- The chunk of a destination offset, chunks counted from base. -/
def chunkFrom (base o : Int) : Nat := ((o - base) / 512).toNat

/-- The chunk of a destination offset. -/
def Copy.chunkAt (c : Copy) (o : Int) : Nat := chunkFrom c.base0 o

/-- Chunks that hold a destination byte. -/
def Copy.filled (c : Copy) : List Nat :=
  let base := c.base0
  sortNats (c.pieces.flatMap (fun p => (List.range p.n).map (fun (i : Nat) => chunkFrom base (p.off + i))))

/-- The chunks of a copy: a memory bitmap has one for each 512 bytes up to the last, a tile those with a byte (R168, R171). -/
def Copy.chunks (c : Copy) : List Nat :=
  if c.dstTile.isSome then c.filled else List.range (c.chunkAt (c.hi - 1) + 1)

/-- A memory address from a base and an offset. -/
def wrapAdd (a : Nat) (o : Int) : Nat := (((a : Int) + o) % 2 ^ 64).toNat

/-- Addresses of the scale bytes that a copy writes beside its destination: one for each block of 32 elements packed, or converted to codes (R229). -/
def Copy.scales (c : Copy) : List Nat :=
  let blocks := fun (n : Nat) => c.rows.flatMap (fun r => (List.range ((c.count0 + 31) / 32)).map (fun (b : Nat) =>
    c.fmt.scaleAddr (wrapAdd c.dst (c.rowDst r + n * b))))
  match c.xform with
  | 1 => blocks 4
  | 3 => if c.fmt.isBlock then blocks 16 else []
  | _ => []

/-- Every byte that a copy writes, as addresses. -/
def Copy.destVas (c : Copy) : List Nat := c.pieces.flatMap (fun p => (List.range p.n).map (fun (i : Nat) => wrapAdd c.dst (p.off + i))) ++ c.scales

/-- The 64 KiB windows that a copy writes, scale bytes included. -/
def Copy.windows (c : Copy) : List Nat := sortNats (c.destVas.map (· / 65536))

/-! Copy starts (R166-R168). -/

/-- The tile table's entry, if it has a range. -/
def Wg.ranged (wg : Wg) (n : Nat) : Option Tile :=
  match Tab.look wg.tiles n with
  | some t => if t.count = 0 then none else some t
  | none => none

def State.setTileAt (s : State) (wgKey n : Nat) (f : Tile → Tile) : State :=
  s.modWg wgKey (fun wg => { wg with tiles := Tab.mod wg.tiles n f })

/-- A copy start's four words. -/
def Run.copyWords (r : Run) (s : BitVec 6) : List W64 := (List.range 4).map (fun i => r.scalar (2 + i) (s + BitVec.ofNat 6 i))

/-- The extent lies in the tile (R167 order 5). -/
def Tile.holds (t : Tile) (o : Int) (n : Nat) : Bool := decide (0 ≤ o ∧ o + n ≤ 512 * t.count)

/-- Where the aperture store goes: its page must be the context's aperture (R35, R143). -/
def Run.apertureSite (r : Run) (va : Nat) (detail : W64) : Site :=
  if 2 ^ 57 ≤ va then .bad causeVaRange (BitVec.ofNat 64 va)
  else match r.s.lookup r.v.wg.core r.v.g.ctx va with
    | .error e => .bad e (BitVec.ofNat 64 va)
    | .ok t =>
      if t.kind ≠ 3 then .bad causeAperture detail
      else if !t.w then .bad causePermission (BitVec.ofNat 64 va)
      else .ok va va

/-- The template that a copy start names, or a cause with its DETAIL (R73, R167 order 3). DEDUCED, unsafe (log 49). -/
def Run.template (r : Run) (idx : Nat) : Except (Nat × W64) Template :=
  let x := r.s.ctxAt r.v.g.ctx
  if x.tpln.toNat < idx then .error (causeTemplate, BitVec.ofNat 64 idx)
  else
    let va := x.tplb.toNat * 4096 + 128 * idx
    match r.s.unitSite r.v.g.ctx .read va with
    | .error e => .error (e, BitVec.ofNat 64 va)
    | .ok key =>
      let t := Template.ofBytes (r.s.portRead key 128)
      if t.invalid r.v.g.tilen then .error (causeTemplate, BitVec.ofNat 64 idx) else .ok t

/-- A page of a translation that is device memory in HBM and no capacity-tier page. -/
def State.plainPage (s : State) (c va : Nat) : Bool :=
  decide (va < 2 ^ 57) && (match s.walk c va with | .ok t => t.kind == 0 && !t.ct && isHbm (cellOf t.pa) | .error _ => false)

/-- An address of device memory (R133's chapter): HBM or the capacity tier. -/
def State.deviceVa (s : State) (c va : Nat) : Bool :=
  match s.walk c va with | .ok t => t.kind == 0 || t.kind == 1 | .error _ => false

/-- The lowest of a list of addresses that is device memory (R167 order 6); pages of 4 KiB decide. -/
def State.firstDevice (s : State) (c : Nat) (vas : List Nat) : Option Nat :=
  let pages := (sortNats (vas.map (· / 4096))).filter (fun p => s.deviceVa c (4096 * p))
  match pages with
  | [] => none
  | p :: _ => some ((vas.filter (fun v => v / 4096 == p)).foldl min (4096 * p + 4095))

/-- The copy that the four words start under a template (R168): its tiles' bases stand in src and dst. -/
def Run.copyOf (r : Run) (t : Template) (w0 w1 w2 w3 : W64) (chan : Nat) : Copy :=
  let srct := w0.getLsbD 15
  let org : Int := if w0.getLsbD 14 then
      ((List.range 4).map (fun d => ((w3.toNat / 2 ^ (16 * d) % 65536 : Nat) : Int) * (t.dims.getD (d + 1) (0, 0, 0)).2.1)).sum else 0
  let tileOf := fun (n : Nat) => ((Tab.look r.v.wg.tiles n).map Tile.base).getD 0
  let sn := w1.toNat % 64
  let tl := if w0.getLsbD 13 then w2.toNat % 64 else t.field 3 5 0
  let srcBase : Nat := if srct then tileOf sn else if w0.getLsbD 12 then w1.toNat % 2 ^ 57 else t.field 1 56 0
  { ctx := r.v.g.ctx, grid := r.v.cl.grid, cluster := r.v.clKey, wg := r.v.wgKey, warp := r.v.key, pc := r.v.w.pcOf r.sp,
    chan := chan, number := (r.s.ctxAt r.v.g.ctx).copyNo.toNat, xform := t.xform, slot := r.v.g.slotWord t.slotNo,
    esize := t.esize, shadow := t.shadow, toMem := t.toMem, idx64 := t.idx64, src := wrapAdd srcBase org,
    srcTile := if srct then some sn else none,
    dst := if t.toMem then (if w0.getLsbD 13 then w2.toNat % 2 ^ 57 else t.field 2 56 0) else tileOf tl,
    dstTile := if t.toMem then none else some tl,
    target := t.field 3 56 0, idxbase := t.field 4 56 0, dims := t.dims.take t.ndims, sc := scopeOfP t.pscope, acks := [],
    before := [], started := [], doneChunks := [], failed := false, pages := [], image := none }

/-- The checks of R167 from order 2 on: a cause with its DETAIL, or the copy. -/
def Run.copyChecks (r : Run) (ws : List W64) (chan : Nat) : Except (Nat × W64) Copy :=
  let w := fun n => ws.getD n 0
  let idx := (w 0).toNat % 4096
  let d : W64 := BitVec.ofNat 64 idx
  let s := r.s
  let c := r.v.g.ctx
  let srct := (w 0).getLsbD 15
  let dsto := (w 0).getLsbD 13
  let srco := (w 0).getLsbD 12
  let bad1 := if srco then bitsSet (w 1) 63 57 else if srct then bitsSet (w 1) 63 6 else w 1 != 0
  if bitsSet (w 0) 63 16 || (srct && srco) || bad1 || (!dsto && w 2 != 0) || (!(w 0).getLsbD 14 && w 3 != 0)
      || (srct && decide (r.v.g.tilen ≤ (w 1).toNat)) then .error (causeAperture, d)
  else match r.template idx with
  | .error e => .error e
  | .ok t =>
    let target := t.field 3 56 0
    let tgt : Except (Nat × W64) Unit := if t.toMem then
        (match s.unitSite c .write target with
          | .error e => .error (e, BitVec.ofNat 64 target)
          | .ok key => if isHbm key || decide (0x10 ≤ key / 2 ^ 40 ∧ key / 2 ^ 40 ≤ 0x1B) then .ok () else .error (causeTemplate, d))
      else .ok ()
    match tgt with
    | .error e => .error e
    | .ok _ =>
      let cp := r.copyOf t (w 0) (w 1) (w 2) (w 3) chan
      if t.shadow && cp.windows.any (fun x => match s.walk c (65536 * x) with | .ok u => u.ct || u.kind == 1 | .error _ => false) then
        .error (causeTemplate, d)
      else if dsto && (if t.toMem then bitsSet (w 2) 63 57 else bitsSet (w 2) 63 6 || decide (r.v.g.tilen ≤ (w 2).toNat)) then
        .error (causeAperture, d)
      else
        let dstBad : Option Nat := match cp.dstTile with
          | none => none
          | some n => (match r.v.wg.ranged n with
            | some x => if x.st == TileSt.filling || x.st == TileSt.draining then some n else none
            | none => some n)
        let srcBad : Option Nat := match cp.srcTile with
          | none => none
          | some n => (match r.v.wg.ranged n with
            | some x => if x.st != TileSt.ready then some n else none
            | none => some n)
        match dstBad.or srcBad with
        | some n => .error (causeTileNotReady, BitVec.ofNat 64 n)
        | none =>
          let dstOut := match cp.dstTile.bind r.v.wg.ranged with
            | some x => !x.holds cp.lo (cp.hi - cp.lo).toNat
            | none => false
          let srcOut := match cp.srcTile.bind r.v.wg.ranged with
            | some x => cp.spans.any (fun e => !x.holds (((cp.src : Int) - x.base) + e.1) e.2)
            | none => false
          if dstOut || srcOut then .error (causeCopyBounds, d)
          else match (if r.v.g.restart && !cp.shadow && cp.toMem then s.firstDevice c cp.destVas else none) with
          | some va => .error (causeRestart, BitVec.ofNat 64 va)
          | none =>
            let x := s.ctxAt c
            let fresh := cp.windows.filter (fun v => !x.shadows.any (fun e => e.va == v && e.closed.isNone))
            if cp.shadow && decide (x.freePages.length < fresh.length) then .error (causeShadowPool, d) else .ok cp

/-- Shadow pages for the windows that have none, or none that a PUBLISH has not issued for (R173, R179). -/
def Ctx.shadowFor (x : Ctx) (ws : List Nat) : Ctx :=
  ws.foldl (fun x v => if x.shadows.any (fun e => e.va == v && e.closed.isNone) then x else
    match x.freePages with
    | [] => x
    | p :: ps => { x with freePages := ps, shadows := x.shadows ++ [{ va := v, page := p, written := [], closed := none }] }) x

/-- The shadow pages that a copy starting now writes, by window. -/
def Ctx.openPages (x : Ctx) (ws : List Nat) : List (Nat × List Nat) :=
  (x.shadows.filter (fun e => e.closed.isNone && ws.contains e.va)).map (fun e => (e.va, e.page))

/-- Operations of a warp that a copy start waits for: those with an access still to be performed, and open acquires, fences and CCTLs (R168, R247). -/
def State.copyWaits (s : State) (warp : Nat) : List Nat :=
  (s.ops.filter (fun e => e.2.warp == warp && (e.2.holds || e.2.accs.any (fun a => !a.done)))).map (·.1)

/-- CopyStart of R168. The implicit release waits for the warp's earlier accesses and is carried by the copy. -/
def Run.copyStart (r : Run) (w : Warp) (fsel : Bool) (cp : Copy) : State :=
  let s := r.put (w.raiseFlag (r.newOp fsel .store).flag)
  let x := s.ctxAt cp.ctx
  let y := if cp.shadow then x.shadowFor cp.windows else x
  let s := s.setCtx cp.ctx { y with copyNo := x.copyNo + 1 }
  let s := match cp.srcTile with
    | some n => s.setTileAt cp.wg n (fun t => { t with st := .draining })
    | none => s
  let filled := cp.filled
  let s := match cp.dstTile with
    | some n => s.setTileAt cp.wg n (fun t => { t with
        st := .filling
        bits := (List.range t.count).foldl (fun b i => if filled.contains i then b else b ||| (1#128 <<< i)) 0 })
    | none => s
  let id := s.nextId
  let waits := s.copyWaits cp.warp
  let s := { s with nextId := id + 1 }
  let cp := { cp with before := waits, pages := if cp.shadow then y.openPages cp.windows else [] }
  let s := if waits.isEmpty then s.releaseAt (s.coreOfWarp cp.warp) cp.ctx cp.sc |> fun p => { p.1 with copies := Tab.put p.1.copies id { cp with acks := p.2 } }
    else { s with copies := Tab.put s.copies id cp }
  { s with nextId := s.nextId + 1, ops := Tab.put s.ops s.nextId { r.newOp fsel .store with left := r.en, accs := [] } }

/-- st.256: a copy start to the context's aperture (R35, R143, R166-R168). DETAIL of its faults is the template index (R344). -/
def execCopyStart (h : Head) (fsel : Bool) (sn : BitVec 6) (base : BitVec 6) (off : BitVec 16) (s : State) : Host.Outcome State Fault Refusal :=
  runWarp (.copyStart h fsel sn base off) h (Pre.long fsel []) s (fun r =>
    let va := (r.scalar 1 base + off.signExtend 64).toNat
    let ws := r.copyWords sn
    let d : W64 := BitVec.ofNat 64 ((ws.getD 0 0).toNat % 4096)
    let x := if va % 32 ≠ 0 then Site.bad causeAperture d else r.apertureSite va d
    r.withSites true (onceSites r.en x) (fun q =>
      match r.copyChecks ws (va / 64 % 64) with
      | .error e => q.trap1 e.1 q.en e.2
      | .ok cp => q.copyStart q.out fsel cp))

/-! Tiles (R174-R176). -/

/-- tdef: the tile's range; its bitmap is cleared (R174, R175). -/
def execTdef (h : Head) (fsel : Bool) (tile base : BitVec 6) (off : BitVec 16) (ms : BitVec 6) (s : State) : Host.Outcome State Fault Refusal :=
  let n := tile.toNat
  runWarp (.tdef h fsel tile base off ms) h { Pre.long fsel [] with res := [(n, .tile)], tile := some n } s (fun r =>
    let b := (r.scalar 1 base + off.signExtend 64).toNat
    let count := (r.scalar 2 ms).toNat % 256
    if count = 0 ∨ 128 < count then r.trap1 causeIllegal r.en (encode (.tdef h fsel tile base off ms))
    else if b % 512 ≠ 0 then r.trap1 causeMisaligned r.en (BitVec.ofNat 64 b)
    else if r.v.g.scrBytes < b + 512 * count then r.trap1 causeScratch r.en (BitVec.ofNat 64 b)
    else (r.put r.out).setTileAt r.v.wgKey n (fun _ => { st := .empty, base := b, count := count, bits := 0 }))

/-- twait: parks while the tile is FILLING or DRAINING (R176). -/
def execTwait (h : Head) (fsel : Bool) (tile : BitVec 6) (s : State) : Host.Outcome State Fault Refusal :=
  let n := tile.toNat
  runWarp (.twait h fsel tile) h { Pre.long fsel [] with res := [(n, .tile)] } s (fun r =>
    match Tab.look r.v.wg.tiles n with
    | some t => if t.st == .filling || t.st == .draining then r.parkOn r.out fsel r.en (.twait n) else r.parkNone r.out
    | none => r.parkNone r.out)

/-- tfree: READY becomes EMPTY, the range stays (R176); a tile with no range, or EMPTY, is not ready. -/
def execTfree (h : Head) (tile : BitVec 6) (s : State) : Host.Outcome State Fault Refusal :=
  let n := tile.toNat
  runWarp (.tfree h tile) h { Pre.none with res := [(n, .tile)], tile := some n } s (fun r =>
    match r.v.wg.ranged n with
    | some t => if t.st == .ready then (r.put r.out).setTileAt r.v.wgKey n (fun t => { t with st := .empty })
        else r.trap1 causeTileNotReady r.en (BitVec.ofNat 64 n)
    | none => r.trap1 causeTileNotReady r.en (BitVec.ofNat 64 n))

/-! Waiting on copies (R177, R178). -/

/-- Half h of a tile's bitmap: bits at or above its count count as set (R177). -/
def Tile.half (t : Tile) (hi : Bool) : W64 :=
  let all : BitVec 128 := (List.range 128).foldl (fun b i => if t.count ≤ i then b ||| (1#128 <<< i) else b) t.bits
  (all >>> (if hi then 64 else 0)).setWidth 64

/-- The bits of a mask are set: READY has every bit (R174). -/
def Tile.has (t : Tile) (hi : Bool) (m : W64) : Bool := t.st == .ready || t.half hi &&& m == m

/-- A tile that CWAIT and CTEST may name: FILLING or READY, with a range (R174). -/
def Run.testable (r : Run) (n : Nat) : Option Tile :=
  match r.v.wg.ranged n with
  | some t => if t.st == .filling || t.st == .ready then some t else none
  | none => none

/-- cwait [s + off], sm: a device-scope monitor on "word AND mask = mask" (R177). -/
def execCwait (h : Head) (fsel : Bool) (ms base : BitVec 6) (off : BitVec 16) (s : State) : Host.Outcome State Fault Refusal :=
  runWarp (.cwait h fsel ms base off) h (Pre.long fsel []) s (fun r =>
    let a := (r.scalar 1 base + off.signExtend 64).toNat
    let site := r.monSite .dev a 8
    r.withSites true (onceSites r.en site) (fun r =>
      match site with
      | .ok key _ =>
        let m := r.scalar 2 ms
        if m = 0 then r.parkNone r.out else r.monitor fsel false .dev key 8 .eq m true
      | _ => r.s))

/-- cwait tn.h, sm (R177). DEDUCED, unsafe (log 55). -/
def execCwaitTile (h : Head) (fsel : Bool) (ms tile : BitVec 6) (hi : Bool) (s : State) : Host.Outcome State Fault Refusal :=
  let n := tile.toNat
  runWarp (.cwaitTile h fsel ms tile hi) h { Pre.long fsel [] with res := [(n, .tile)] } s (fun r =>
    match r.testable n with
    | none => r.trap1 causeTileNotReady r.en (BitVec.ofNat 64 n)
    | some t =>
      let m := r.scalar 2 ms
      if t.has hi m then r.parkNone r.out else r.parkOn r.out fsel r.en (.cwaitTile n hi m))

/-- ctest sd, [s + off], sm: 1 if the bits are set, read at the home, else 0 (R178). -/
def execCtest (h : Head) (fsel : Bool) (sd ms base : BitVec 6) (off : BitVec 16) (s : State) : Host.Outcome State Fault Refusal :=
  runWarp (.ctest h fsel sd ms base off) h (Pre.long fsel []) s (fun r =>
    let a := (r.scalar 1 base + off.signExtend 64).toNat
    let site := r.monSite .dev a 8
    r.withSites true (onceSites r.en site) (fun r =>
      r.memOp fsel (.ctest sd.toNat (r.scalar 2 ms)) .dev .glob [mkAccess 32 8 site [] []]))

/-- ctest sd, tn.h, sm (R178): an acquire at workgroup scope if it writes 1, whose scope its operation carries, so that an ACQ waits for it (R154). DEDUCED, unsafe (log 55). -/
def execCtestTile (h : Head) (fsel : Bool) (sd ms tile : BitVec 6) (hi : Bool) (s : State) : Host.Outcome State Fault Refusal :=
  let n := tile.toNat
  runWarp (.ctestTile h fsel sd ms tile hi) h { Pre.long fsel [] with res := [(n, .tile)] } s (fun r =>
    match r.testable n with
    | none => r.trap1 causeTileNotReady r.en (BitVec.ofNat 64 n)
    | some t =>
      let l := lowLane r.en
      r.launch { r.newOp fsel (.regs (.s sd.toNat) false [(l, if t.has hi (r.scalar 2 ms) then 1 else 0)] []) with
        sc := .wg, lanes := 1#32 <<< l, left := 1#32 <<< l })

/-! PUBLISH (R179). -/

/-- A window of a PUBLISH: device memory in HBM, no capacity-tier page (R179, R341). DEDUCED, unsafe (log 50). -/
def Run.windowSite (r : Run) (va : Nat) : Site :=
  if 2 ^ 57 ≤ va then .bad causeVaRange (BitVec.ofNat 64 va)
  else match r.s.lookup r.v.wg.core r.v.g.ctx va with
    | .error e => .bad e (BitVec.ofNat 64 va)
    | .ok t =>
      if t.kind ≠ 0 ∨ t.ct ∨ !isHbm (cellOf t.pa) then .bad causeSpace (BitVec.ofNat 64 va)
      else match r.s.checkTrans r.v.g.ctx .read { t with r := true } with
        | some e => .bad e (BitVec.ofNat 64 va)
        | none => .ok (cellOf t.pa) va

/-- publish.sc [s + off], n: parks its threads and closes the windows' shadow pages to copies that start later; the release comes first, then the shadow copies, then the switch (R179). DEDUCED, unsafe (log 50). -/
def execPublish (h : Head) (fsel : Bool) (sc : Scope) (nm1 base : BitVec 6) (off : BitVec 16) (s : State) : Host.Outcome State Fault Refusal :=
  runWarp (.publish h fsel sc nm1 base off) h (Pre.long fsel []) s (fun r =>
    let a := (r.scalar 1 base + off.signExtend 64).toNat
    let n := nm1.toNat + 1
    let pages := (List.range (16 * n)).map (fun i => r.windowSite (a + 4096 * i))
    let bad := pages.find? (fun x => match x with | .bad _ _ => true | _ => false)
    let x := if a % 65536 ≠ 0 then Site.bad causeMisaligned (BitVec.ofNat 64 a) else bad.getD (.ok 0 a)
    r.withSites true (onceSites r.en x) (fun r =>
      let ws := (List.range n).map (fun i => a / 65536 + i)
      let cs := (r.s.copies.filter (fun e => e.2.ctx == r.v.g.ctx && e.2.shadow && e.2.windows.any ws.contains)).map (·.1)
      let id := r.s.nextId
      let o := { r.newOp fsel (.publish a n cs false) with sc := sc }
      let w := (r.out.raiseFlag o.flag).modThreads (r.sp &&& ~~~r.en) Thread.pass
      let x := r.s.ctxAt r.v.g.ctx
      let closed := x.shadows.map (fun e => if e.closed.isNone && ws.contains e.va then { e with closed := some id } else e)
      { ((r.s.setCtx r.v.g.ctx { x with shadows := closed }).setWarp r.v.key (w.park r.en (.publish id))) with nextId := id + 1, ops := Tab.put r.s.ops id o }))

end Sys2Proof.Machine
end

