-- ==== Sys2Proof/Machine/Copies.lean ====
section
/-! DEFINITION. Copies in flight: what a chunk reads and writes (R169-R173, R229, R352, R356), the events of copies and tiles (R171, R172, R174), and the switch and retirement of PUBLISH (R179, R180, R263). -/

namespace Sys2Proof.Machine

/-! Reading sources. -/

/-- Why a chunk cannot go on now: a fault that ends the copy, a wait, or a page that has to be brought near (R172, R270, R341). -/
inductive Stop where
  | fault
  | hold
  | far (page : Nat)
  deriving DecidableEq, Repr

/-- Where a copy's access to memory goes (R172): its page walked, held while the page flips. -/
def State.copySite (s : State) (c : Nat) (need : Need) (va : Nat) : Except Stop Nat :=
  if 2 ^ 57 ≤ va then .error .fault
  else match s.walk c va with
    | .error _ => .error .fault
    | .ok t =>
      if t.kind = 3 then .error .fault
      else match s.checkTrans c need t with
        | some _ => .error .fault
        | none =>
          if t.kind = 1 then .error (.far (va / 65536))
          else
            let key := cellOf t.pa
            if isHbm key && decide (2 ≤ s.biasState key) then .error .hold else .ok key

/-- Bytes read: their values, the cells read in memory, and whether one is poisoned. -/
structure Got where
  bytes : List Byte
  keys : List Nat
  poison : Bool
  deriving DecidableEq, Repr

def Got.empty : Got := { bytes := [], keys := [], poison := false }
def Got.append (a b : Got) : Got := { bytes := a.bytes ++ b.bytes, keys := a.keys ++ b.keys, poison := a.poison || b.poison }

/-- A cell is poisoned where a BTE reads it: at its home, or in the package's copy of a pool line (R356). -/
def State.cellPoisoned (s : State) (key : Nat) : Bool :=
  match (if isHbm key then none else s.windowAt key) with
  | some (_, w) => if w.kind = .pool then s.poolMark (key / 64) else s.homePoisoned key
  | none => s.homePoisoned key

/-- A byte of memory, at its home or system target (R170). -/
def State.memByte (s : State) (c va : Nat) : Except Stop Got :=
  match s.copySite c .read va with
  | .error e => .error e
  | .ok key => .ok { bytes := s.portRead key 1, keys := [key], poison := s.cellPoisoned key }

/-- The scratch that a copy's source tile lies in, its poisoned words, and the tile's base and count: the workgroup's, or what a lost die's copy has kept of it (R361). -/
def State.srcScratch (s : State) (c : Copy) : Option (Tab Byte × List Nat × Nat × Nat) :=
  match c.image with
  | some x => some x
  | none =>
    match c.srcTile with
    | none => none
    | some n => (Tab.look s.wgs c.wg).bind (fun wg => (wg.ranged n).map (fun t => (wg.scratch, wg.scrPoison, t.base, t.count)))

/-- The copy reads a tile, or what a lost workgroup has left of it. -/
def Copy.fromTile (c : Copy) : Bool := c.srcTile.isSome || c.image.isSome

/-- A source byte at an offset: of the tile's range, or of memory. -/
def State.copyByte (s : State) (c : Copy) (o : Int) : Except Stop Got :=
  if !c.fromTile then s.memByte c.ctx (wrapAdd c.src o)
  else match s.srcScratch c with
    | none => .error .fault
    | some (scr, bad, base, count) =>
      let a := (c.src : Int) + o
      if 0 ≤ a - base ∧ a - base + 1 ≤ 512 * count then
        .ok { bytes := [Tab.get 0 scr a.toNat], keys := [], poison := bad.contains (a.toNat / 8) }
      else .error .fault

/-- Results in order, or the first stop. -/
def collect : List (Except Stop Got) → Except Stop Got
  | [] => .ok Got.empty
  | .error e :: _ => .error e
  | .ok x :: rest =>
    match collect rest with
    | .error e => .error e
    | .ok y => .ok (x.append y)

def State.copyBytes (s : State) (c : Copy) (o : Int) (n : Nat) : Except Stop Got :=
  collect ((List.range n).map (fun (i : Nat) => s.copyByte c (o + i)))

def State.memBytes (s : State) (ctx va n : Nat) : Except Stop Got :=
  collect ((List.range n).map (fun (i : Nat) => s.memByte ctx (wrapAdd va i)))

/-- The bytes of element k of a row; a gather reads its index first, and a poisoned index is a fault (R169, R172). -/
def State.copyElem (s : State) (c : Copy) (row : List Nat) (k n : Nat) : Except Stop Got :=
  if c.xform = 4 then
    let w := if c.idx64 then 8 else 4
    match s.memBytes c.ctx (c.idxbase + k * w) w with
    | .error e => .error e
    | .ok ix =>
      if ix.poison then .error .fault else
        match s.copyBytes c (c.rowSrc row + (bytesToNat ix.bytes : Nat) * c.sstr0) n with
        | .error e => .error e
        | .ok x => .ok { x with keys := ix.keys ++ x.keys }
  else s.copyBytes c (c.rowSrc row + k * c.sstr0) n

/-! Scale bytes (R229): in the same space as the data they belong to. -/

/-- The scale byte of a source block whose first byte stands at an offset. -/
def State.srcScale (s : State) (c : Copy) (o : Int) : Except Stop Got :=
  let a := c.fmt.scaleAddr (wrapAdd c.src o)
  if !c.fromTile then s.memByte c.ctx a
  else match s.srcScratch c with
    | none => .error .fault
    | some (scr, bad, _, _) => .ok { bytes := [Tab.get 0 scr a], keys := [], poison := bad.contains (a / 8) }

/-- Elements of block b of a row that exist. -/
def Copy.blockLanes (c : Copy) (b : Nat) : List Nat := (List.range 32).filter (fun l => decide (32 * b + l < c.count0))

/-- The source values of a block, one for each of its 32 lanes, none past the row's end, with what was read. DEDUCED, unsafe (log 48). -/
def State.blockVals (s : State) (c : Copy) (row : List Nat) (b n : Nat) : Except Stop (List (Option Nat) × Got) :=
  match collect ((c.blockLanes b).map (fun l => s.copyElem c row (32 * b + l) n)) with
  | .error e => .error e
  | .ok g =>
    .ok ((List.range 32).map (fun l => if 32 * b + l < c.count0 then some (bytesToNat ((g.bytes.drop (n * l)).take n)) else none), g)

/-- Packed codes of a source block and its scale byte (R229). -/
def State.blockCodes (s : State) (c : Copy) (row : List Nat) (b : Nat) : Except Stop (List (Option Nat) × Nat × Got) :=
  let o := c.rowSrc row + 16 * b
  let bytes := ((c.blockLanes b).length + 1) / 2
  match s.copyBytes c o bytes, s.srcScale c o with
  | .ok g, .ok sg =>
    .ok ((List.range 32).map (fun l => if 32 * b + l < c.count0 then some ((bytesToNat [g.bytes.getD (l / 2) 0] / 16 ^ (l % 2)) % 16) else none),
      bytesToNat sg.bytes, g.append sg)
  | .error e, _ => .error e
  | _, .error e => .error e

/-- A packed row of a block: scale byte and integers, with what was read. -/
def State.packBlock (s : State) (c : Copy) (row : List Nat) (b : Nat) : Except Stop (Nat × List Int × Got) :=
  let f := c.fmt
  if f.isBlock then
    match s.blockCodes c row b with
    | .error e => .error e
    | .ok (xs, sg, g) => .ok (sg, (packRow f xs sg).2.map (·.1), g)
  else match s.blockVals c row b f.elemBytes with
    | .error e => .error e
    | .ok (xs, g) => let r := packRow f xs 0; .ok (r.1, r.2.map (·.1), g)

/-- The value and scale byte of an unpacked element (R199). -/
def State.unpackElem (s : State) (c : Copy) (row : List Nat) (k : Nat) : Except Stop Got :=
  let f := c.fmt
  let o := c.rowSrc row
  match collect ((List.range f.planes).map (fun (j : Nat) => s.copyByte c (o + 4096 * j + (k / 8 : Nat)))), s.srcScale c (o + 4 * (k / 32 : Nat)) with
  | .ok g, .ok sg =>
    let x := unplane (g.bytes.map BitVec.toNat) (k % 8)
    .ok { (g.append sg) with bytes := natToBytes 4 (unpackValue f (bytesToNat sg.bytes) x).1 }
  | .error e, _ => .error e
  | _, .error e => .error e

/-- A converted element (R169 xform 3): as CVT gives, or ToWfx for wfx96. -/
def convertElem (f : Slot) (x : Nat) : List Byte :=
  if f.isWfx then natToBytes 12 (wfxBits (toWfx f.shift (fp32.decode x).exact).1)
  else match f.type with
    | some t => natToBytes (typeBytes t) (convert f.rnd f.sat t .f32 x).1
    | none => []

/-- A block of FP32 values as codes, with its scale byte (R169, R200). -/
def State.convertBlock (s : State) (c : Copy) (row : List Nat) (b : Nat) : Except Stop (Nat × List Nat × Got) :=
  match s.blockVals c row b 4 with
  | .error e => .error e
  | .ok (xs, g) => let r := pack4 (c.fmt.fmt - 14) c.fmt.rnd xs; .ok (r.1, r.2.map (·.1), g)

/-- Destination plus source in the slot's format (R169 xform 5): exact for wfx96, to nearest even for FP (R150), modulo the width for integers unless the slot saturates. The spec gives no sum of 4-bit codes: a free value. DESIGN CHOICE, safe (log 83). -/
def addElem (f : Slot) (n : Nat) (dst src : Nat) : Nat :=
  if f.isWfx then wfxBits (addWfx (wfxOfBits dst) (wfxOfBits src)).1
  else match f.type with
    | some .f32 => faddAtomic dst src
    | some t =>
      (match intType t, fpType t with
        | some (bits, sgn), _ =>
          let v := intValue bits sgn dst + intValue bits sgn src
          let v := if f.sat then (if v < intLo bits sgn then intLo bits sgn else if intHi bits sgn < v then intHi bits sgn else v) else v
          (v % 2 ^ bits).toNat
        | none, some g => (g.add .rn f.sat dst src).1
        | none, none => dst)
    | none => Config.freeNat n % 256

/-! What a piece writes. -/

/-- A run of bytes to write at a destination offset, or a scale byte at its own address; poison goes with them. -/
structure Put where
  off : Int
  scale : Option Nat
  bytes : List Byte
  poison : Bool
  deriving DecidableEq, Repr

/-- What one piece writes, with the cells its sources were read from. A block's scale byte goes with the block's first piece, poisoned if a source of the block is (R172). -/
def State.pieceOut (s : State) (c : Copy) (p : Piece) : Except Stop (List Put × List Nat) :=
  let one := fun (r : Except Stop Got) => match r with
    | .error e => Except.error e
    | .ok g => .ok ([{ off := p.off, scale := none, bytes := g.bytes, poison := g.poison }], g.keys)
  match c.xform with
  | 1 =>
    (match s.packBlock c p.row (p.k / 4) with
      | .error e => .error e
      | .ok (sg, xs, g) =>
        let byte := natToBytes 1 (planeWord xs p.j / 256 ^ (p.k % 4))
        let b : Nat := p.k / 4
        let a := c.fmt.scaleAddr (wrapAdd c.dst (c.rowDst p.row + 4 * b))
        let sc : List Put := if p.j = 0 ∧ p.k % 4 = 0 then [{ off := 0, scale := some a, bytes := natToBytes 1 sg, poison := g.poison }] else []
        .ok ({ off := p.off, scale := none, bytes := byte, poison := g.poison } :: sc, g.keys))
  | 2 => one (s.unpackElem c p.row p.k)
  | 3 =>
    if c.fmt.isBlock then
      (match s.convertBlock c p.row (p.k / 16) with
        | .error e => .error e
        | .ok (sg, cs, g) =>
          let l := 2 * (p.k % 16)
          let byte := natToBytes 1 (cs.getD l 0 % 16 + 16 * (cs.getD (l + 1) 0 % 16))
          let b : Nat := p.k / 16
          let a := c.fmt.scaleAddr (wrapAdd c.dst (c.rowDst p.row + 16 * b))
          let sc : List Put := if p.k % 16 = 0 then [{ off := 0, scale := some a, bytes := natToBytes 1 sg, poison := g.poison }] else []
          .ok ({ off := p.off, scale := none, bytes := byte, poison := g.poison } :: sc, g.keys))
    else (match s.copyElem c p.row p.k 4 with
      | .error e => .error e
      | .ok g => .ok ([{ off := p.off, scale := none, bytes := convertElem c.fmt (bytesToNat g.bytes), poison := g.poison }], g.keys))
  | _ => one (s.copyElem c p.row p.k p.n)

/-- A destination byte is written with chunk k: one of the chunk, and in memory also one of a sector that the chunk shares with its neighbour and that no chunk has written yet, so that a sector changes in one step (R171). DEDUCED, unsafe (log 48). -/
def Copy.takes (c : Copy) (base : Int) (k : Nat) (o : Int) : Bool :=
  let at_ := chunkFrom base o
  if c.dstTile.isSome || c.xform == 5 then at_ == k else
    let sec := ((c.dst : Int) + o) / 64
    let first := fun (j : Nat) => (c.dst : Int) + base + 512 * j
    let inside := fun (j : Nat) => decide (first j / 64 ≤ sec ∧ sec ≤ (first j + 511) / 64)
    let writer := fun (j : Nat) => c.doneChunks.contains j && inside j && c.filled.contains j
    inside k && !writer at_ && !writer (at_ + 1) && !(decide (0 < at_) && writer (at_ - 1))

/-- The pieces of a chunk: whole elements by their first byte for reduce-add, which is one step for each element; else every piece with a byte there. -/
def Copy.inChunk (c : Copy) (base : Int) (k : Nat) : List Piece :=
  if c.xform = 5 then c.pieces.filter (fun p => chunkFrom base p.off == k)
  else c.pieces.filter (fun p => (List.range p.n).any (fun (i : Nat) => c.takes base k (p.off + i)))

/-- Only the bytes of a put that are written with the chunk. -/
def Copy.clip (c : Copy) (base : Int) (k : Nat) (x : Put) : List Put :=
  if x.scale.isSome ∨ c.xform = 5 then [x] else
    (x.bytes.zipIdx).filterMap (fun e => if c.takes base k (x.off + (e.2 : Nat)) then some { x with off := x.off + (e.2 : Nat), bytes := [e.1] } else none)

/-- Everything a chunk writes, and the cells it reads. -/
def State.chunkOut (s : State) (c : Copy) (base : Int) (k : Nat) : List Piece → Except Stop (List Put × List Nat)
  | [] => .ok ([], [])
  | p :: ps =>
    match s.pieceOut c p with
    | .error e => .error e
    | .ok (xs, ks) =>
      match s.chunkOut c base k ps with
      | .error e => .error e
      | .ok (ys, ks') => .ok (xs.flatMap (c.clip base k) ++ ys, ks ++ ks')

/-! Destinations. -/

/-- The remap entry of a tile whose cluster is saved (R352). -/
def State.remapOf (s : State) (c : Copy) : Option Remap :=
  match c.dstTile with
  | none => none
  | some n => (s.ctxAt c.ctx).remaps.find? (fun r => r.cluster == c.cluster && r.wg == c.wg % 8 && r.tile == n)

/-- Where a byte of a copy goes: scratch of the workgroup, or a cell, of the shadow page for a shadow copy. -/
inductive Target where
  | scratch (a : Nat)
  | cell (key : Nat)
  | shadow (va key : Nat)
  deriving DecidableEq, Repr

/-- The cell lies in HBM that the context's partition owns, outside the carve-out and no retired stack (R327, R330). -/
def State.ownCell (s : State) (c key : Nat) : Bool :=
  isHbm key && !isCarveOut key && (s.partAt (s.ctxAt c).part.toNat).owns key && !s.isRetired key

/-- The target of a byte of memory; a shadow page is checked as any page of HBM is (R327). -/
def State.memTarget (s : State) (c : Copy) (va : Nat) : Except Stop Target :=
  match s.copySite c.ctx .write va with
  | .error e => .error e
  | .ok key =>
    if c.shadow then
      match c.pages.find? (fun x => x.1 == va / 65536) with
      | some x =>
        let k := 4096 * x.2.getD (va / 4096 % 16) 0 + va % 4096
        if s.ownCell c.ctx k then .ok (.shadow va k) else .error .fault
      | none => .error .fault
    else .ok (.cell key)

/-- The target of a destination byte: a = its scratch address or VA. -/
def State.byteTarget (s : State) (c : Copy) (a : Nat) : Except Stop Target :=
  if c.dstTile.isNone then s.memTarget c a
  else match s.remapOf c with
    | none => .ok (.scratch a)
    | some r =>
      match s.copySite c.ctx .write (wrapAdd r.frame ((a : Int) - r.scrb)) with
      | .error e => .error e
      | .ok key => .ok (.cell key)

/-- The targets of a put, byte by byte. -/
def State.targets (s : State) (c : Copy) (x : Put) : Except Stop (List (Target × Byte)) :=
  (x.bytes.zipIdx).foldr (fun e acc =>
    match acc with
    | .error q => .error q
    | .ok ts =>
      let a := match x.scale with | some v => v + e.2 | none => wrapAdd c.dst (x.off + (e.2 : Nat))
      match s.byteTarget c a with
      | .error q => .error q
      | .ok t => .ok ((t, e.1) :: ts)) (.ok [])

def Target.keys : Target → List Nat
  | .scratch _ => []
  | .cell k => [k]
  | .shadow _ k => [k]

/-- A write of one byte at the home from a copy is noted for its block (R170, R259). DEDUCED, safe (log 47). -/
def State.copyNotice (s : State) (c : Copy) (keys : List Nat) : State :=
  (sortNats ((keys.filter isHbm).map (fun k => k / 65536))).foldl (fun s b => s.notice (65536 * b) c.ctx 2 0 c.number) s

def State.poisonCell (s : State) (key : Nat) : State :=
  if s.memPoison.contains (key / 64) then s else { s with memPoison := (key / 64) :: s.memPoison }

/-- Maximal runs of consecutive addresses, cut at sectors. -/
def runsOf : Tab Byte → List (Nat × List Byte)
  | [] => []
  | (k, b) :: t =>
    match runsOf t with
    | (j, bs) :: r => if j = k + 1 ∧ j % 64 ≠ 0 then (k, b :: bs) :: r else (k, [b]) :: (j, bs) :: r
    | [] => [(k, [b])]

/-- Everything a chunk writes lands in one step: scratch, memory, the shadow pages' record of bytes written, and poison (R171, R172, R356). DEDUCED, safe (log 47). -/
def State.land (s : State) (c : Copy) (ts : List (Target × Byte × Bool)) : State :=
  let cells := ts.foldl (fun m t => t.1.keys.foldl (fun m k => Tab.put m k t.2.1) m) ([] : Tab Byte)
  let scr := ts.foldl (fun m t => match t.1 with | .scratch a => Tab.put m a t.2.1 | _ => m) ([] : Tab Byte)
  let runs := runsOf cells
  let s := s.writeRuns (runs.filter (fun r => isHbm r.1))
  let s := (runs.filter (fun r => !isHbm r.1)).foldl (fun s r => s.portWrite r.1 r.2) s
  let s := (runsOf scr).foldl (fun s r => s.writeScratch c.wg r.1 r.2) s
  let vas := ts.filterMap (fun t => match t.1 with | .shadow va _ => some va | _ => none)
  let x := s.ctxAt c.ctx
  let s := if vas.isEmpty then s else s.setCtx c.ctx { x with shadows := x.shadows.map (fun e =>
    { e with written := (vas.filter (fun v => v / 65536 == e.va && c.pages.any (fun p => p.1 == e.va && p.2 == e.page))).foldl (fun l v => insertNat (v % 65536) l) e.written }) }
  (ts.filter (fun t => t.2.2)).foldl (fun s t => t.1.keys.foldl (fun s k => s.poisonCell k) s) s

/-- The lines a chunk's accesses have to snoop first (R273). -/
def State.chunkSnoops (s : State) (reads writes : List Nat) : List Snoop :=
  let need := fun (w : Bool) (ks : List Nat) => (sortNats ((ks.filter (fun k => isHbm k && s.biasState k == 1)).map (· / 64))).filterMap (fun l => s.snoopFor l w)
  need true writes ++ need false reads

/-! Tile states. -/

/-- Threads that wait for a tile are looked at again (R174, R176, R177). -/
def State.tileWake (s : State) (wgKey n : Nat) : State :=
  match (Tab.look s.wgs wgKey).bind (fun wg => Tab.look wg.tiles n) with
  | none => s
  | some t =>
    let busy := t.st == .filling || t.st == .draining
    (s.warpsOf wgKey).foldl (fun s e =>
      let again := e.2.those (fun x => x.st == .parked (.tile n) && !busy)
      let s := s.modWarp e.1 (fun w => w.modThreads again Thread.wake)
      let go := e.2.those (fun x => match x.st with
        | .parked (.twait m) => m == n && !busy
        | .parked (.cwaitTile m hi mask) => m == n && t.has hi mask
        | _ => false)
      if go = 0 then s else s.release e.1 go) s

/-- Every bit below the count is set. -/
def Tile.full (t : Tile) : Bool := (List.range t.count).all (fun i => t.bits.getLsbD i)

/-- The cells of a saved tile's image (R352), if its page can be written now. -/
def State.imageCell (s : State) (c : Copy) : Except Stop (Option (Remap × Nat)) :=
  match s.remapOf c with
  | none => .ok none
  | some r =>
    match s.copySite c.ctx .write r.img with
    | .error e => .error e
    | .ok key => .ok (some (r, key))

/-- A chunk's bit is set in its tile, or in the tile's image once its cluster is saved; with the last, the tile is READY (R171, R174, R352). A chunk whose image cannot be written now has not completed. -/
def State.tileBit (s : State) (c : Copy) (n k : Nat) : Except Stop State :=
  match s.imageCell c with
  | .error e => .error e
  | .ok none =>
    let s := s.setTileAt c.wg n (fun t =>
      let t := { t with bits := t.bits ||| (1#128 <<< k) }
      if t.st == .filling && t.full then { t with st := .ready } else t)
    .ok (s.tileWake c.wg n)
  | .ok (some (r, key)) =>
    let raw := bytesToNat (s.portRead key 32)
    let raw := if raw.testBit (128 + k) then raw else raw + 2 ^ (128 + k)
    let full := (List.range r.count).all (fun i => raw.testBit (128 + i))
    let st := raw / 2 ^ 54 % 4
    let raw := if full then raw - st * 2 ^ 54 + 2 * 2 ^ 54 else raw
    let s := s.portWrite key (natToBytes 32 raw)
    let x := s.ctxAt c.ctx
    .ok (if full then s.setCtx c.ctx { x with remaps := x.remaps.filter (· != r) } else s)

/-- The cell of the bitmap word that holds a chunk's bit (R171). -/
def State.mapCell (s : State) (c : Copy) (k : Nat) : Except Stop Nat :=
  s.copySite c.ctx .write (wrapAdd c.target ((8 * (k / 64) : Nat) : Int))

/-- A bit of the memory bitmap, by an atomic OR at the home (R171); none where its word cannot be written now. -/
def State.mapBit (s : State) (c : Copy) (k : Nat) : Except Stop State :=
  match s.mapCell c k with
  | .error e => .error e
  | .ok key =>
    let old := bytesToNat (s.portRead key 8)
    let new := if old.testBit (k % 64) then old else old + 2 ^ (k % 64)
    .ok ((s.portWrite key (natToBytes 8 new)).copyNotice c [key])

/-- Several bits of the memory bitmap. -/
def State.mapBits (s : State) (c : Copy) : List Nat → Except Stop State
  | [] => .ok s
  | k :: ks =>
    match s.mapBit c k with
    | .error e => .error e
    | .ok s => s.mapBits c ks

/-- Chunks of a memory bitmap whose bits are set with chunk k: those without a destination byte that are not set yet, before it, and its own (R171). -/
def Copy.bitsWith (c : Copy) (k : Nat) : List Nat :=
  if c.dstTile.isSome then [k] else
    let full := c.filled
    (if full.contains k then c.chunks.filter (fun j => !full.contains j && !c.doneChunks.contains j) else []) ++ [k]

/-- The cells that setting those bits writes, or why they cannot be written now. -/
def State.bitCells (s : State) (c : Copy) (k : Nat) : Except Stop (List Nat) :=
  if c.dstTile.isSome then
    (match s.imageCell c with
      | .error e => .error e
      | .ok none => .ok []
      | .ok (some (_, key)) => .ok [key])
  else (c.bitsWith k).foldr (fun j acc => match s.mapCell c j, acc with
    | .ok key, .ok l => .ok (key :: l)
    | .error e, _ => .error e
    | _, .error e => .error e) (.ok [])

/-! The events of a copy. -/

/-- Operations of the starting warp that the implicit release still waits for: accesses to be performed, and open acquires and fences (R247). -/
def State.stillBefore (s : State) (c : Copy) : Bool :=
  c.before.any (fun i => match Tab.look s.ops i with | some o => o.holds || o.accs.any (fun a => !a.done) | none => false)

/-- The implicit release of a copy start makes its next step (R168). -/
def State.copyRelease (s : State) (id : Nat) (c : Copy) : State :=
  if c.before.isEmpty || s.stillBefore c then s else
    let p := s.releaseAt (s.coreOfWarp c.warp) c.ctx c.sc
    { p.1 with copies := Tab.put p.1.copies id { c with before := [], acks := p.2 } }

/-- The release of a copy has completed. -/
def State.copyReady (s : State) (c : Copy) : Bool := c.before.isEmpty && s.acked c.acks

/-- The targets of all puts of a chunk, with their poison. -/
def State.allTargets (s : State) (c : Copy) : List Put → Except Stop (List (Target × Byte × Bool))
  | [] => .ok []
  | x :: xs =>
    match s.targets c x with
    | .error e => .error e
    | .ok ts =>
      match s.allTargets c xs with
      | .error e => .error e
      | .ok us => .ok (ts.map (fun t => (t.1, t.2, x.poison)) ++ us)

/-- The groups that a core has acknowledged to be leaving their personality (R287, R289). -/
def State.marked (s : State) (core : Nat) : List Nat :=
  (s.ogs.filter (fun e => (e.2.st == .quiescing || e.2.st == .draining) && e.2.acks.contains core)).map (·.1)

/-- What a chunk meets at the windows of its cells: one that has joined the map since the chunk was begun is a fault, one whose draining mark its core had acknowledged holds it until the window leaves (R289, R290), and so does a port that drops its frames (R324). -/
def State.windowStop (s : State) (c : Copy) (k : Nat) (keys : List Nat) : Option Stop :=
  match Tab.look c.begun k with
  | none => none
  | some (gen, late) =>
    let gs := (keys.filter (fun x => !isHbm x)).filterMap (fun x => (s.windowAt x).map (·.1))
    if gs.any (fun g => decide (gen < (s.ogAt g).joined)) then some .fault
    else if gs.any (fun g => late.contains g) || keys.any s.dropsFrame then some .hold
    else none

/-- The cells that a chunk would read and write now. -/
def State.chunkKeys (s : State) (c : Copy) (k : Nat) : List Nat :=
  match s.chunkOut c c.base0 k (c.inChunk c.base0 k) with
  | .error _ => []
  | .ok (puts, reads) =>
    let writes := match s.allTargets c puts with | .ok ts => ts.flatMap (fun t => t.1.keys) | .error _ => []
    let bits := match s.bitCells c k with | .ok l => l | .error _ => []
    reads ++ writes ++ bits

/-- BTE_CHUNK_START: once the copy's release and those of earlier copies on its channel have completed, a chunk task begins (R35, R168, R171). -/
def execBteChunkStart (copy chunk : Nat) (s : State) : Host.Outcome State Fault Refusal :=
  match Tab.look s.copies copy with
  | none => .next s
  | some c =>
    if !c.before.isEmpty then .next (s.copyRelease copy c)
    else
      let earlier := s.copies.all (fun e => decide (copy ≤ e.1) || e.2.ctx != c.ctx || e.2.chan != c.chan || s.copyReady e.2)
      if !s.copyReady c || !earlier || c.failed || c.started.contains chunk || !c.chunks.contains chunk then .next s
      else
        let core := s.coreOfWarp c.warp
        let c := { c with started := insertNat chunk c.started, begun := Tab.put c.begun chunk (s.mapGen.toNat, s.marked core) }
        .next (({ s with copies := Tab.put s.copies copy c }).countDrops (s.chunkKeys c chunk))

/-- A poisoned source is a fault into a tile or a peer window (R172). DEDUCED, unsafe (log 14). -/
def State.poisonFault (s : State) (c : Copy) (ts : List (Target × Byte)) : Bool :=
  c.dstTile.isSome || ts.any (fun e => match e.1 with
    | .cell k => !isHbm k && (match s.windowAt k with | some (_, w) => w.kind == .peer | none => false)
    | _ => false)

/-- The cell or scratch address of a target. -/
def Target.place : Target → Nat
  | .scratch a => a
  | .cell k => k
  | .shadow _ k => k

/-- Reduce-add of the elements of a chunk, one after another, each destination plus source in one step at the home: an element that an earlier one has just written starts from it (R169). -/
def State.addInto (s : State) (f : Slot) : Nat → Tab Byte → List (Target × Byte × Bool) → List (Target × Byte × Bool)
  | 0, _, _ => []
  | m + 1, now, ts =>
    let n := f.elemBytes
    let here := ts.take n
    let dst := bytesToNat (here.map (fun t => (Tab.look now t.1.place).getD (Tab.get 0 s.mem t.1.place)))
    let sum := natToBytes n (addElem f (s.draws + m) dst (bytesToNat (here.map (fun t => t.2.1))))
    let out := (here.zip sum).map (fun e => (e.1.1, e.2, e.1.2.2))
    out ++ s.addInto f m (out.foldl (fun w t => Tab.put w t.1.place t.2.1) now) (ts.drop n)

/-- What a chunk would do now: the state after it, or why it does not. DEDUCED, unsafe (log 48). -/
def State.runChunk (s : State) (c : Copy) (k : Nat) : Except Stop State :=
  match s.chunkOut c c.base0 k (c.inChunk c.base0 k) with
  | .error e => .error e
  | .ok (puts, reads) =>
    match s.allTargets c puts, s.bitCells c k with
    | .error e, _ => .error e
    | _, .error e => .error e
    | .ok ts, .ok bits =>
      let bad := ts.any (fun t => t.2.2)
      if bad && s.poisonFault c (ts.map (fun t => (t.1, t.2.1))) then .error .fault
      else if c.xform == 5 && ts.any (fun t => t.1.keys.any (fun k => !isHbm k)) then .error .fault
      else
        let writes := ts.flatMap (fun t => t.1.keys)
        let lines := reads ++ writes ++ bits
        match s.windowStop c k lines with
        | some e => .error e
        | none =>
        if lines.any (fun k => isHbm k && s.snooped (k / 64)) then .error .hold
        else
          let need := s.chunkSnoops reads (writes ++ bits)
          if !need.isEmpty then .ok { s with snoops := s.snoops ++ need }
          else
            let ts := if c.xform = 5 then s.addInto c.fmt ts.length [] ts else ts
            let s := (s.land c ts).copyNotice c writes
            match c.dstTile with
            | some n => s.tileBit c n k
            | none => s.mapBits c (c.bitsWith k)

/-- The chunk is done: it has made its writes, its snoops aside. -/
def State.chunkDone (s s' : State) (copy k : Nat) : State :=
  if s'.snoops.length != s.snoops.length then s' else
    match Tab.look s'.copies copy with
    | none => s'
    | some c =>
      let c := { c with doneChunks := (c.bitsWith k).foldl (fun l j => insertNat j l) c.doneChunks }
      if c.doneChunks.length = c.chunks.length ∧ c.srcTile.isNone then { s' with copies := Tab.del s'.copies copy }
      else { s' with copies := Tab.put s'.copies copy c }

/-- A chunk may complete: started, not done, its copy not failed; a tile's first write waits for nothing here, since words that name a tile read it as they issue (R174). -/
def Copy.openChunk (c : Copy) (k : Nat) : Bool := c.started.contains k && !c.doneChunks.contains k && !c.failed

/-- CHUNK_COMPLETE: every destination byte of the chunk is performed, then its bit is set (R171); then what waited for the workgroup's tiles is looked at. DESIGN CHOICE, safe (log 8). -/
def execChunkComplete (copy chunk : Nat) (s : State) : Host.Outcome State Fault Refusal :=
  match Tab.look s.copies copy with
  | none => .next s
  | some c =>
    if !c.openChunk chunk then .next s else
      match s.runChunk c chunk with
      | .error _ => .next s
      | .ok s' => .next ((s.chunkDone s' copy chunk).settleWg c.wg)

/-- The destination address of a chunk (R344). DEDUCED, unsafe (log 49). -/
def Copy.chunkVa (c : Copy) (k : Nat) : Nat := wrapAdd c.dst (c.base0 + ((512 * k : Nat) : Int))

/-- A failed copy is over: its remap entries are freed (R352). -/
def State.dropCopy (s : State) (id : Nat) (c : Copy) : State :=
  let x := s.ctxAt c.ctx
  let s := match s.remapOf c with
    | some r => s.setCtx c.ctx { x with remaps := x.remaps.filter (· != r) }
    | none => s
  { s with copies := Tab.del s.copies id }

/-- COPY_FAULT: a chunk that cannot complete ends its copy; the record goes to the core of the starting warp's workgroup, or waits for the core that restores the workgroup; the grid ends at once where the copy is remapped, or the workgroup is gone (R172, R345, R352). DEDUCED, unsafe (log 19). DEDUCED, safe (log 54). -/
def execCopyFault (copy chunk : Nat) (s : State) : Host.Outcome State Fault Refusal :=
  match Tab.look s.copies copy with
  | none => .next s
  | some c =>
    if !c.openChunk chunk then .next s else
      match s.runChunk c chunk with
      | .error .fault =>
        let s := s.dropCopy copy c
        (match Tab.look s.wgs c.wg, Tab.look s.clusters c.cluster with
          | some wg, some cl =>
            let r : TrapRec := {
              core := wg.core, warp := none, wgKey := c.wg, pc := c.pc, exec := 0, live := 0, causes := [(causeCopyFault, 0)], ctx := c.ctx,
              origin := 2, splitB := false, fetch := false, wid := c.warp % 32, wgid := wg.wgid, clid := cl.clid,
              detail := BitVec.ofNat 64 (c.chunkVa chunk), clock := s.clockAt wg.core, dbg := false, queued := false }
            if cl.st.onCore then .next (s.addRec r)
            else if c.dstTile.isSome then .next (s.endGrid c.grid 10 causeCopyFault)
            else .next { s with nextId := s.nextId + 1, recs := Tab.put s.recs s.nextId r }
          | _, _ => .next (s.endGrid c.grid 10 causeCopyFault))
      | _ => .next s

/-- TILE_DRAIN_DONE: the copy has read every source byte; its source tile is EMPTY, its bitmap cleared (R174). -/
def execTileDrainDone (copy : Nat) (s : State) : Host.Outcome State Fault Refusal :=
  match Tab.look s.copies copy with
  | none => .next s
  | some c =>
    match c.srcTile with
    | none => .next s
    | some n =>
      if c.doneChunks.length ≠ c.chunks.length then .next s else
        let s := { s with copies := Tab.del s.copies copy }
        let s := s.setTileAt c.wg n (fun t => if t.st == .draining then { t with st := .empty, bits := 0 } else t)
        .next ((s.tileWake c.wg n).settleWg c.wg)

/-! PUBLISH. -/

/-- The cell page that backs each 4 KiB page of a window now. -/
def State.windowPages (s : State) (c v : Nat) : List Nat :=
  (List.range 16).map (fun i => match s.walk c (65536 * v + 4096 * i) with | .ok t => cellOf t.pa / 4096 | .error _ => 0)

/-- The page-table entry that each 4 KiB page of a window has now, the switches of earlier PUBLISHes aside. -/
def State.windowLeaves (s : State) (c v : Nat) : List Nat :=
  let x := s.ctxAt c
  (List.range 16).map (fun i =>
    match walkFrom s (s.partAt x.part.toNat) (some c) (65536 * v + 4096 * i) 4 (x.ptb.toNat * 4096) with
    | .ok (lf, _) => lf.e
    | .error _ => 0)

/-- The host addresses a window by the same pages as before a PUBLISH: its page and the shadow page change places (R180). DEDUCED, unsafe (log 89). -/
def State.swapHost (s : State) (a b : Nat) : State :=
  { s with hostMap :=
      let m := fun p => (Tab.look s.hostMap p).getD p
      let seen := sortNats (a :: b :: s.hostMap.map (·.1))
      seen.filterMap (fun p => let q := if m p = a then b else if m p = b then a else m p; if q = p then none else some (p, q)) }

/-- One set of shadow pages becomes its window: bytes that no shadow copy wrote take their live value, and the window's translation becomes its shadow page (R39, R179). DEDUCED, unsafe (log 32). -/
def State.switchSet (s : State) (c : Nat) (sh : Shadow) : State :=
  let old := s.windowPages c sh.va
  let leaves := s.windowLeaves c sh.va
  let cell := fun (ps : List Nat) (o : Nat) => 4096 * ps.getD (o / 4096) 0 + o % 4096
  let s := (List.range 65536).foldl (fun s o => if sh.written.contains o then s else
    let s := s.writeHome (cell sh.page o) [Tab.get 0 s.mem (cell old o)]
    if s.homePoisoned (cell old o) then s.poisonCell (cell sh.page o) else s) s
  let s := (old.zip sh.page).foldl (fun s e => s.swapHost e.1 e.2) s
  let x := s.ctxAt c
  s.setCtx c { x with
    shadows := x.shadows.filter (· != sh)
    published := Tab.put x.published sh.va sh.page
    pubLeaf := Tab.put x.pubLeaf sh.va leaves
    retired := x.retired ++ [{ page := old, succ := sh.page, gen := x.mapgen.toNat }] }

/-- The sets of shadow pages of a window that a PUBLISH switches: those closed when it issued, the oldest first (R179). -/
def Ctx.setsFor (x : Ctx) (op v : Nat) : List Shadow :=
  x.shadows.filter (fun e => e.va == v && (match e.closed with | some k => decide (k ≤ op) | none => false))

/-- One window of a PUBLISH. -/
def State.switchWindow (s : State) (c op v : Nat) : State :=
  ((s.ctxAt c).setsFor op v).foldl (fun s sh => s.switchSet c sh) s

/-- The windows of a PUBLISH that have shadow pages. -/
def State.shadowed (s : State) (c op va n : Nat) : List Nat :=
  ((List.range n).map (fun i => va / 65536 + i)).filter (fun v => !((s.ctxAt c).setsFor op v).isEmpty)

/-- Home monitors on words whose page changes follow it and read the word there: the change of page is a write to its bytes (R163, R244). -/
def State.moveMons (s : State) (c : Nat) (pages : List (Nat × Nat)) : State :=
  { s with mons := s.mons.map (fun (e : Nat × Mon) =>
      match pages.find? (fun p => p.1 == e.2.key / 4096) with
      | some p =>
        if e.2.ctx == c && !e.2.scr then
          let m := { e.2 with key := 4096 * p.2 + e.2.key % 4096 }
          (e.1, if m.armed then { m with seen := m.seen ++ [homeWord s m] } else m)
        else e
      | none => e) }

/-- PUBLISH_SWITCH: once the release is complete and the shadow copies are done, host copies of the old pages are called back, then every named window switches in one step, and the PUBLISH completes (R179, R180, R334). -/
def execPublishSwitch (op : Nat) (s : State) : Host.Outcome State Fault Refusal :=
  match Tab.look s.ops op with
  | none => .next s
  | some o =>
    match o.kind with
    | .publish va n copies true =>
      if !s.acked o.acks || copies.any (fun i => (Tab.look s.copies i).isSome) then .next s else
        let c := o.ctx
        let vs := s.shadowed c op va n
        let sets := vs.flatMap (fun v => (s.ctxAt c).setsFor op v)
        let pages := vs.flatMap (s.windowPages c) ++ sets.flatMap Shadow.page
        let inOld := fun (line : Nat) => pages.contains (line / 64)
        if s.snoops.any (fun x => inOld x.line) then .next s
        else
          let held := (s.hostDir.filter (fun e => inOld e.1)).map (·.1)
          if !held.isEmpty then .next { s with snoops := s.snoops ++ held.map (fun l => { line := l, inv := true, flip := false }) }
          else
            let last := vs.flatMap (fun v => (s.windowPages c v).zip ((((s.ctxAt c).setsFor op v).getLast?.map Shadow.page).getD []))
            let s := (vs.foldl (fun s v => s.switchWindow c op v) s).moveMons c last
            let x := s.ctxAt c
            let s := (s.setCtx c { x with mapgen := x.mapgen + 1 }).dropTlb c (fun p => vs.contains (p / 16))
            let s := { s with clusters := Tab.mod s.clusters (o.warp / 256) (fun cl => { cl with published := true }) }
            .next ((s.release o.warp o.lanes).settleWg (o.warp / 32))
    | _ => .next s

/-- Every access translated under an old generation has completed (R251). -/
def State.oldDone (s : State) (c gen : Nat) : Bool :=
  s.ops.all (fun e => e.2.ctx != c || e.2.accs.all (fun a => a.done || decide (gen < a.gen)))

/-- PAGE_RETIRE: a retired page leaves the dies, diffs of T sectors going to its successor, and rejoins the pool when nothing of it is left (R251, R263). -/
def execPageRetire (ctx page : Nat) (s : State) : Host.Outcome State Fault Refusal :=
  let x := s.ctxAt ctx
  match x.retired.find? (fun r => r.page.headD 0 == page) with
  | none => .next s
  | some r =>
    if !s.oldDone ctx r.gen then .next s else
      let there := fun (t : Nat) => tagCtx t == ctx && r.page.contains (tagSector t / 64)
      let s := s.dropL1All there
      let s := s.dies.foldl (fun s e => (List.range 3).foldl (fun s u => s.flushUnit (24 * e.1 + 8 * u) ctx) s) s
      let s := s.dies.foldl (fun s e => ((e.2.l2.filter (fun t => there t.1)).map (·.1)).foldl (fun s t => s.releaseDrop e.1 t) s) s
      let busy := s.pkts.any (fun e => e.2.ctx == ctx && r.page.contains (e.2.sector / 64)) ||
        s.dies.any (fun e => e.2.l2.any (fun t => there t.1))
      if busy then .next s else
        let x := s.ctxAt ctx
        .next (s.setCtx ctx { x with retired := x.retired.filter (· != r), freePages := x.freePages ++ [r.page] })

end Sys2Proof.Machine
end

