-- ==== Sys2Proof/Machine/Lane.lean ====
section
/-! DEFINITION. The lane exchanges of class 4 (R112-R116): sources are read at issue, results written at completion (R28). -/

namespace Sys2Proof.Machine

/-- A lane exchange issues with one result for each enabled lane. -/
def Run.exchange (r : Run) (fsel : Bool) (dest : Dest) (f : Nat → W64) : State :=
  r.launch (r.newOp fsel (.regs dest false ((maskLanes r.en).map (fun l => (l, f l))) []))

/-- Register a of lane j as it stands, whatever lane j does (R112). -/
def Run.laneReg (r : Run) (a : BitVec 8) (j : Nat) : W32 := r.v.w.readV (r.n + 256 + j) a.toNat j

/-- A shuffle by a source-lane function; threads whose source register is poisoned raise poison-consumed (R357). -/
def shuffle (i : Instr) (h : Head) (fsel : Bool) (regs : List Nat) (d a : BitVec 8) (own : List Nat) (src : Run → Nat → Nat)
    (s : State) : Host.Outcome State Fault Refusal :=
  runWarp i h (Pre.long fsel regs) s (fun r =>
    let bad := maskOf (fun l => inMask r.en l && (own.any (fun x => r.v.w.vPoison.contains (32 * x + l))
      || r.v.w.vPoison.contains (32 * a.toNat + src r l)))
    if bad ≠ 0 then r.trapPoisonReg bad else
      r.exchange fsel (.v d.toNat) (fun l => (r.laneReg a (src r l)).setWidth 64))

def execShflXor (h : Head) (fsel : Bool) (d a : BitVec 8) (n : BitVec 5) (s : State) : Host.Outcome State Fault Refusal :=
  shuffle (.shflXor h fsel d a n) h fsel [d.toNat, a.toNat] d a [] (fun _ l => l ^^^ n.toNat) s

/-- Below lane 0, a thread receives its own a. -/
def execShflUp (h : Head) (fsel : Bool) (d a : BitVec 8) (n : BitVec 5) (s : State) : Host.Outcome State Fault Refusal :=
  shuffle (.shflUp h fsel d a n) h fsel [d.toNat, a.toNat] d a [] (fun _ l => if l < n.toNat then l else l - n.toNat) s

/-- Above lane 31, a thread receives its own a. -/
def execShflDown (h : Head) (fsel : Bool) (d a : BitVec 8) (n : BitVec 5) (s : State) : Host.Outcome State Fault Refusal :=
  shuffle (.shflDown h fsel d a n) h fsel [d.toNat, a.toNat] d a [] (fun _ l => if 31 < l + n.toNat then l else l + n.toNat) s

def execShflIdx (h : Head) (fsel : Bool) (d a : BitVec 8) (n : BitVec 5) (s : State) : Host.Outcome State Fault Refusal :=
  shuffle (.shflIdx h fsel d a n) h fsel [d.toNat, a.toNat] d a [] (fun _ _ => n.toNat) s

/-- The source lane is VB(t)[4:0]. -/
def execShflIdxReg (h : Head) (fsel : Bool) (d a b : BitVec 8) (s : State) : Host.Outcome State Fault Refusal :=
  shuffle (.shflIdxReg h fsel d a b) h fsel [d.toNat, a.toNat, b.toNat] d a [b.toNat]
    (fun r l => (r.v.w.readV (r.n + 512 + l) b.toNat l).toNat % 32) s

/-- Lane l's contribution to a vote: its predicate when enabled, else false (R113). -/
def Run.ballot (r : Run) (pa : BitVec 3) : Mask :=
  maskOf (fun l => inMask r.en l && r.v.w.readP (r.n + 256 + l) pa.toNat l)

def execVoteAll (h : Head) (fsel : Bool) (pd pa : BitVec 3) (s : State) : Host.Outcome State Fault Refusal :=
  runWarp (.voteAll h fsel pd pa) h (Pre.long fsel []) s (fun r =>
    r.exchange fsel (.p pd.toNat) (fun _ => if r.ballot pa = BitVec.allOnes 32 then 1 else 0))

def execVoteAny (h : Head) (fsel : Bool) (pd pa : BitVec 3) (s : State) : Host.Outcome State Fault Refusal :=
  runWarp (.voteAny h fsel pd pa) h (Pre.long fsel []) s (fun r =>
    r.exchange fsel (.p pd.toNat) (fun _ => if r.ballot pa ≠ 0 then 1 else 0))

/-- Written once for the split: bit l is lane l's contribution. -/
def execVoteBallot (h : Head) (fsel : Bool) (sd : BitVec 6) (pa : BitVec 3) (s : State) : Host.Outcome State Fault Refusal :=
  runWarp (.voteBallot h fsel sd pa) h (Pre.long fsel []) s (fun r =>
    r.exchange fsel (.s sd.toNat) (fun _ => (r.ballot pa).setWidth 64))

/-- One step of a fold (R115). -/
def foldFun : FoldOp → W32 → W32 → W32
  | .add => fun x y => x + y
  | .min => minS
  | .max => maxS
  | .minu => minU
  | .maxu => maxU
  | .and => fun x y => x &&& y
  | .or => fun x y => x ||| y
  | .xor => fun x y => x ^^^ y

/-- The exclusive result in lane 0 (R115). -/
def foldUnit : FoldOp → W32
  | .min => 0x7FFFFFFF#32
  | .max => 0x80000000#32
  | .minu => 0xFFFFFFFF#32
  | .and => 0xFFFFFFFF#32
  | _ => 0

/-- The fold of the contributions of the first n lanes, ascending: 0 from a lane not enabled (R113). -/
def Run.foldLanes (r : Run) (op : FoldOp) (a : BitVec 8) (n : Nat) : W32 :=
  (List.range n).foldl (fun x l => foldFun op x (if inMask r.en l then r.laneReg a l else 0)) (foldUnit op)

def execScan (h : Head) (fsel : Bool) (op : FoldOp) (incl : Bool) (d a : BitVec 8) (s : State) : Host.Outcome State Fault Refusal :=
  runWarp (.scan h fsel op incl d a) h (Pre.long fsel [d.toNat, a.toNat]) s (fun r =>
    let bad := r.poisoned [a.toNat]
    if bad ≠ 0 then r.trapPoisonReg bad else
      r.exchange fsel (.v d.toNat) (fun l => (r.foldLanes op a (if incl then l + 1 else l)).setWidth 64))

/-- Over all 32 lanes; sign-extended for min and max, zero-extended for the rest (R116). -/
def execRedux (h : Head) (fsel : Bool) (op : FoldOp) (sd : BitVec 6) (a : BitVec 8) (s : State) : Host.Outcome State Fault Refusal :=
  runWarp (.redux h fsel op sd a) h (Pre.long fsel [a.toNat]) s (fun r =>
    let bad := r.poisoned [a.toNat]
    if bad ≠ 0 then r.trapPoisonReg bad else
      let x := r.foldLanes op a 32
      r.exchange fsel (.s sd.toNat) (fun _ => if op = .min ∨ op = .max then x.signExtend 64 else x.setWidth 64))

end Sys2Proof.Machine
end

