-- ==== Sys2Proof/Machine/Pack.lean ====
section
/-! DEFINITION. Packing into planes and unpacking from them by warps (R198, R199). -/

namespace Sys2Proof.Machine

/-- A slot that PACKP and UNPACKP do not accept (R198). -/
def Slot.badPlanes (f : Slot) : Bool :=
  f.fmt == 3 || f.fmt == 7 || f.fmt == 8 || f.fmt == 18 || (decide (9 ≤ f.fmt ∧ f.fmt ≤ 13) && f.planes == 1)

/-- The plane-word addresses of one row of one block, after its scale address (R185, R198). -/
def planeSites (f : Slot) (b row : Nat) : List (Nat × Nat) :=
  (f.scaleAddr (b + 16 * row), 1) :: (List.range f.planes).map (fun j => (b + 4096 * j + 16 * row, 4))

/-- The checks of R198 and R357 on scratch reads: the site of a thread, its lowest cause. -/
def Run.planeSite (r : Run) (f : Slot) (fs : BitVec 3) (b row : Nat) (reads : List (Nat × Nat)) : Site :=
  let xs := planeSites f b row
  if b % 4 ≠ 0 then .bad causeMisaligned (BitVec.ofNat 64 b)
  else match xs.find? (fun e => decide (r.v.g.scrBytes < e.1 + e.2)) with
    | some e => .bad causeScratch (BitVec.ofNat 64 e.1)
    | none =>
      if f.badPlanes then .bad causeSlot (fs.setWidth 64)
      else match reads.find? (fun e => r.v.wg.scrPoison.contains (e.1 / 8)) with
        | some e => .bad causePoison (BitVec.ofNat 64 (e.1 / 8 * 8))
        | none => .ok b b

/-- An access of the whole split to scratch. -/
def planeAccess (e : Nat × Nat) : Access :=
  { lane := 32, va := e.1, pa := e.1, size := e.2, data := [], swp := [], done := false, res := [], pkt := none, gen := 0 }

/-- packp a, s, fsn, r (R198). -/
def execPackp (h : Head) (fsel : Bool) (a : Src) (ss : BitVec 6) (fs : BitVec 3) (row : BitVec 8) (s : State) : Host.Outcome State Fault Refusal :=
  let os := [Opnd.r32 a]
  runWarp (.packp h fsel a ss fs row) h { Pre.long fsel (os.flatMap Opnd.regs) with pop := os.any Opnd.isQa } s (fun r =>
    let f := slotOf (r.v.g.slotWord fs.toNat)
    let b := (r.scalar 2 ss).toNat
    let xs := planeSites f b row.toNat
    let site := r.planeSite f fs b row.toNat (if f.isBlock then xs.take 1 else [])
    let poison := r.poisoned (os.flatMap Opnd.reads)
    r.withSites false (onceSites r.en site) (fun r =>
      if poison ≠ 0 then r.trapPoisonReg poison else
        let elems := lanes32.map (fun l => if inMask r.en l then some (r.value 1 l (.r32 a)).toNat else none)
        (r.memOp fsel (.pack (r.v.g.slotWord fs.toNat) elems) .wg .scr (xs.map planeAccess)).popQa r.v.wgKey (os.any Opnd.isQa)))

/-- unpackp d, s, fsn, r (R199). -/
def execUnpackp (h : Head) (fsel : Bool) (d : BitVec 8) (ss : BitVec 6) (fs : BitVec 3) (row : BitVec 8) (s : State) : Host.Outcome State Fault Refusal :=
  runWarp (.unpackp h fsel d ss fs row) h (Pre.long fsel [d.toNat]) s (fun r =>
    let f := slotOf (r.v.g.slotWord fs.toNat)
    let b := (r.scalar 2 ss).toNat
    let xs := planeSites f b row.toNat
    r.withSites false (onceSites r.en (r.planeSite f fs b row.toNat xs)) (fun r =>
      r.memOp fsel (.unpack (r.v.g.slotWord fs.toNat) d.toNat) .wg .scr (xs.map planeAccess)))

end Sys2Proof.Machine
end

