-- ==== Sys2Proof/Machine/Events.lean ====
section
/-! DEFINITION. What happens after a word has issued: accesses are performed, operations complete, monitors wake, diffs travel, and hopeless waits are found (R28, R132, R163, R214, R256, R261, R304, R315). An event that is not due leaves the state as it is. -/

namespace Sys2Proof.Machine

/-! Completion and performing. -/

/-- A split held at a word goes on past it (R135). -/
def State.unholdAll (s : State) (op warp : Nat) : State :=
  s.modWarp warp (fun w => w.modThreads (w.those (fun t => t.st == .parked (.held op))) (fun t => t.pass.wake))

/-- LONG_LATENCY_COMPLETION: lanes of an operation complete, or an ordering operation makes its next step (R28, R80, R153-R156, R179). No lane completes while an access of the word may still be cancelled (R135, R287). -/
def execLongLatencyCompletion (op : Nat) (lanes : Mask) (s : State) : Host.Outcome State Fault Refusal :=
  match Tab.look s.ops op with
  | none => .next s
  | some o =>
    let s := match o.kind with
      | .parked _ => s
      | .publish _ _ _ false => s.orderStep op o
      | .publish _ _ _ true => s
      | .rel _ => s.orderStep op o
      | .acq _ => s.orderStep op o
      | .fence _ => s.orderStep op o
      | .relN _ _ _ _ _ => s.orderStep op o
      | .cctl _ _ _ => s.orderStep op o
      | _ => if o.space == Space.glob && o.accs.any s.mayCancel then s else s.completeLanes op o lanes
    let s := if (Tab.look s.ops op).isNone then s.unholdAll op o.warp else s
    .next (s.settleWg (o.warp / 32))

/-- Splits held at a word whose accesses could be cancelled go on once they are performed (R135). -/
def State.unhold_ (s : State) (op : Nat) (o : Op) : State :=
  if o.accs.all Access.done then s.unholdAll op o.warp else s

/-- ACCESS_PERFORM: one access is performed at its unit, if it may be (R132, R136, R243). DESIGN CHOICE, safe (log 8). -/
def execAccessPerform (op idx : Nat) (s : State) : Host.Outcome State Fault Refusal :=
  match s.performAccess op idx with
  | none => .next s
  | some s =>
    match Tab.look s.ops op with
    | none => .next s
    | some o =>
      let s := s.unhold_ op o
      let s := if o.left = 0 ∧ o.accs.all Access.done then { s with ops := Tab.del s.ops op } else s
      .next (s.settleWg (o.warp / 32))

/-! Faults by detection. -/

/-- WATCHDOG_FAULT: the grid of a warp whose budget was exceeded ends with code 10 (R304, R344). -/
def execWatchdogFault (warp : Nat) (s : State) : Host.Outcome State Fault Refusal :=
  match s.view warp with
  | none => .next s
  | some v =>
    if s.recs.any (fun e => e.2.warp == some warp && e.2.cause 0 == causeWatchdog) then .next (s.endGrid v.gKey 10 causeWatchdog)
    else .next s

/-- QUOTA_TRANSFER_APPLY: a collective whose arrivals are complete applies its pending transfers once both warps' counters are zero (R214). DESIGN CHOICE, safe (log 25). -/
def execQuotaTransferApply (wg : Nat) (s : State) : Host.Outcome State Fault Refusal :=
  .next (s.settle true wg)

/-- A wait of R315's first condition, and its DETAIL: the barrier number or the word's address. DEDUCED, safe (log 52). -/
def Thread.hopeless (t : Thread) : Option W64 :=
  match t.st with
  | .parked (.bar n) => some (BitVec.ofNat 64 n)
  | .parked .tbar => some (BitVec.ofNat 64 t.pc)
  | .parked .tcall => some (BitVec.ofNat 64 t.pc)
  | .parked .tret => some (BitVec.ofNat 64 t.pc)
  | .parked .rejoin => some (BitVec.ofNat 64 t.pc)
  | _ => none

/-- Every live thread of the workgroup waits for its own threads, and no completion is still to come: no access of theirs outstanding, no counter still to fall (R315). DEDUCED, safe (log 52). -/
def State.deadlocked (s : State) (wgKey : Nat) : Bool :=
  let ws := s.warpsOf wgKey
  ws.any (fun e => e.2.liveMask != 0) &&
    ws.all (fun e => (List.range 32).all (fun l => let t := e.2.thread l; !t.live || t.hopeless.isSome)) &&
    ws.all (fun e => s.idleFlags e.1 && !s.pending e.1 (BitVec.allOnes 32)) &&
    s.settle true wgKey == s

/-- WORKGROUP_DEADLOCK: the fault in every parked thread, one record for each warp and word (R315, R369). -/
def execWorkgroupDeadlock (wg : Nat) (s : State) : Host.Outcome State Fault Refusal :=
  if !s.deadlocked wg then .next s else
    .next ((s.warpsOf wg).foldl (fun s e =>
      match s.view e.1 with
      | none => s
      | some v =>
        s.raiseParked v v.w.liveMask causeDeadlock (fun pc =>
          (((List.range 32).findSome? (fun l => let t := v.w.thread l; if t.live && t.pc == pc then t.hopeless else none)).getD 0))) s)

/-! Monitors. -/

/-- MONITOR_WAKE: a value sent to a monitor is tested; a satisfying one ends the wait (R163, R177). The monitor of a warp that is saved keeps only what satisfies it (R314). -/
def execMonitorWake (mon : Nat) (s : State) : Host.Outcome State Fault Refusal :=
  match Tab.look s.mons mon with
  | none => .next s
  | some m =>
    match m.seen with
    | [] => .next s
    | v :: rest =>
      let here := match Tab.look s.clusters (m.warp / 256) with | some c => c.st == .resident | none => false
      if !here then
        (if m.holds v then .next s else .next { s with mons := Tab.put s.mons mon { m with seen := rest } })
      else if m.holds v then
        let s := { s with mons := Tab.del s.mons mon, clusters := Tab.mod s.clusters (m.warp / 256) (fun c => { c with wokeAt := s.clock.toNat }) }
        let mask := match Tab.look s.warps m.warp with
          | some w => w.those (fun t => t.st == .parked (.monitor mon))
          | none => 0
        .next ((s.release m.warp mask).settleWg (m.warp / 32))
      else .next { s with mons := Tab.put s.mons mon { m with seen := rest } }

/-- MONITOR_ENTRY_ARM: a monitor that waited for a place, for its page or for earlier accesses is armed and reads its word (R163, R270). -/
def execMonitorEntryArm (mon : Nat) (s : State) : Host.Outcome State Fault Refusal := .next (s.armMon mon)

/-! Diffs and handoffs. -/

/-- DIFF_APPLY: the home applies a packet that is first of its die there (R256). -/
def execDiffApply (pkt : Nat) (s : State) : Host.Outcome State Fault Refusal :=
  match Tab.look s.pkts pkt with
  | none => .next s
  | some p => if p.applied || !s.packetFirst pkt p then .next s else .next (s.applyPacket pkt p)

/-- DIFF_ACK: the acknowledgement arrives at the sending die (R153, R256). -/
def execDiffAck (pkt : Nat) (s : State) : Host.Outcome State Fault Refusal :=
  match Tab.look s.pkts pkt with
  | none => .next s
  | some p => if p.applied then .next (s.ackPacket pkt p) else .next s

/-- A sector that the die holds is to leave at its next acquire, as the notices that this one skips would have it (R156). -/
def State.sweepLater (s : State) (die tag : Nat) : State :=
  let d := s.dieAt die
  if (Tab.look d.l2 tag).isSome then s.setDie die { d with left := tag :: d.left.filter (· != tag) } else s

/-- A packet of a handoff list patches the die's C sector (R261). A sector in T, one whose bytes have changed since the release, and one that the packet poisons are not patched; they leave at the acquire, so that every load result is that without the handoff (R156). DEDUCED, safe (log 36). -/
def State.patchC (s : State) (die stamp : Nat) (p : Packet) : State :=
  let tag := p.ctx * 2 ^ 52 + p.sector
  match Tab.look (s.dieAt die).l2 tag with
  | some x =>
    if x.twin.isSome || decide (stamp ≤ x.fresh) || p.pz then s.sweepLater die tag
    else s.setL2 die tag { x with data := p.runs.foldl (fun d r => patch d r.1 r.2) x.data }
  | none => s

/-- LOCK_HANDOFF_RECEIVE: the die applies the list, its next acquire skips the list's notices, and its monitors receive the value (R156, R261). DEDUCED, safe (log 36). -/
def execLockHandoffReceive (msg : Nat) (s : State) : Host.Outcome State Fault Refusal :=
  match Tab.look s.handoffs msg with
  | none => .next s
  | some h =>
    let s := { s with handoffs := Tab.del s.handoffs msg }
    let l := h.list.getD []
    let s := l.foldl (fun (s : State) (p : Packet) => s.patchC h.die h.stamp p) s
    let s := match l with
      | [] => s
      | (p : Packet) :: _ => h.more.foldl (fun (s : State) x => s.sweepLater h.die (p.ctx * 2 ^ 52 + x)) s
    let d := s.dieAt h.die
    let s := s.setDie h.die { d with skips := d.skips ++ l.map (fun (p : Packet) => (p.ctx, p.die, p.seq)) }
    .next { s with mons := s.mons.map (fun (e : Nat × Mon) => if h.mons.contains e.1 then (e.1, { e.2 with seen := e.2.seen ++ [h.value] }) else e) }

end Sys2Proof.Machine
end

