-- ==== Sys2Proof/Machine/Save.lean ====
section
/-! DEFINITION. Clusters that come and go: placement on request (R297), the save (R165, R304, R313, R314, R350-R352) and the restore (R353). -/

namespace Sys2Proof.Machine

/-! The save. -/

/-- An operation of a word that waits after its issue, which the save withdraws (R165). -/
def Op.isWait (o : Op) : Bool :=
  match o.kind with
  | .parked _ => true
  | .publish _ _ _ _ => true
  | _ => false

/-- The warps of a cluster. -/
def State.warpsIn (s : State) (cluster : Nat) : List (Nat × Warp) := s.warps.filter (fun e => e.1 / 256 == cluster)
def State.wgsIn (s : State) (cluster : Nat) : List (Nat × Wg) := s.wgs.filter (fun e => e.1 / 8 == cluster)

/-- Tiles of a workgroup that are being filled. -/
def Wg.filling (wg : Wg) : List (Nat × Tile) := wg.tiles.filter (fun e => e.2.st == .filling)

/-- The sequencer can be saved: it is on no record, and has completed its current word, or waits in an ACCQ for room in qa (R184, R206). -/
def Wg.seqReady (wg : Wg) : Bool :=
  match wg.seq with
  | some q => (match q.st with | .parked _ => false | _ => true) && (q.accqPos == 0 || decide (128 ≤ wg.qa.length))
  | none => true

/-- Every warp and sequencer of the cluster can be saved: the warps pass a test, their threads are ready or at yield points, and no operation is left but words that the save withdraws, so that the counters are zero without those (R80, R165, R350). -/
def State.saveReady (s : State) (cluster : Nat) (p : Warp → Bool) : Bool :=
  (s.warpsIn cluster).all (fun e => p e.2 && (List.range 32).all (fun l => (e.2.thread l).isReady || s.atYield (e.2.thread l))) &&
    s.ops.all (fun e => e.2.warp / 256 != cluster || e.2.isWait) &&
    (s.wgsIn cluster).all (fun e => e.2.seqReady)

/-- Step 2 of R350: no tile of the cluster is DRAINING. -/
def State.drained (s : State) (cluster : Nat) : Bool :=
  (s.wgsIn cluster).all (fun e => !e.2.tiles.any (fun t => t.2.st == .draining))

/-- A thread whose wait is withdrawn: at its word, ready to issue it again; arrivals at collectives stay (R131, R165). -/
def Thread.withdraw (t : Thread) : Thread :=
  match t.st with
  | .parked (.bar n) => { t with st := .ready, again := t.arrived.getLsbD n && !t.owed.getLsbD n }
  | .parked .tbar => t
  | .parked .tcall => t
  | .parked .tret => t
  | .parked .rejoin => t
  | .parked .brk => t
  | .parked (.record _) => t
  | .parked _ => { t with st := .ready }
  | _ => t

/-- Waits of the cluster's warps are withdrawn and their counters lowered; monitors of a swapped-out cluster stay registered (R165, R314). -/
def State.withdraw (s : State) (cluster : Nat) (keepMons : Bool) : State :=
  let mine := s.ops.filter (fun e => e.2.warp / 256 == cluster)
  let s := mine.foldl (fun s e => s.modWarp e.2.warp (fun w => if e.2.counted then w.lowerFlag e.2.flag else w)) s
  { s with
    ops := s.ops.filter (fun e => e.2.warp / 256 != cluster)
    mons := if keepMons then s.mons else s.mons.filter (fun e => e.2.warp / 256 != cluster)
    warps := s.warps.map (fun (e : Nat × Warp) => if e.1 / 256 = cluster then
      (e.1, { (e.2.modThreads (BitVec.allOnes 32) Thread.withdraw) with
        pair := none, coS := none, frozen := none, marked := false, saved := false, hazards := [],
        watched := (s.mons.filter (fun m => m.2.warp == e.1 && !m.2.scr)).map (fun m => m.2.key) }) else e)
    cur := match s.cur with
      | some (.warp k) => if k / 256 = cluster then none else s.cur
      | some (.seq k) => if k / 8 = cluster then none else s.cur
      | none => none }

/-- Step 1 of R350: waits are withdrawn. -/
def State.beginSave (s : State) (cluster : Nat) (cl : Cluster) (swap : Bool) : State :=
  (s.withdraw cluster swap).setCluster cluster { cl with st := .saving, marked := false, swapped := swap }

/-- Step 3 of R350: the die's release, the cores' L1 copies dropped. -/
def State.releaseSave (s : State) (cluster : Nat) (cl : Cluster) (c : Nat) : State :=
  let cores := (s.wgsIn cluster).map (fun e => e.2.core)
  let s := (List.range 8).foldl (fun s i => s.flushUnit (24 * cl.die + 8 * cl.group + i) c) s
  let s := (s.releaseDie cl.die c).1
  let s := cores.foldl (fun s k => s.dropL1 k (fun t => tagCtx t == c)) s
  s.setCluster cluster { cl with st := .releasing }

/-- Bytes of one workgroup's section of a frame (R351). -/
def Grid.sectionBytes (g : Grid) : Nat :=
  512 + g.scrBytes + 16384 * g.accn + 32 * g.tilen + 64 * g.teamn + 18432 +
    (if g.mstream = 0 then 0 else 26624) + g.nwarps * (1024 + 128 * (8 * g.regq))

/-- Where a workgroup's scratch image and a tile's image stand (R351). -/
def Grid.scratchImage (g : Grid) (frame wgid : Nat) : Nat := frame + 256 + wgid * g.sectionBytes + 512
def Grid.tileImage (g : Grid) (frame wgid n : Nat) : Nat :=
  g.scratchImage frame wgid + g.scrBytes + 16384 * g.accn + 32 * n

/-- The code of a tile state in an image (R352). -/
def TileSt.code : TileSt → Nat
  | .empty => 0 | .filling => 1 | .ready => 2 | .draining => 3

def tileStOf (n : Nat) : TileSt := match n with | 0 => .empty | 1 => .filling | 2 => .ready | _ => .draining

/-- The 32 bytes of a tile image (R352). -/
def Tile.image (t : Tile) : List Byte :=
  natToBytes 8 (t.count * 2 ^ 56 + t.st.code * 2 ^ 54 + t.base) ++ natToBytes 8 0 ++ natToBytes 16 t.bits.toNat

/-- A tile from its image: state and bitmap (R353). -/
def Tile.load (t : Tile) (bs : List Byte) : Tile :=
  { t with st := tileStOf ((bytesToNat (bs.take 8)) / 2 ^ 54 % 4), bits := BitVec.ofNat 128 (bytesToNat (bs.drop 16)) }

/-- Bytes read from an address on; 0 where they cannot be read. -/
def State.unitGet (s : State) (c va n : Nat) : List Byte :=
  (List.range n).map (fun i => match s.unitSite c .read (va + i) with
    | .ok key => (s.portRead key 1).headD 0
    | .error _ => 0)

/-- Where the parts of a workgroup's section stand (R351): accumulators, team table, queues, sequencer, and the first warp. -/
def Grid.accImage (g : Grid) (frame wgid : Nat) : Nat := g.scratchImage frame wgid + g.scrBytes
def Grid.teamImage (g : Grid) (frame wgid : Nat) : Nat := g.tileImage frame wgid g.tilen
def Grid.queueImage (g : Grid) (frame wgid : Nat) : Nat := g.teamImage frame wgid + 64 * g.teamn
def Grid.warpsImage (g : Grid) (frame wgid : Nat) : Nat := g.queueImage frame wgid + 18432 + (if g.mstream = 0 then 0 else 26624)

/-- Where a warp's part stands: after those of the warps before it, each of 1024 bytes and its quota of registers (R351). -/
def State.warpImage (s : State) (g : Grid) (frame wgKey wgid wid : Nat) : Nat :=
  g.warpsImage frame wgid +
    (((s.warpsOf wgKey).filter (fun e => decide (e.2.wid < wid))).map (fun e => 1024 + 128 * e.2.quota)).sum

/-- Words of 32 bits as bytes, one for each key from a first one on; and back. -/
def wordBytes (t : Tab W32) (first n : Nat) : List Byte := (List.range n).flatMap (fun i => natToBytes 4 (Tab.get 0 t (first + i)).toNat)
def bytesWords (first : Nat) (bs : List Byte) : Tab W32 :=
  (List.range (bs.length / 4)).foldl (fun t i => Tab.set 0 t (first + i) (BitVec.ofNat 32 (bytesToNat ((bs.drop (4 * i)).take 4)))) []

/-- An entry of a queue as its 128 bytes: lane l at byte 4 l. -/
def QEntry.bytes (q : QEntry) : List Byte := wordBytes q.words 0 32

/-- The warps of a workgroup: their registers below the live count, each register as 32 words in lane order (R31, R351). -/
def State.saveWarps (s : State) (g : Grid) (cl : Cluster) (key wgid : Nat) : State :=
  (s.warpsOf key).foldl (fun t e =>
    t.unitPut g.ctx (s.warpImage g cl.frame key wgid e.2.wid + 1024) (wordBytes e.2.v 0 (32 * Nat.min e.2.liveK e.2.quota))) s

/-- A workgroup's part of the frame (R351): scratch, accumulators by tile and row, tiles, the words of the queues, and the warps' registers below their live counts; the headers, the team table, the sequencer and the 1024 bytes before each warp's registers have no layout, and their bytes are free. DESIGN CHOICE, unsafe (log 31). -/
def State.saveWg (s : State) (g : Grid) (cl : Cluster) (key : Nat) (wg : Wg) : State :=
  let free := fun (s : State) (a n : Nat) => s.unitPut g.ctx a ((List.range n).map (fun i => Config.frameByte key (a - cl.frame + i)))
  let s := free s (cl.frame + 256 + wg.wgid * g.sectionBytes) 512
  let s := s.unitPut g.ctx (g.scratchImage cl.frame wg.wgid) (readBytes wg.scratch 0 g.scrBytes)
  let s := s.unitPut g.ctx (g.accImage cl.frame wg.wgid) (wordBytes wg.acc 0 (4096 * g.accn))
  let s := wg.tiles.foldl (fun s t => s.unitPut g.ctx (g.tileImage cl.frame wg.wgid t.1) t.2.image) s
  let s := free s (g.teamImage cl.frame wg.wgid) (64 * g.teamn)
  let s := s.unitPut g.ctx (g.queueImage cl.frame wg.wgid) (wg.qa.flatMap QEntry.bytes)
  let s := s.unitPut g.ctx (g.queueImage cl.frame wg.wgid + 16384) (wg.qm.flatMap QEntry.bytes)
  let s := if g.mstream = 0 then s else free s (g.queueImage cl.frame wg.wgid + 18432) 26624
  let s := (s.warpsOf key).foldl (fun t e => free t (s.warpImage g cl.frame key wg.wgid e.2.wid) 1024) s
  s.saveWarps g cl key wg.wgid

/-- Remap entries of a workgroup's tiles that are FILLING (R352). -/
def Wg.remaps (wg : Wg) (g : Grid) (cl : Cluster) (cluster : Nat) : List Remap :=
  wg.filling.map (fun t => {
    cluster := cluster, wg := wg.wgid, frame := g.scratchImage cl.frame wg.wgid + t.2.base,
    img := g.tileImage cl.frame wg.wgid t.1, count := t.2.count, tile := t.1, scrb := t.2.base })

/-- Steps 4 and 5 of R350: the frame is written, copies in flight remapped, the cores freed, and the cluster offered, or kept saved until a monitor's word is written (R314). -/
def State.endSave (s : State) (cluster : Nat) (cl : Cluster) (g : Grid) : State :=
  let wgs := s.wgsIn cluster
  let s := wgs.foldl (fun s e => s.saveWg g cl e.1 e.2) s
  let x := s.ctxAt g.ctx
  let s := s.setCtx g.ctx { x with remaps := x.remaps ++ wgs.flatMap (fun e => e.2.remaps g cl cluster) }
  let ids := (s.recs.filter (fun e => e.2.wgKey / 8 == cluster)).map (·.1)
  let s := { s with
    recs := s.recs.map (fun (e : Nat × TrapRec) => if ids.contains e.1 then (e.1, { e.2 with queued := false }) else e)
    cores := s.cores.map (fun (e : Nat × Core) => (e.1, { e.2 with queue := e.2.queue.filter (fun i => !ids.contains i) }))
    grids := Tab.mod s.grids cl.grid (fun g => { g with since := s.clock.toNat }) }
  (s.setCluster cluster { cl with st := if cl.swapped then .saved else .offered, offeredAt := s.clock.toNat }).wakeGroups

/-- CLUSTER_SAVE: the marked warps that are parked at yield points are held; a marked cluster whose warps and sequencers can all be saved begins its save; with its tiles drained it releases; when the release is acknowledged and the remap table has room, the save ends (R304, R313, R350, R352). -/
def execClusterSave (cluster : Nat) (s : State) : Host.Outcome State Fault Refusal :=
  match Tab.look s.clusters cluster with
  | none => .next s
  | some cl =>
    match Tab.look s.grids cl.grid with
    | none => .next s
    | some g =>
      match cl.st with
      | .resident =>
        let s := s.holdWarps (fun k => k / 256 == cluster)
        if cl.marked && s.saveReady cluster Warp.saved then .next (s.beginSave cluster cl false) else .next s
      | .saving => if s.drained cluster then .next (s.releaseSave cluster cl g.ctx) else .next s
      | .releasing =>
        if (s.pendingPackets cl.die g.ctx).isEmpty && (s.ctxAt g.ctx).remaps.length + ((s.wgsIn cluster).map (fun e => e.2.filling.length)).sum ≤ 256 then
          .next (s.endSave cluster cl g)
        else .next s
      | _ => .next s

/-! Swap-out (R164, R314). -/

/-- The monitor of a thread parked at a device-scope MWAIT. -/
def State.devMon (s : State) (t : Thread) : Option Mon :=
  match t.st with
  | .parked (.monitor m) =>
    (match Tab.look s.mons m with
      | some x => if x.sc == .dev && !x.scr && !x.maskForm then some x else none
      | none => none)
  | _ => none

/-- Every live thread of the cluster waits at a device-scope MWAIT; the answer is when the last of them parked, or when a warp of the cluster was last woken (R314). -/
def State.allAtMwait (s : State) (cluster : Nat) : Option Nat :=
  let woke := ((Tab.look s.clusters cluster).map (·.wokeAt)).getD 0
  let ts := (s.warpsIn cluster).flatMap (fun e => ((List.range 32).map e.2.thread).filter Thread.live)
  if ts.isEmpty || !ts.all (fun t => (s.devMon t).isSome) then none
  else some ((ts.filterMap s.devMon).foldl (fun a m => Nat.max a m.since) woke)

/-- MONITOR_SWAP_OUT: after swapthr × 1024 cycles the save begins (R314). -/
def execMonitorSwapOut (cluster : Nat) (s : State) : Host.Outcome State Fault Refusal :=
  match Tab.look s.clusters cluster with
  | none => .next s
  | some cl =>
    match Tab.look s.grids cl.grid, s.allAtMwait cluster with
    | some g, some since =>
      if cl.st == .resident && g.swapthr != 0 && decide (since + 1024 * g.swapthr ≤ s.clock.toNat) && s.saveReady cluster (fun _ => true) then
        .next (s.beginSave cluster cl true)
      else .next s
    | _, _ => .next s

/-- CLUSTER_REQUEUE: a write has satisfied a saved monitor; the cluster is offered at the head of its queue (R314). -/
def execClusterRequeue (cluster : Nat) (s : State) : Host.Outcome State Fault Refusal :=
  match Tab.look s.clusters cluster with
  | none => .next s
  | some cl =>
    if cl.st == .saved && s.mons.any (fun e => e.2.warp / 256 == cluster && e.2.seen.any e.2.holds) then
      let s := { s with grids := Tab.mod s.grids cl.grid (fun g => { g with since := s.clock.toNat }) }
      .next (s.setCluster cluster { cl with st := .offered, offeredAt := s.clock.toNat }).wakeGroups
    else .next s

/-! The restore (R353). -/

/-- A queue's entries with their words from the frame. -/
def loadQueue (q : List QEntry) (bs : List Byte) : List QEntry :=
  q.mapIdx (fun i e => { e with words := bytesWords 0 ((bs.drop (128 * i)).take 128) })

/-- A workgroup is loaded: what R351 gives a place in the frame comes from there, the rest is as it was saved. DESIGN CHOICE, unsafe (log 31). -/
def State.loadWg (s : State) (g : Grid) (cl : Cluster) (core : Nat) (wg : Wg) : Wg :=
  { wg with
    core := core
    acc := bytesWords 0 (s.unitGet g.ctx (g.accImage cl.frame wg.wgid) (16384 * g.accn))
    qa := loadQueue wg.qa (s.unitGet g.ctx (g.queueImage cl.frame wg.wgid) (128 * wg.qa.length))
    qm := loadQueue wg.qm (s.unitGet g.ctx (g.queueImage cl.frame wg.wgid + 16384) (128 * wg.qm.length))
    scratch := writeBytes [] 0 (s.unitGet g.ctx (g.scratchImage cl.frame wg.wgid) g.scrBytes)
    tiles := wg.tiles.map (fun t => (t.1, t.2.load (s.unitGet g.ctx (g.tileImage cl.frame wg.wgid t.1) 32))) }

/-- A warp is loaded: its registers below the live count from the frame. -/
def State.loadWarp (s : State) (g : Grid) (cl : Cluster) (key : Nat) (w : Warp) : Warp :=
  let n := 32 * Nat.min w.liveK w.quota
  let wgid := ((Tab.look s.wgs (key / 32)).map (·.wgid)).getD 0
  let low := bytesWords 0 (s.unitGet g.ctx (s.warpImage g cl.frame (key / 32) wgid w.wid + 1024) (4 * n))
  { w with v := low ++ w.v.filter (fun e => decide (n ≤ e.1)), watched := [] }

/-- The cluster is placed, loaded, and acquires before its warps' first words; withdrawn waits issue again (R353). -/
def State.restore (s : State) (cluster : Nat) (cl : Cluster) (g : Grid) (die group : Nat) (cores : List Nat) : State :=
  let cs := s.pickCores die group g (s.savedNeeds cluster) cores
  let wgs := s.wgsIn cluster
  let s := (wgs.zip cs).foldl (fun s e => s.setWg e.1.1 (s.loadWg g cl e.2 e.1.2)) s
  let s : State := { s with warps := s.warps.map (fun (e : Nat × Warp) => if e.1 / 256 = cluster then (e.1, s.loadWarp g cl e.1 e.2) else e) }
  let s : State := { s with
    mons := s.mons.filter (fun e => e.2.warp / 256 != cluster)
    grids := Tab.mod s.grids cl.grid (fun g => { g with since := s.clock.toNat })
    recs := s.recs.map (fun (e : Nat × TrapRec) => match Tab.look s.wgs e.2.wgKey with
      | some wg => if e.2.wgKey / 8 = cluster then (e.1, { e.2 with core := wg.core }) else e
      | none => e) }
  let s := s.setCluster cluster { cl with st := .resident, die := die, group := group, swapped := false }
  let s := (s.warpsIn cluster).foldl (fun s e => s.acquireWarp g.ctx e.1 .dev) s
  (s.unhold cl.grid).wakeGroups

/-- A pull's placement. -/
def State.placed (s : State) (die group : Nat) (cores : List Nat) (k : Nat) (g : Grid) : Offer → State
  | .fresh clid => s.place k g clid die group cores
  | .saved c =>
    match Tab.look s.clusters c with
    | some cl => s.restore c cl g die group cores
    | none => s

/-- The group makes no request: its die is fenced (R361), the cores are not released (R326), or its last one placed nothing and nothing has changed since (R297). -/
def State.silent (s : State) (die group : Nat) : Bool :=
  (s.dieAt die).fenced || decide (2 < group) || !s.mgmt.ready || (s.dieAt die).idle.contains group

/-- The request of a group has placed nothing. -/
def State.idleGroup (s : State) (die group : Nat) : State :=
  let d := s.dieAt die
  s.setDie die { d with idle := group :: d.idle }

/-- CLUSTER_PULL: a cluster group requests work, and the dispatch unit answers as R297 says. -/
def execClusterPull (die : BitVec 3) (group : Nat) (cores : List Nat) (s : State) : Host.Outcome State Fault Refusal :=
  if s.silent die.toNat group then .next s else
    match s.pull die.toNat group with
    | .place (k, g, o) => .next (s.placed die.toNat group cores k g o)
    | .hold k =>
      let d := s.dieAt die.toNat
      .next (s.setDie die.toNat { d with holds := Tab.put d.holds group k })
    | .nothing => .next (s.idleGroup die.toNat group)

/-- CLUSTER_RESTORE: the request of a group is answered with this saved cluster (R297, R353). -/
def execClusterRestore (cluster : Nat) (die : BitVec 3) (group : Nat) (cores : List Nat) (s : State) : Host.Outcome State Fault Refusal :=
  if s.silent die.toNat group then .next s else
    match s.pull die.toNat group with
    | .place (k, g, .saved c) => if c = cluster then .next (s.placed die.toNat group cores k g (.saved c)) else .next s
    | _ => .next s

end Sys2Proof.Machine
end

