-- ==== Sys2Proof/Machine/Traps.lean ====
section
/-! DEFINITION. Scarab: records enter their core's queue and are ended by an action (R342, R345, R346), single steps (R348), answers to system calls (R349) and to grow faults (R335). -/

namespace Sys2Proof.Machine

/-! The queue (R345). -/

/-- The workgroup of a record is on its core. -/
def State.recOnCore (s : State) (r : TrapRec) : Bool :=
  match Tab.look s.clusters (r.wgKey / 8) with
  | some c => c.st.onCore
  | none => false

/-- TRAP_RECORD_ENQUEUE: the core's oldest waiting record enters its queue when a place is free (R345). -/
def execTrapRecordEnqueue (core : Nat) (s : State) : Host.Outcome State Fault Refusal :=
  let c := s.coreAt core
  match s.recs.find? (fun e => e.2.core == core && !e.2.queued && s.recOnCore e.2) with
  | none => .next s
  | some (id, r) =>
    if 64 ≤ c.queue.length then .next s else
      .next { s.setCore core { c with queue := c.queue ++ [id] } with recs := Tab.put s.recs id { r with queued := true } }

/-! Actions. -/

/-- The grid of a record. -/
def State.gridOfRec (s : State) (r : TrapRec) : Option Nat := (Tab.look s.clusters (r.wgKey / 8)).map (·.grid)

/-- END: the grid is ended with code 10, and DETAIL carries CAUSE0 (R342). -/
def State.endByRec (s : State) (core id : Nat) (r : TrapRec) : State :=
  match s.gridOfRec r with
  | some g => s.endGrid g 10 (r.cause 0)
  | none => s.dropRec core id

/-- The cause can be resumed: the table of R344 says no to watchdog, copy-fault and workgroup-deadlock. -/
def TrapRec.resumable (r : TrapRec) : Bool :=
  r.cause 0 != causeWatchdog && r.cause 0 != causeCopyFault && r.cause 0 != causeDeadlock && r.cause 0 != causeSyscall

/-- An action that ends a record of a debug session releases the warp, and the whole grid that it stopped (R347). -/
def State.debugRelease (s : State) (r : TrapRec) : State :=
  if !r.dbg then s else
    match r.warp with
    | none => s
    | some k =>
      let s := s.modWarp k (fun w =>
        { w.modThreads (w.those (fun t => t.st == .parked .brk)) Thread.wake with dbg := .none })
      match s.gridOfRec r with
      | none => s
      | some g =>
        let mine := fun (e : Nat × Warp) => (Tab.look s.clusters (e.1 / 256)).map (·.grid) == some g
        { s with
          grids := Tab.mod s.grids g (fun x => { x with stopped := false })
          warps := s.warps.map (fun (e : Nat × Warp) =>
            if mine e then (e.1, e.2.modThreads (e.2.those (fun t => t.st == .parked .stop)) Thread.wake) else e) }

/-- REPLAY, SKIP or JUMP of the record at the head of the queue: the threads parked on it go where f says; where the action is not accepted, it acts as END; a workgroup that only waited for the record ends. stream: a sequencer's record accepts it (R346). -/
def State.endRec (s : State) (core : Nat) (stream : Bool) (f : Thread → Thread) : State :=
  match s.headRec core with
  | none => s
  | some (id, r) =>
    if !r.resumable || (r.warp.isNone && !(stream && r.origin == 1)) then s.endByRec core id r
    else match r.warp with
      | some _ => (((s.resume id r f).dropRec core id).debugRelease r).settleWg r.wgKey
      | none => ((s.modSeq r.wgKey (fun q => if q.st = .parked id then { q with st := .running } else q)).dropRec core id).settleWg r.wgKey

/-- REPLAY: the faulting word issues again (R342, R346). -/
def execReplay (core : Nat) (s : State) : Host.Outcome State Fault Refusal := .next (s.endRec core true id)

/-- SKIP: the split continues at the next word; the faulting word has no effect (R135, R342). -/
def execSkip (core : Nat) (s : State) : Host.Outcome State Fault Refusal := .next (s.endRec core false Thread.pass)

/-- JUMP a: the split continues at a, where it enters a clause (R342, R346). -/
def execJump (core : Nat) (a : W64) (s : State) : Host.Outcome State Fault Refusal :=
  .next (s.endRec core false (Thread.goto a.toNat))

/-- END (R342). -/
def execEndRecord (core : Nat) (s : State) : Host.Outcome State Fault Refusal :=
  match s.headRec core with
  | none => .next s
  | some (id, r) => .next (s.endByRec core id r)

/-- ANSWER: of a system call, a release by Scarab and an acquire at .dev by the threads that resume at the next word; of any other record END (R249, R342, R349). -/
def execAnswer (core : Nat) (s : State) : Host.Outcome State Fault Refusal :=
  match s.headRec core with
  | none => .next s
  | some (id, r) =>
    match r.warp, r.cause 0 == causeSyscall with
    | some k, true => .next (((s.resume id r Thread.pass).dropRec core id).acquireWarp r.ctx k .dev)
    | _, _ => .next (s.endByRec core id r)

/-! Single steps (R348). -/

/-- A thread that a breakpoint or a step holds. -/
def State.heldByDebug (s : State) (t : Thread) : Bool :=
  match t.st with
  | .parked .brk => true
  | .parked (.record id) => s.isDbg id
  | _ => false

/-- Records of a debug session on which no thread of the warp is left. -/
def State.dropEmpty (s : State) (key : Nat) (ids : List Nat) : State :=
  ids.foldl (fun s id =>
    match Tab.look s.recs id, Tab.look s.warps key with
    | some r, some w => if r.dbg && w.onRecord id == 0 then s.dropRec r.core id else s
    | _, _ => s) s

/-- SINGLE_STEP: the named split of a warp that a breakpoint or a step has parked issues one word, with its header checks where it stands at a header; it waits there for the header's flags. The record it was parked on goes with it. DEDUCED, unsafe (log 56). -/
def execSingleStep (warp : Nat) (splitB : Bool) (s : State) : Host.Outcome State Fault Refusal :=
  match s.view warp with
  | none => .next s
  | some v =>
    if v.w.dbg != .stopped || v.w.issuing || v.cl.st != .resident then .next s else
      let free := v.w.modThreads (v.w.those s.heldByDebug) Thread.wake
      match (free.ordered).drop (if splitB then 1 else 0) with
      | [] => .next s
      | g :: _ =>
        let ids := (maskLanes g.mask).filterMap (fun l => match (v.w.thread l).st with | .parked (.record id) => some id | _ => none)
        let s := match s.startOf v.wg.core v.g.ctx g with
          | .miss va => (s.slip v.g.ctx).fillLine v.wg.core v.g.ctx va
          | _ => s
        match s.startOf v.wg.core v.g.ctx g with
        | .miss _ => .next s
        | .far p => .next (s.modWarp warp (fun w => w.park g.mask (.far p)))
        | .bad fetch cause d =>
          .next (((s.arrivalFault v g.mask splitB fetch cause d).afterStep warp g.mask splitB).dropEmpty warp ids)
        | .go c n enter =>
          if !v.w.mayStart c n enter then .next s else
            let s := s.modWarp warp (fun w =>
              { (w.modThreads g.mask Thread.wake).enter g c enter with
                dbg := .step, pair := some { a := if splitB then 0 else g.mask, b := if splitB then g.mask else 0, turnB := splitB } })
            let s := s.dropEmpty warp ids
            .next { s with cur := some (.warp warp), agenda := .issue (.warp warp) :: s.agenda }

/-! Grow faults (R335). -/

/-- The page a warp waits for the driver to map. -/
def Warp.growPage (w : Warp) : Option Nat :=
  (w.threads.find? (fun t => match t.st with | .parked (.grow _) => true | _ => false)).bind (fun t =>
    match t.st with | .parked (.grow p) => some p | _ => none)

/-- GROW_FAULT_SERVICE: the driver's answer for a page serves every warp of the context that waits for it: mapped, PHWM is raised; declined, the access faults private-exhausted. Both ways the accesses are made again (R335). -/
def execGrowFaultService (warp : Nat) (ans : GrowAnswer) (s : State) : Host.Outcome State Fault Refusal :=
  match s.view warp with
  | none => .next s
  | some v =>
    match v.w.growPage with
    | none => .next s
    | some p =>
      let c := v.g.ctx
      let s := match ans with
        | .mapped x => s.setCtx c { s.ctxAt c with phwm := x }
        | .declined => s
      let mine := fun (k : Nat) => (match s.view k with | some u => u.g.ctx == c | none => false)
      .next { s with warps := s.warps.map (fun (e : Nat × Warp) =>
        let m := e.2.those (fun t => t.st == .parked (.grow p))
        if m = 0 ∨ !mine e.1 then e else
          let pcs := sortNats ((maskLanes m).map (fun l => (e.2.thread l).pc))
          (e.1, { e.2.modThreads m Thread.wake with
            declined := if ans = .declined then e.2.declined ++ pcs.map (fun a => (a, p)) else e.2.declined })) }

end Sys2Proof.Machine
end

