-- ==== Sys2Proof/Machine/Capacity.lean ====
section
/-! DEFINITION. The capacity tier (R338-R341): far pages brought near, swap pairs, and the commands of CTMIG. -/

namespace Sys2Proof.Machine

/-! Pages of the tables. -/

/-- Listed entries of a 4 KiB table: index and value. -/
def State.entriesOf (s : State) (p : Part) (tbl : Nat) : List (Nat × Nat) :=
  let k := cellOf tbl
  let here := (s.mem.filter (fun e => decide (k ≤ e.1 ∧ e.1 < k + 4096))).map (fun e => (e.1 - k) / 8)
  (sortNats here).filterMap (fun i => (s.pte p (tbl + 8 * i)).map (fun e => (i, e)))

/-- Level-0 leaves under a table: 4 KiB page number, entry, and where the entry stands. -/
def State.leavesUnder (s : State) (p : Part) : Nat → Nat → Nat → List (Nat × Nat × Nat)
  | 0, tbl, at_ =>
    (s.entriesOf p tbl).filterMap (fun x =>
      if badEntry x.2 || !x.2.testBit 5 || badLeaf x.2 0 (at_ * 512 + x.1) then none else some (at_ * 512 + x.1, x.2, tbl + 8 * x.1))
  | n + 1, tbl, at_ =>
    (s.entriesOf p tbl).flatMap (fun x =>
      if badEntry x.2 || x.2.testBit 5 then []
      else s.leavesUnder p n (x.2 % 2 ^ 52 / 2 ^ 12 * 2 ^ 12) (at_ * 512 + x.1))

/-- Level-0 leaves of a context. -/
def State.leavesOf (s : State) (c : Nat) : List (Nat × Nat × Nat) :=
  let x := s.ctxAt c
  s.leavesUnder (s.partAt x.part.toNat) 4 (x.ptb.toNat * 4096) 0

/-- The 64 KiB frame of an entry's C64 page. -/
def leafFrame (vpn e : Nat) : Nat := (e % 2 ^ 52 / 2 ^ 12 - vpn % 16) * 4096

/-- Capacity-tier leaves of the enabled contexts: context, page, frame, kind and OFF. -/
def State.tierPages (s : State) : List (Nat × Nat × Nat × Nat × Bool) :=
  (s.ctxs.filter (fun e => e.2.en)).flatMap (fun e =>
    (s.leavesOf e.1).filterMap (fun l =>
      if l.2.1.testBit 10 ∧ l.1 % 16 = 0 then some (e.1, l.1 / 16, leafFrame l.1 l.2.1, l.2.1 / 2 ^ 8 % 4, l.2.1.testBit 11) else none))

/-- Pool frames in use or on their way; an offline page has released its frame (R340). -/
def State.poolUsed (s : State) : List Nat :=
  (s.tierPages.filterMap (fun e => if e.2.2.2.1 = 1 ∧ !e.2.2.2.2 then some e.2.2.1 else none)) ++
    s.swaps.flatMap (fun e => if e.2.far then [e.2.src, e.2.dst] else [e.2.src])

/-- The page's own entry, with its place, if it is a capacity-tier page (R331). -/
def State.tierEntry (s : State) (c page : Nat) : Option (Nat × Nat) :=
  let x := s.ctxAt c
  let va := page * 65536
  match walkFrom s (s.partAt x.part.toNat) none va 4 (x.ptb.toNat * 4096) with
  | .ok (lf, tbl) => if lf.level = 0 ∧ lf.e.testBit 10 then some (lf.e, tbl + 8 * (va / 4096 % 512)) else none
  | .error _ => none

def entryKind (e : Nat) : Nat := e / 2 ^ 8 % 4
def entryFrame (e : Nat) : Nat := e % 2 ^ 52 / 2 ^ 12 * 4096

/-- An entry with another kind and frame, or with OFF set. -/
def entryWith (e kind frame : Nat) (off : Bool) : Nat :=
  e % 2 ^ 8 + kind * 2 ^ 8 + 2 ^ 10 + (if off then 2 ^ 11 else 0) + frame / 4096 * 4096 + e / 2 ^ 52 * 2 ^ 52

/-- The 16 entries of a page are written at their homes; the page's translations leave every TLB of the context (R339). -/
def State.setTier (s : State) (c page kind frame : Nat) (off : Bool) : State :=
  match s.tierEntry c page with
  | none => s
  | some (_, a) =>
    let p := s.partAt (s.ctxAt c).part.toNat
    let s := (List.range 16).foldl (fun s i =>
      s.writeHome (cellOf (a + 8 * i)) (natToBytes 8 (entryWith ((s.pte p (a + 8 * i)).getD 0) kind (frame + 4096 * i) off))) s
    s.dropTlb c (fun p => p / 16 == page)

/-! Frames. -/

/-- The group behind a pool frame. -/
def groupOfFrame (pa : Nat) : Nat := pa / 2 ^ 40 - 0x10

/-- The cell of byte o of a frame: its place in HBM, or in the pool. -/
def frameCell (frame o : Nat) : Nat := cellOf (frame + o)

/-- Cells of a frame. -/
def inFrame (frame key : Nat) : Bool := if frame < 2 ^ 41 then (framePages frame).contains (key / 4096) else decide (frame ≤ key ∧ key < frame + 65536)

/-- The place in a frame of one of its cells. -/
def frameOffset (frame key : Nat) : Nat :=
  if frame < 2 ^ 41 then ((List.range 16).find? (fun i => cellOf (frame + 4096 * i) / 4096 == key / 4096)).getD 0 * 4096 + key % 4096
  else key - frame

/-- The contents of a frame move to another; with swap, the other's contents come back. Poison travels with its sectors (R339). DEDUCED, safe (log 59). -/
def State.moveFrame (s : State) (src dst : Nat) (swap : Bool) : State :=
  let goTo := fun (a b key : Nat) => frameCell b (frameOffset a key)
  let one := s.mem.filter (fun e => inFrame src e.1)
  let two := s.mem.filter (fun e => inFrame dst e.1)
  let rest := s.mem.filter (fun e => !inFrame src e.1 && !inFrame dst e.1)
  let mem := one.foldl (fun m e => Tab.put m (goTo src dst e.1) e.2) rest
  let mem := if swap then two.foldl (fun m e => Tab.put m (goTo dst src e.1) e.2) mem else one.foldl (fun m e => Tab.put m e.1 e.2) mem
  let poison := s.memPoison.flatMap (fun k =>
    if inFrame src (64 * k) then (goTo src dst (64 * k) / 64) :: (if swap then [] else [k])
    else if inFrame dst (64 * k) then (if swap then [goTo dst src (64 * k) / 64] else [])
    else [k])
  { s with mem := mem, memPoison := poison }

/-- Monitors on the words of a frame follow its page to another frame (R339). -/
def State.moveKeys (s : State) (src dst : Nat) : State :=
  { s with mons := s.mons.map (fun (e : Nat × Mon) =>
      if !e.2.scr && inFrame src e.2.key then (e.1, { e.2 with key := frameCell dst (frameOffset src e.2.key) }) else e) }

/-! Starting. -/

/-- A swap of the page is in progress. -/
def State.moving (s : State) (c page : Nat) : Bool :=
  s.swaps.any (fun e => e.2.ctx == c && (e.2.page == page || e.2.out == some page))

/-- The 64 KiB pages of the words that a copy may touch: source, destination and bitmap; none for every page, where the words depend on an index table or on the scale bytes of a block format (R338). -/
def Copy.touched (x : Copy) : Option (List Nat) :=
  if x.xform == 4 || x.fmt.isBlock then none else
    let src := if x.fromTile then [] else x.spans.flatMap (fun e => [wrapAdd x.src e.1, wrapAdd x.src (e.1 + e.2 - 1)])
    let dst := if x.toMem then x.destVas ++ (List.range ((x.chunks.length + 63) / 64)).map (fun i => x.target + 8 * i) else []
    some (sortNats ((src ++ dst).map (· / 65536)))

/-- The copy may touch a page of its context. -/
def Copy.touches (x : Copy) (page : Nat) : Bool := match x.touched with | none => true | some ps => ps.contains page

/-- A near capacity-tier page that may go far: in device bias, no monitor armed and no warp parked or saved at one, and no copy in flight on its words (R338). DEDUCED, unsafe (log 58). -/
def State.mayGoFar (s : State) (c page : Nat) : Bool :=
  match s.tierEntry c page with
  | none => false
  | some (e, _) =>
    let pages := framePages (entryFrame e)
    let here := fun (key : Nat) => pages.contains (key / 4096)
    entryKind e == 0 && !e.testBit 11 && !s.moving c page &&
      pages.all (fun k => s.biasState (4096 * k) == 0) &&
      s.mons.all (fun m => m.2.scr || !here m.2.key) &&
      s.warps.all (fun w => !w.2.watched.any here) &&
      s.copies.all (fun x => x.2.ctx != c || !x.2.touches page)

/-- The frame a page comes near to: what MDST supplies, else a free capacity frame of the partition (R338). DEDUCED, unsafe (log 58). -/
def State.nearFrame (s : State) (c : Nat) (cmd : Bool) : Option Nat × State :=
  let x := s.ctxAt c
  if x.mdst ≠ 0 ∧ (cmd ∨ !x.mdstUsed) then (some (x.mdst.toNat * 65536), s.setCtx c { x with mdstUsed := true })
  else
    let p := s.partAt x.part.toNat
    match p.free with
    | f :: rest => (some f, s.setPart x.part.toNat { p with free := rest })
    | [] => (none, s)

def State.addSwap (s : State) (x : Swap) : State :=
  { s with nextId := s.nextId + 1, swaps := Tab.put s.swaps s.nextId x }

/-- The cold page of a swap is chosen: its frame becomes the destination. -/
def State.pair (s : State) (c page src cold : Nat) (cmd : Bool) : State :=
  match s.tierEntry c cold with
  | some (e, _) => s.addSwap { ctx := c, page := page, src := src, dst := entryFrame e, out := some cold, far := false, cmd := cmd }
  | none => s

/-- Threads of a context's warps that wait for a page make their accesses again (R338). -/
def State.wakeFar (s : State) (c page : Nat) : State :=
  let mine := fun (k : Nat) => (match s.view k with | some u => u.g.ctx == c | none => false)
  { s with warps := s.warps.map (fun (e : Nat × Warp) =>
      let m := e.2.those (fun t => t.st == .parked (.far page))
      if m = 0 ∨ !mine e.1 then e else (e.1, e.2.modThreads m Thread.wake)) }

/-- The far page a warp's threads wait for. -/
def Warp.farPage (w : Warp) : Option Nat :=
  w.threads.findSome? (fun (t : Thread) => match t.st with | .parked (.far p) => some p | _ => none)

/-- The far page that the fetch of a workgroup's sequencer meets. -/
def State.farStream (s : State) (wg : Nat) : Option (Nat × Nat) :=
  match ({ s with cur := some (.seq wg) } : State).curSeq with
  | none => none
  | some r =>
    match r.q.st, s.seqNext r with
    | .running, (_, _, .far p) => some (r.g.ctx, p)
    | _, _ => none

/-- The far page a warp waits for, or its workgroup's sequencer, or a chunk of one of its copies; or else the dispatch unit, at a ring's entry or a completion counter (R338). -/
def State.farWanted (s : State) (warp : Nat) : Option (Nat × Nat) :=
  let own := match s.view warp with
    | some v => v.w.farPage.map (fun p => (v.g.ctx, p))
    | none => none
  match own.or (s.farStream (warp / 32)) with
  | some x => some x
  | none => ((s.copies.findSome? (fun (e : Nat × Copy) =>
    if e.2.warp != warp then none else
      e.2.started.findSome? (fun k => if !e.2.openChunk k then none else
        match s.runChunk e.2 k with | .error (.far p) => some (e.2.ctx, p) | _ => none))).or
      (s.ctxs.findSome? (fun e => if !e.2.en then none else e.2.rings.findSome? (fun r => (s.ringFar e.1 r.1).map (fun p => (e.1, p)))))).or
      (s.grids.findSome? (fun (e : Nat × Grid) => if e.2.st != .complete then none else (s.unitFar e.2.ctx e.2.donectr 1).map (fun p => (e.2.ctx, p))))

/-- A far page starts to come near: into a frame that is free, or in exchange for the cold page (R338). A page that is near by now, or offline, makes the accesses again. -/
def State.bringNear (s : State) (c page cold : Nat) (cmd : Bool) : State :=
  match s.tierEntry c page with
  | none => s.wakeFar c page
  | some (e, _) =>
    if entryKind e ≠ 1 ∨ e.testBit 11 then s.wakeFar c page
    else if s.moving c page then s
    else
      match s.nearFrame c cmd with
      | (some f, s) => s.addSwap { ctx := c, page := page, src := entryFrame e, dst := f, out := none, far := false, cmd := cmd }
      | (none, s) => if cold != page && s.mayGoFar c cold then s.pair c page (entryFrame e) cold cmd else s

/-- FAR_PAGE_FAULT: the fault unit starts to bring near the page that a warp, or a copy it started, waits for; cold is the near page it chooses to send far, if it needs one (R338, R341). -/
def execFarPageFault (warp : Nat) (cold : Nat) (s : State) : Host.Outcome State Fault Refusal :=
  match s.farWanted warp with
  | none => .next s
  | some (c, page) => .next (s.bringNear c page cold false)

/-! Completion. -/

/-- A command is over (R328). -/
def State.endCmd (s : State) (c : Nat) (cmd : Bool) : State :=
  if cmd then s.setCtx c { s.ctxAt c with mbusy := false } else s

/-- Sectors of a frame leave every die: copies dropped, T sectors as single-sector releases (R339). -/
def State.flushFrame (s : State) (frame : Nat) : State :=
  let there := fun (t : Nat) => inFrame frame (64 * tagSector t)
  let s := s.dropL1All there
  let s := s.dies.foldl (fun s e => (List.range 3).foldl (fun s u =>
    ((Tab.get [] e.2.units u).map (fun b => tagCtx b.1)).foldl (fun s c => s.flushUnit (24 * e.1 + 8 * u) c) s) s) s
  s.dies.foldl (fun s e => ((e.2.l2.filter (fun t => there t.1)).map (·.1)).foldl (fun s t => s.releaseDrop e.1 t) s) s

/-- Something of a frame is still on its way: a packet, a die's sector, or an access translated to it (R334, R339). -/
def State.frameBusy (s : State) (frame : Nat) : Bool :=
  s.pkts.any (fun e => inFrame frame (64 * e.2.sector)) ||
    s.dies.any (fun e => e.2.l2.any (fun t => inFrame frame (64 * tagSector t.1))) ||
    s.ops.any (fun e => !e.2.inScratch && e.2.accs.any (fun a => !a.done && inFrame frame a.pa))

/-- A swap whose link has failed: the incoming page is near with its lines not yet moved poisoned, the outgoing page is offline; a move between pool frames, or one that has no frame yet, is given up. Which lines had moved is a free choice (R358). -/
def State.failSwap (s : State) (id : Nat) (x : Swap) : State :=
  let s := { s with swaps := Tab.del s.swaps id }
  let s := s.endCmd x.ctx x.cmd
  if x.far ∨ x.dst = 0 then s.wakeFar x.ctx x.page else
    let moved := fun (i : Nat) => Config.freeNat (s.draws + i) % 2 == 0
    let s := s.moveFrame x.src x.dst false
    let lost := (List.range 1024).filterMap (fun i => if moved (i / 2) then none else some (frameCell x.dst (64 * i) / 64))
    let s := { s with draws := s.draws + 512, memPoison := s.memPoison.filter (fun k => !lost.contains k) ++ lost }
    let s := s.setTier x.ctx x.page 0 x.dst false
    let s := match x.out with
      | some n => s.setTier x.ctx n 1 x.src true
      | none => s
    s.wakeFar x.ctx x.page

/-- SWAP_COMPLETE: once nothing of the destination frame is on its way, the lines have moved, the entries change kind and frame, TLBs are invalidated, and the parked accesses are made again (R339, R340). A swap that still has no frame takes a cold page first. DEDUCED, safe (log 59). -/
def execSwapComplete (swap : Nat) (s : State) : Host.Outcome State Fault Refusal :=
  match Tab.look s.swaps swap with
  | none => .next s
  | some x =>
    if x.lost ∧ (x.far ∨ x.dst = 0) then .next (s.failSwap swap x)
    else if x.dst = 0 then
      if !(s.ogAt (groupOfFrame x.src)).servesPool x.src then .next s else
      let near := (s.leavesOf x.ctx).filterMap (fun l => if l.1 % 16 = 0 ∧ s.mayGoFar x.ctx (l.1 / 16) then some (l.1 / 16) else none)
      match near[Config.freeNat s.draws % near.length]? with
      | none => .next s
      | some cold =>
        match s.tierEntry x.ctx cold with
        | some (e, _) => .next { s with draws := s.draws + 1, swaps := Tab.put s.swaps swap { x with dst := entryFrame e, out := some cold } }
        | none => .next s
    else
      let s := s.flushFrame x.dst
      if s.frameBusy x.dst then .next s
      else if x.lost then .next (s.failSwap swap x)
      else
        let s := s.moveFrame x.src x.dst x.out.isSome
        let s := s.setTier x.ctx x.page (if x.far then 1 else 0) x.dst false
        let s := match x.out with
          | some n => (s.setTier x.ctx n 1 x.src false).moveKeys x.dst x.src
          | none => s
        let s := { s with swaps := Tab.del s.swaps swap }
        .next ((s.endCmd x.ctx x.cmd).wakeFar x.ctx x.page)

/-! CTMIG (R328, R340). -/

/-- A write to CTMIG: ignored while MBUSY is 1, and in recovery, where only the management controller's own interface answers (R322); with a reserved bit it starts nothing and sets MERR; else the command runs, and one that fails changes nothing and sets MERR. -/
def State.ctmig (s : State) (c : Nat) (x : W64) (f : Nat → Option State) : State :=
  let y := s.ctxAt c
  let err := s.setCtx c { y with merr := true }
  if y.mbusy || s.mgmt.recov then s
  else if bitsSet x 57 57 || bitsSet x 15 0 then err
  else (f (x.toNat % 2 ^ 57 / 65536)).getD err

/-- MOP 00 brings a page near; the page must be a capacity-tier page (R340). An offline page has no frame, and the command moves nothing. DEDUCED, unsafe (log 58). -/
def execCtmigBringNear (ctx : BitVec 6) (x : W64) (s : State) : Host.Outcome State Fault Refusal :=
  let c := ctx.toNat
  .next (s.ctmig c x (fun page =>
    match s.tierEntry c page with
    | none => none
    | some (e, _) =>
      if entryKind e ≠ 1 ∨ e.testBit 11 ∨ s.moving c page then some s
      else
        let s := s.setCtx c { s.ctxAt c with mbusy := true }
        let r := s.nearFrame c true
        some (r.2.addSwap { ctx := c, page := page, src := entryFrame e, dst := r.1.getD 0, out := none, far := false, cmd := true })))

/-- A pool frame behind a group that no page holds: the choice is the fault unit's (R340). -/
def State.freePool (s : State) (g : Nat) : Nat :=
  let used := s.poolUsed
  let base := (0x10 + g) * 2 ^ 40
  let frame := fun i => base + (Config.freeNat s.draws + i) % 2 ^ 24 * 65536
  frame (((List.range (used.length + 1)).find? (fun i => !used.contains (frame i))).getD 0)

/-- MOP 01 moves a far page to a frame behind a group of the partition in a CXL downstream personality (R340); none goes behind a group that leaves it (R284). The frame is MDST where that lies behind the group. DEDUCED, unsafe (log 58). -/
def execCtmigMoveFar (ctx : BitVec 6) (x : W64) (s : State) : Host.Outcome State Fault Refusal :=
  let c := ctx.toNat
  let g := x.toNat / 2 ^ 58 % 16
  .next (s.ctmig c x (fun page =>
    match s.tierEntry c page with
    | none => none
    | some (e, _) =>
      let og := s.ogAt g
      let p := s.partAt (s.ctxAt c).part.toNat
      if entryKind e ≠ 1 ∨ !og.isPool ∨ og.st ≠ .active ∨ !p.ogs.getLsbD g then none
      else if e.testBit 11 ∨ s.moving c page then some s
      else
        let y := s.ctxAt c
        let named := decide (groupOfFrame (y.mdst.toNat * 65536) = g ∧ 2 ^ 44 ≤ y.mdst.toNat * 65536)
        let dst := if named then y.mdst.toNat * 65536 else s.freePool g
        let s := { s with draws := s.draws + 1 }
        some ((s.setCtx c { y with mbusy := true, mdstUsed := y.mdstUsed || named }).addSwap
          { ctx := c, page := page, src := entryFrame e, dst := dst, out := none, far := true, cmd := true })))

/-- MOP 10 declares a page offline and releases its frame; not while a swap of it is in progress (R340). -/
def execCtmigOffline (ctx : BitVec 6) (x : W64) (s : State) : Host.Outcome State Fault Refusal :=
  let c := ctx.toNat
  .next (s.ctmig c x (fun page =>
    if s.moving c page then none else
      match s.tierEntry c page with
      | none => some s
      | some (e, _) =>
        if e.testBit 11 then some s else
          let s := s.setTier c page (entryKind e) (entryFrame e) true
          let n := (s.ctxAt c).part.toNat
          let p := s.partAt n
          some (((if entryKind e = 0 then s.setPart n { p with free := p.free ++ [entryFrame e] } else s)).wakeFar c page)))

/-- MOP 11 changes nothing and sets MERR (R340). -/
def execCtmigReserved (ctx : BitVec 6) (x : W64) (s : State) : Host.Outcome State Fault Refusal :=
  .next (s.ctmig ctx.toNat x (fun _ => none))

end Sys2Proof.Machine
end

