-- ==== Sys2Proof/Machine/Compare.lean ====
section
/-! DEFINITION. Compare and predicate instructions (R109-R111). -/

namespace Sys2Proof.Machine

/-- A comparison of 32-bit integers. -/
def cmp32 (cc : Cmp) : List W64 → W64 × Fl
  | a :: b :: _ => ((BitVec.ofBool (cmpInt cc (a.setWidth 32 : W32) (b.setWidth 32))).setWidth 64, 0)
  | _ => (0, 0)

/-- A comparison of FP values. -/
def cmpFp (f : Fmt) (cc : Cmp) : List W64 → W64 × Fl
  | a :: b :: _ => let r := f.compare cc a.toNat b.toNat; ((BitVec.ofBool r.1).setWidth 64, r.2)
  | _ => (0, 0)

def execIcmp (h : Head) (cc : Cmp) (pd : BitVec 3) (a b : Src) (s : State) : Host.Outcome State Fault Refusal :=
  valueOp (.icmp h cc pd a b) h 1 (.pred pd) [.r32 a, .r32 b] (cmp32 cc) s

def execIcmpImm (h : Head) (cc : Cmp) (pd : BitVec 3) (a : Src) (imm : W32) (s : State) : Host.Outcome State Fault Refusal :=
  valueOp (.icmpImm h cc pd a imm) h 1 (.pred pd) [.r32 a, .imm imm] (cmp32 cc) s

def execFcmp (h : Head) (cc : Cmp) (pd : BitVec 3) (a b : Src) (s : State) : Host.Outcome State Fault Refusal :=
  valueOp (.fcmp h cc pd a b) h 3 (.pred pd) [.r32 a, .r32 b] (cmpFp fp32 cc) s

def execFcmpF64 (h : Head) (cc : Cmp) (pd : BitVec 3) (a b : Src) (s : State) : Host.Outcome State Fault Refusal :=
  valueOp (.fcmpF64 h cc pd a b) h 5 (.pred pd) [.r64 a, .r64 b] (cmpFp fp64 cc) s

/-- The functions of PCOMB (R111). -/
def predFun : PredOp → Bool → Bool → Bool
  | .and, a, b => a && b
  | .or, a, b => a || b
  | .xor, a, b => a != b
  | .andn, a, b => a && !b

def execPcomb (h : Head) (op : PredOp) (pd pa pb : BitVec 3) (s : State) : Host.Outcome State Fault Refusal :=
  valueOp (.pcomb h op pd pa pb) h 1 (.pred pd) [.pred pa, .pred pb]
    (fun vs => match vs with
      | a :: b :: _ => ((BitVec.ofBool (predFun op (a.getLsbD 0) (b.getLsbD 0))).setWidth 64, 0)
      | _ => (0, 0)) s

end Sys2Proof.Machine
end

