-- ==== Sys2Proof/Machine/Contexts.lean ====
section
/-! DEFINITION. Contexts (R251, R329) and the invalidation of their translations (R334). -/

namespace Sys2Proof.Machine

/-! TLBINV. -/

/-- A 4 KiB page is in an invalidation's range. -/
def inRange (r : Nat × Nat) (page : Nat) : Bool := decide (r.1 ≤ page ∧ page < r.1 + r.2)

/-- A write to TLBINV: ignored while IBUSY is 1 or with a reserved bit set; else an invalidation of the range, or of everything, starts (R328, R334). -/
def execTlbinv (ctx : BitVec 6) (x : W64) (s : State) : Host.Outcome State Fault Refusal :=
  if s.mgmt.recov then .next s else
  let c := ctx.toNat
  let y := s.ctxAt c
  if y.ibusy || bitsSet x 62 57 then .next s else
    let r := if x.getLsbD 63 then (0, 2 ^ 45) else (x.toNat / 2 ^ 12 % 2 ^ 45, x.toNat % 2 ^ 12 + 1)
    .next (s.setCtx c { y with ibusy := true, inv := some r })

/-- An access of the context to the range is still to be performed. DEDUCED, safe (log 61). -/
def State.rangeBusy (s : State) (c : Nat) (r : Nat × Nat) : Bool :=
  s.ops.any (fun e => e.2.ctx == c && !e.2.inScratch && e.2.accs.any (fun a => !a.done && inRange r (a.va / 4096)))

/-- TLBINV_COMPLETE: when the accesses translated so far have been performed, every TLB and walk cache drops the range and IBUSY clears (R334). DEDUCED, safe (log 61). -/
def execTlbinvComplete (ctx : BitVec 6) (s : State) : Host.Outcome State Fault Refusal :=
  let c := ctx.toNat
  let y := s.ctxAt c
  match y.inv with
  | none => .next s
  | some r =>
    if !y.ibusy || s.rangeBusy c r then .next s else
      let s := (s.dropTlb c (inRange r)).dropWalks c (fun a b => decide (a < r.1 + r.2 ∧ r.1 ≤ b))
      .next (s.setCtx c { s.ctxAt c with ibusy := false, inv := none })

/-! EN (R329). -/

/-- The pages of a shadow pool, as 16 cell pages each (R251, R328). -/
def Ctx.poolPages (x : Ctx) : List (List Nat) :=
  (List.range x.shn.toNat).map (fun i => framePages ((x.shb.toNat + i) * 65536))

/-- Packets of a context that are still on their way reach their homes, in order, and are gone. -/
def State.landPackets (s : State) (c : Nat) : State :=
  (s.pkts.filter (fun e => e.2.ctx == c)).foldl (fun s e =>
    let s := if e.2.applied then s else s.applyPacket e.1 e.2
    { s with pkts := Tab.del s.pkts e.1 }) s

/-- Nothing of the context from an earlier enablement is left in dies, cores and monitors, and its counters start anew (R329). What is still on its way lands before, so that no acquire of the new enablement reads its notices; copies, handoffs and lists of it are gone. DEDUCED, unsafe (log 62). -/
def State.freshCtx (s : State) (c : Nat) : State :=
  let s := s.landPackets c
  let s := (List.range 8).foldl (fun s d =>
    let x := s.dieAt d
    s.setDie d { x with
      l2 := x.l2.filter (fun e => tagCtx e.1 != c)
      seqs := Tab.del x.seqs c
      skips := x.skips.filter (fun k => k.1 != c)
      left := x.left.filter (fun t => tagCtx t != c)
      early := x.early.filter (fun e => e.1 != c)
      tlb := x.tlb.filter (fun t => t.ctx != c)
      units := x.units.map (fun u => (u.1, u.2.filter (fun e => tagCtx e.1 != c)))
      lastSeen := (List.range 16).foldl (fun t m => Tab.set 0 t (16 * c + m) (s.homeAt m).pos) x.lastSeen }) s
  { s with
    cores := s.cores.map (fun (e : Nat × Core) => (e.1, { e.2 with
      l1 := e.2.l1.filter (fun t => tagCtx t.1 != c)
      icache := e.2.icache.filter (fun l => l.1 / 2 ^ 52 != c)
      tlb := e.2.tlb.filter (fun t => t.ctx != c) }))
    copies := s.copies.filter (fun e => e.2.ctx != c)
    handoffs := s.handoffs.filter (fun h => !h.2.mons.any (fun m => match Tab.look s.mons m with | some x => x.ctx == c | none => false))
    mons := s.mons.filter (fun e => e.2.ctx != c) }

/-- CONTEXT_ENABLE: a write of the first register with EN = 1 while EN is 0 (R328, R329). DEDUCED, unsafe (log 62). -/
def execContextEnable (ctx : BitVec 6) (x : W64) (s : State) : Host.Outcome State Fault Refusal :=
  if s.mgmt.recov then .next s else
  let c := ctx.toNat
  let y := s.ctxAt c
  if y.en || !x.getLsbD 0 then .next s else
    let s := s.freshCtx c
    let y := { y with
      part := BitVec.ofNat 2 (x.toNat / 64), en := true, copyNo := 0, mapgen := 0, shadows := [], retired := [], published := [],
      pubLeaf := [], walks := [], remaps := [], freePages := y.poolPages }
    .next (s.setCtx c y)

/-- CONTEXT_DISABLE: a write with EN = 0. While EN is 1 it ends the context's admitted grids, and PART stays (R328, R329); their unsent writes leave the dies. DEDUCED, unsafe (log 62). -/
def execContextDisable (ctx : BitVec 6) (x : W64) (s : State) : Host.Outcome State Fault Refusal :=
  if s.mgmt.recov then .next s else
  let c := ctx.toNat
  let y := s.ctxAt c
  if x.getLsbD 0 then .next s
  else if !y.en then .next (s.setCtx c { y with part := BitVec.ofNat 2 (x.toNat / 64) })
  else
    let s := (s.abortCtx c).releaseAll c
    .next (s.setCtx c { s.ctxAt c with en := false })

end Sys2Proof.Machine
end

