-- ==== Sys2Proof/Machine/Host.lean ====
section
/-! DEFINITION. The host link: the bias of pages and its flips (R268-R271), the host's CXL.mem requests and the answers to snoops (R270-R274), and snoops of shared pool lines (R275, R276). -/

namespace Sys2Proof.Machine

/-! The bias table. -/

/-- The entry of a cell page of 4 KiB, by the key of one of its cells. -/
def State.setBias (s : State) (key state ctx : Nat) : State :=
  { s with bias := Tab.set 0 s.bias (biasKey key) (BitVec.ofNat 8 (64 * state + ctx)) }

/-- The state of an entry changes, its CTX stays. -/
def State.setBiasState (s : State) (page state : Nat) : State :=
  s.setBias (4096 * page) state (s.biasCtx (4096 * page))

/-! The host's reads and writes (R270, R272, R274). -/

/-- The line of a request. -/
def HostReq.line : HostReq → Nat
  | .rd l _ _ => l
  | .wr k _ => k / 64

def HostReq.isWrite : HostReq → Bool
  | .rd _ _ _ => false
  | .wr _ _ => true

/-- The line that stands behind one that the host addresses (R180). -/
def State.hostLine (s : State) (ask : Nat) : Nat := 64 * ((Tab.look s.hostMap (ask / 64)).getD (ask / 64)) + ask % 64

/-- A BISnpInv of the line is outstanding, and its writeback has not been applied (R272). -/
def State.invOut (s : State) (line : Nat) : Bool := s.snoops.any (fun x => x.line == line && x.inv && !x.applied)

/-- A request is held now: while its page flips to host, a read while a BISnpInv of its line is outstanding (R270, R272). -/
def State.mustHold (s : State) (r : HostReq) : Bool :=
  s.biasState (64 * r.line) == 2 || (!r.isWrite && s.invOut r.line)

/-- A request is served. A read of a HOST page marks the line as possibly held, exclusively only where the host asked to keep it; a poisoned sector gives a poisoned response. A write of a DEV page appends a notice; under a snoop of its line it is the line's writeback (R267, R271, R272, R277). -/
def State.serve (s : State) : HostReq → State
  | .rd line cache ask =>
    let s := { s with hostResp := s.hostResp ++ [(ask, if s.memPoison.contains line then none else some (readBytes s.mem (64 * line) 64))] }
    if s.biasState (64 * line) == 1 then
      let had := match Tab.look s.hostDir line with | some d => d.excl | none => false
      { s with draws := s.draws + 1, hostDir := Tab.put s.hostDir line { excl := had || (cache && Config.freeNat s.draws % 2 == 0) } }
    else s
  | .wr key data =>
    let s := s.writeHome key data
    let s := { s with snoops := s.snoops.map (fun (x : Snoop) => if x.line = key / 64 then { x with applied := true } else x) }
    if s.biasState key == 0 then s.notice key (s.biasCtx key) 2 0 0 else s

/-- A request is held, behind an earlier held write of its line too, or served (R274). -/
def State.request (s : State) (r : HostReq) : State :=
  let r := match r with
    | .rd _ cache ask => .rd (s.hostLine ask) cache ask
    | x => x
  if s.mustHold r || s.held.any (fun h => h.line == r.line && h.isWrite) then { s with held := s.held ++ [r] } else s.serve r

/-- Held requests that a test picks are looked at again, in arrival order. -/
def State.retryHeld (s : State) (f : HostReq → Bool) : State :=
  let again := s.held.filter f
  again.foldl State.request { s with held := s.held.filter (fun r => !f r) }

/-- A request arrives; one that writes a line back lets the reads held for the line go (R272, R277). -/
def State.arrive (s : State) (r : HostReq) : State :=
  let s := s.request r
  if r.isWrite && s.snoops.any (fun x => x.line == r.line) then s.retryHeld (fun h => h.line == r.line) else s

/-- A host access outside the HDM range, or to the carve-out, is answered with a poisoned or aborted response and changes nothing else (R267). -/
def State.refuseHost (s : State) (pa : Nat) : State := { s with hostResp := s.hostResp ++ [(cellOf pa / 64, none)] }

/-- The host sees a byte of HBM through the interleaved alias, the carve-out and retired stacks aside (R267, R365); in recovery only the management interface answers (R322). DEDUCED, safe (log 72). -/
def State.hostSees (s : State) (pa : Nat) : Bool :=
  decide (pa < 2 ^ 40) && !s.mgmt.recov && !isCarveOut (cellOf pa) && !s.isRetired (cellOf pa)

/-- MEMRD: a read of the host line at a physical address; cache: the host wants to keep it (R267). -/
def execMemrd (pa : Nat) (cache : Bool) (s : State) : Host.Outcome State Fault Refusal :=
  if s.hostSees pa then .next (s.arrive (.rd (s.hostLine (cellOf pa / 64)) cache (cellOf pa / 64))) else .next (s.refuseHost pa)

/-- MEMWR: a write of bytes inside one host line (R267). No CXL.mem write crosses a line: such an event is none. -/
def execMemwr (pa : Nat) (data : List Byte) (s : State) : Host.Outcome State Fault Refusal :=
  if 64 < pa % 64 + data.length then .next s
  else if s.hostSees pa then .next (s.arrive (.wr (64 * s.hostLine (cellOf pa / 64) + cellOf pa % 64) data))
  else .next (s.refuseHost pa)

/-! Snoops of the host (R271-R273). -/

/-- BIRSP: the host answers the oldest snoop of a line, its writeback applied first: BIRspS for a BISnpData, BIRspI for any. Reads held for the line are served (R271, R272). -/
def execBirsp (line : Nat) (shared : Bool) (writeback : Option (List Byte)) (s : State) : Host.Outcome State Fault Refusal :=
  match s.snoops.find? (fun x => x.line == line) with
  | none => .next s
  | some x =>
    if x.inv && shared then .next s else
      let s := match writeback with
        | some d => s.writeHome (64 * line) (d.take 64)
        | none => s
      let s := { s with
        snoops := s.snoops.erase x
        hostDir := if shared then Tab.mod s.hostDir line (fun _ => { excl := false }) else Tab.del s.hostDir line }
      .next (s.retryHeld (fun r => r.line == line))

/-- BISNPDATA_MONITOR: a line with an armed home monitor on a HOST page, exclusive to the host, is snooped (R272). -/
def execBisnpdataMonitor (line : Nat) (s : State) : Host.Outcome State Fault Refusal :=
  let excl := match Tab.look s.hostDir line with | some d => d.excl | none => false
  let watched := s.mons.any (fun m => m.2.armed && !m.2.scr && s.monLevel m.2 == 3 && m.2.key / 64 == line)
  if excl && watched && s.biasState (64 * line) == 1 && !s.snooped line then
    .next { s with snoops := s.snoops ++ [{ line := line, inv := false, flip := false }] }
  else .next s

/-! Flips (R269, R271). -/

/-- The next page of a command starts to flip; with none left, BUSY clears. Towards the device, every line the host may hold is called back, in ascending order: those that the directory marks, or all 64 of a page whose entries the directory has evicted (R271, R277). The spec gives the directory no size: whether it has evicted them is a free choice. DESIGN CHOICE, safe (log 96). -/
def State.startFlip (s : State) (f : Flip) : State :=
  match f.pages with
  | [] => { s with flip := none }
  | p :: _ =>
    let s := { s.setBiasState p (if f.toHost then 2 else 3) with flip := some f }
    if f.toHost then s else
      let lines := if Config.freeNat (s.draws * 2 ^ 80 + 2 ^ 74 + p) % 2 = 1 then (List.range 64).map (64 * p + ·)
        else sortNats ((s.hostDir.filter (fun e => e.1 / 64 == p)).map (·.1))
      { s with draws := s.draws + 1, snoops := s.snoops.filter (fun x => !lines.contains x.line) ++ lines.map (fun (l : Nat) => { line := l, inv := true, flip := true }) }

/-- Cells of the pages a BFLIP value names, and whether all lie in HBM outside the carve-out. -/
def flipPages (x : W64) : List Nat := (List.range (x.toNat % 2 ^ 9 + 1)).map (fun i => (x.toNat / 2 ^ 12 % 2 ^ 40 + i) * 4096)

def flipBad (x : W64) : Bool :=
  bitsSet x 55 52 || bitsSet x 11 9 || (flipPages x).any (fun pa => !isHbm (cellOf pa) || isCarveOut (cellOf pa))

/-- A write to BFLIP: rejected while BUSY is 1; one with an error condition sets ERR and changes no entry; else CTX is written to every entry (R269). -/
def State.bflip (s : State) (x : W64) (f : State → List Nat → State) : State :=
  if s.flip.isSome then { s with bfRej := true }
  else if flipBad x then { s with bfErr := true }
  else
    let keys := (flipPages x).map cellOf
    let s := keys.foldl (fun s k => s.setBias k (s.biasState k) (x.toNat / 2 ^ 56 % 64)) s
    f s (keys.map (· / 4096))

/-- OP 00: CTX only (R269). -/
def execBflipSetCtx (x : W64) (s : State) : Host.Outcome State Fault Refusal :=
  if s.mgmt.recov then .next s else .next (s.bflip x (fun s _ => s))

/-- OP 01: to host bias; pages already there keep their state (R269). -/
def execBflipToHost (x : W64) (s : State) : Host.Outcome State Fault Refusal :=
  if s.mgmt.recov then .next s else
  .next (s.bflip x (fun s ps => s.startFlip { toHost := true, pages := ps.filter (fun p => s.biasState (4096 * p) != 1) }))

/-- OP 10: to device bias (R269). -/
def execBflipToDev (x : W64) (s : State) : Host.Outcome State Fault Refusal :=
  if s.mgmt.recov then .next s else
  .next (s.bflip x (fun s ps => s.startFlip { toHost := false, pages := ps.filter (fun p => s.biasState (4096 * p) != 0) }))

/-- OP 11 changes no entry and sets ERR (R269). -/
def execBflipReserved (_ : W64) (s : State) : Host.Outcome State Fault Refusal :=
  if s.mgmt.recov then .next s else
  if s.flip.isSome then .next { s with bfRej := true } else .next { s with bfErr := true }

/-- The page has flipped: its entry changes, requests it held are served, and the next page starts. -/
def State.flipped (s : State) (f : Flip) (page state : Nat) : State :=
  let s := (s.setBiasState page state).retryHeld (fun r => r.line / 64 == page)
  s.startFlip { f with pages := f.pages.tail }

/-- A page's sectors leave every die: T sectors as single-sector releases, L1 copies with them (R271). -/
def State.flushPage (s : State) (page : Nat) : State :=
  let there := fun (t : Nat) => tagSector t / 64 == page
  let s := s.dropL1All there
  let s := s.dies.foldl (fun s e => (List.range 3).foldl (fun s u =>
    (sortNats ((Tab.get [] e.2.units u).map (fun b => tagCtx b.1))).foldl (fun s c => s.flushUnit (24 * e.1 + 8 * u) c) s) s) s
  s.dies.foldl (fun s e => ((e.2.l2.filter (fun t => there t.1)).map (·.1)).foldl (fun s t => s.releaseDrop e.1 t) s) s

/-- Something of a page is still on its way: a packet, a die's sector, or an atomic between its read and its write. -/
def State.pageBusy (s : State) (page : Nat) : Bool :=
  s.pkts.any (fun e => e.2.sector / 64 == page) ||
    s.dies.any (fun e => e.2.l2.any (fun t => tagSector t.1 / 64 == page)) ||
    s.ops.any (fun e => !e.2.inScratch && e.2.accs.any (fun a => !a.done && !a.res.isEmpty && a.pa / 4096 == page))

/-- D2H_DRAIN_COMPLETE: the dies have released and dropped the page's sectors; the entry goes to HOST (R271). -/
def execD2hDrainComplete (page : Nat) (s : State) : Host.Outcome State Fault Refusal :=
  match s.flip with
  | none => .next s
  | some f =>
    if !f.toHost || f.pages.head? != some page then .next s else
      let s := s.flushPage page
      if s.pageBusy page then .next s else .next (s.flipped f page 1)

/-- H2D_DRAIN_COMPLETE: every snoop of the page is answered; the entry goes to DEV (R271). -/
def execH2dDrainComplete (page : Nat) (s : State) : Host.Outcome State Fault Refusal :=
  match s.flip with
  | none => .next s
  | some f =>
    if f.toHost || f.pages.head? != some page || s.snoops.any (fun x => x.line / 64 == page) || s.pageBusy page then .next s
    else .next (s.flipped f page 0)

/-- BIAS_SNOOP_TIMEOUT: a snoop of a flip unanswered for 100 ms ends the flip: the entry goes to HOST, ERR is set (R271). -/
def execBiasSnoopTimeout (line : Nat) (s : State) : Host.Outcome State Fault Refusal :=
  match s.flip with
  | none => .next s
  | some f =>
    if f.toHost || !s.snoops.any (fun x => x.line == line && x.flip) then .next s else
      let s := match f.pages with
        | p :: _ => s.setBiasState p 1
        | [] => s
      let s := { s with flip := none, bfErr := true, snoops := s.snoops.map (fun (x : Snoop) => { x with flip := false }) }
      .next (s.retryHeld (fun _ => true))

/-! Snoops of shared pool lines (R275, R276). -/

/-- The package holds data of the line that the pool has not. -/
def State.poolDirty (s : State) (line : Nat) : Bool :=
  s.dies.any (fun e => match Tab.look e.2.pool line with | some x => x.st == .m | none => false) ||
    (match Tab.look s.dca line with | some l => l.data.isSome | none => false)

/-- Dirty data of the line goes to the pool, its mark with it (R275, R356). -/
def State.poolWriteBack (s : State) (line : Nat) : State :=
  if s.poolDirty line then s.poolOut line (s.poolData line) (s.poolMark line) else s

/-- The line lies in a shared pool window. -/
def State.isPoolLine (s : State) (line : Nat) : Bool :=
  match s.windowAt (64 * line) with | some (_, w) => w.kind == .pool | none => false

/-- POOL_BISNPINV: dirty data goes to the pool, and no copy is left (R275). -/
def execPoolBisnpinv (line : Nat) (s : State) : Host.Outcome State Fault Refusal :=
  if !s.isPoolLine line then .next s else
    let s := (s.poolWriteBack line).mapPool line (fun _ _ => none)
    .next { s with dca := Tab.del s.dca line }

/-- POOL_BISNPDATA: dirty data goes to the pool, and every copy is shared (R275). -/
def execPoolBisnpdata (line : Nat) (s : State) : Host.Outcome State Fault Refusal :=
  if !s.isPoolLine line || (Tab.look s.dca line).isNone then .next s else
    let s := (s.poolWriteBack line).mapPool line (fun _ x => some { x with st := .s })
    .next { s with dca := Tab.mod s.dca line (fun l => { l with st := .s, data := none, poison := false }) }

end Sys2Proof.Machine
end

