-- ==== Sys2Proof/Machine/Obper.lean ====
section
/-! DEFINITION. Obper groups (R279-R291): the switch of a personality, its drain, the links and ports that come up, and the transactions of peers; failed pool links (R358). -/

namespace Sys2Proof.Machine

/-! The checks of a GO (R283, R284). -/

/-- A page of the capacity tier behind the group is resident, or half of a swap in progress, and not offline (R284 check 6). -/
def State.tierBehind (s : State) (g : Nat) : Bool :=
  s.tierPages.any (fun e => e.2.2.2.1 == 1 && !e.2.2.2.2 && groupOfFrame e.2.2.1 == g && decide (0x10 * 2 ^ 40 ≤ e.2.2.1)) ||
    s.swaps.any (fun e => groupOfFrame e.2.src == g || (e.2.far && groupOfFrame e.2.dst == g))

/-- The REASON of the first check that fails. -/
def State.goRefusal (s : State) (g : Nat) (o : Og) (x : W64) : Option Nat :=
  let p := x.toNat % 16
  if o.busy then some 1
  else if bitsSet x 63 8 || bitsSet x 6 4 || decide (6 ≤ p) then some 2
  else if o.pin then some 3
  else if p = 1 then some 4
  else if !o.allowed.getLsbD p then some 5
  else if s.tierBehind g then some 6
  else if o.st = .active ∧ o.pers.toNat = p then some 7
  else none

/-- OGCTL_GO: a GO is refused, or starts a switch: an active group quiesces; a dark or failed one goes to DARK (R283, R285). DEDUCED, unsafe (log 64). -/
def execOgctlGo (g : Nat) (x : W64) (s : State) : Host.Outcome State Fault Refusal :=
  if s.mgmt.recov then .next s else
  if !x.getLsbD 7 || decide (12 ≤ g) then .next s else
    let o := s.ogAt g
    match s.goRefusal g o x with
    | some r => .next (s.setOg g { o with ref := true, reason := BitVec.ofNat 4 r })
    | none =>
      let p := BitVec.ofNat 4 x.toNat
      if o.st = .dark ∨ o.st = .failed then .next (s.setOg g { o with st := .dark, tgt := p, busy := p != 0 })
      else .next (s.setOg g { o with st := .quiescing, tgt := p, busy := true, acks := [] })

/-! Draining (R285, R287-R290). -/

/-- An address lies in a window of the group. -/
def Og.carries (o : Og) (pa : Nat) : Bool := o.windows.any (fun w => decide (w.base ≤ pa ∧ pa < w.base + w.size))

/-- Cores of dies that are not fenced. -/
def State.liveCores (s : State) : List Nat := (List.range 192).filter (fun c => !(s.dieAt (c / 24)).fenced)

/-- A reduction ends failed or timed out: the partial sum is discarded, and every participant's status word says so (R288, R363). -/
def State.endReduction (s : State) (id : Nat) (r : Reduction) (res : Nat) : State :=
  let s := { s with reductions := Tab.put s.reductions id { r with res := BitVec.ofNat 2 res, sum := 0 } }
  r.status.foldl (fun s k => s.portWrite k (natToBytes 8 res)) s

/-- Reductions in progress that use an engine port of the group fail (R288). -/
def State.failReductions (s : State) (g : Nat) : State :=
  (s.reductions.filter (fun e => e.2.group == some g && e.2.res == 0)).foldl (fun s e => s.endReduction e.1 e.2 2) s

/-- DRAINING_MARK_ACK: a core acknowledges the draining mark; with the last one the group drains (R285, R288). -/
def execDrainingMarkAck (g core : Nat) (s : State) : Host.Outcome State Fault Refusal :=
  let o := s.ogAt g
  if o.st ≠ .quiescing ∨ 192 ≤ core then .next s else
    let acks := insertNat core o.acks
    if s.liveCores.all (fun c => acks.contains c) then .next ((s.setOg g { o with st := .draining, acks := acks }).failReductions g)
    else .next (s.setOg g { o with acks := acks })

/-- Lines of the package in shared pool windows that a test picks go to the pool, and no copy is left (R287); with lost, dirty data is lost (R358). -/
def State.dropPoolLines (s : State) (f : Nat → Bool) (lost : Bool) : State :=
  let lines := sortNats (s.dies.flatMap (fun e => (e.2.pool.map (·.1)).filter f) ++ (s.dca.map (·.1)).filter f)
  let s := if lost then s else lines.foldl (fun s l => s.poolWriteBack l) s
  { s with
    dies := s.dies.map (fun (e : Nat × Die) => (e.1, { e.2 with pool := e.2.pool.filter (fun x => !f x.1) }))
    dca := s.dca.filter (fun e => !f e.1) }

/-- Lanes of an operation with accesses still to be made to addresses that a test picks. -/
def Op.lanesTo (o : Op) (f : Nat → Bool) : Mask :=
  match o.kind with
  | .relN pa _ _ _ _ => if f pa then o.lanes else 0
  | _ => o.accs.foldl (fun m a => if !a.done && f a.pa then m ||| accThreads o a else m) 0

/-- Accesses in flight to addresses that a test picks are cancelled: window-offline at their word, no register written, and the flag falls (R287). -/
def State.cancelTo (s : State) (f : Nat → Bool) : State :=
  (s.ops.filter (fun e => !e.2.inScratch && e.2.lanesTo f != 0)).foldl (fun s e =>
    let o := e.2
    let m := o.lanesTo f
    let s := { s with ops := Tab.del s.ops e.1 }
    let s := s.modWarp o.warp (fun w => if o.counted then w.lowerFlag o.flag else w)
    match s.view o.warp with
    | none => s
    | some v =>
      let held := v.w.those (fun t => t.st == .parked (.held e.1))
      let va := ((o.accs.find? (fun a => decide (f a.pa) && accThreads o a &&& (1#32 <<< lowLane m) != 0)).map Access.va).getD 0
      let id := s.nextId
      let s := s.addRec { v.record s o.pc held [(causeOffline, m)] (BitVec.ofNat 64 va) 0 with splitB := false }
      s.modWarp o.warp (fun w => w.park held (.record id))) s

/-- Stalled accesses of the group raise window-offline: their threads are ready at the word, which remembers the lanes that stalled (R289). -/
def State.wakeStalled (s : State) (g : Nat) : State :=
  { s with warps := s.warps.map (fun (e : Nat × Warp) =>
      let m := e.2.those (fun t => t.st == .parked (.stalled g))
      let hit := m &&& e.2.stuck
      if m = 0 then e else
        (e.1, { (e.2.modThreads m Thread.wake) with stuck := 0, gone := if hit = 0 then e.2.gone else some (e.2.pcOf hit, hit) })) }

/-- The group no longer runs narrowed (R364). -/
def State.notNarrow (s : State) (g : Nat) : State :=
  { s with firefly := { s.firefly with narrow := s.firefly.narrow &&& ~~~(1#12 <<< g) } }

/-- Entry to DARK: the windows leave the map, the generation advances, and BUSY clears for target 0 (R285, R287, R290). -/
def State.enterDark (s : State) (g : Nat) : State :=
  let o := s.ogAt g
  let s := s.dropPoolLines (fun l => o.carries (64 * l)) false
  let s := s.setOg g { o with
    st := .dark, pers := 0, lanes := 0, windows := [], acks := [], downLinks := [], filter := Filter.none, busy := o.tgt != 0 }
  { (s.wakeStalled g).notNarrow g with mapGen := s.mapGen + 1 }

/-- A chunk that has begun, is not done, and was handed toward the group's port before its core acknowledged the mark (R287). -/
def State.chunkTo (s : State) (g : Nat) (c : Copy) (k : Nat) : Bool :=
  c.openChunk k && (match Tab.look c.begun k with | some b => !b.2.contains g | none => false) &&
    (s.chunkKeys c k).any (fun x => !isHbm x && (s.ogAt g).carries x)

/-- Accesses in flight to the group's windows: of warps and of copies. -/
def State.inFlight (s : State) (g : Nat) : Bool :=
  s.ops.any (fun e => !e.2.inScratch && e.2.lanesTo (s.ogAt g).carries != 0) ||
    s.copies.any (fun e => e.2.started.any (s.chunkTo g e.2))

/-- OG_DRAIN_DONE: the traffic of the old personality has completed (R287). -/
def execOgDrainDone (g : Nat) (s : State) : Host.Outcome State Fault Refusal :=
  let o := s.ogAt g
  if o.st ≠ .draining ∨ s.inFlight g then .next s else .next (s.enterDark g)

/-- Another group carries the source identity of an Ethernet window, so that its packets are sent again there (R287). -/
def State.resends (s : State) (g : Nat) (w : Win) : Bool :=
  s.ogs.any (fun e => e.1 != g && e.2.st == .active && e.2.pers == 5 && e.2.filter.sources.any (fun x => x.2 == w.peer))

/-- Ethernet packets still in flight at the bound, whose source identity another group carries, complete over that group (R287). -/
def State.resend (s : State) (g : Nat) : State :=
  let o := s.ogAt g
  if o.pers ≠ 5 then s else
    let again := fun (pa : Nat) => !isHbm pa && (match s.windowAt pa with | some (h, w) => h == g && s.resends g w | none => false)
    let s := (s.copies.flatMap (fun e => e.2.started.map (fun k => (e.1, k)))).foldl (fun s e =>
      match Tab.look s.copies e.1 with
      | none => s
      | some c =>
        if !s.chunkTo g c e.2 || !(s.chunkKeys c e.2).all (fun x => isHbm x || !o.carries x || again x) then s
        else match s.runChunk c e.2 with | .ok s' => s.chunkDone s' e.1 e.2 | .error _ => s) s
    (s.ops.flatMap (fun e => e.2.accs.zipIdx.map (fun a => (e.1, a.2, a.1.pa)))).foldl (fun s e =>
      if again e.2.2 then (s.performAccess e.1 e.2.1).getD s else s) s

/-- OG_DRAIN_TIMEOUT: the bound expires; what is still in flight is sent again over another group, or cancelled (R287, R289). DESIGN CHOICE, safe (log 45). -/
def execOgDrainTimeout (g : Nat) (s : State) : Host.Outcome State Fault Refusal :=
  let o := s.ogAt g
  if o.st ≠ .draining then .next s else .next (((s.resend g).cancelTo o.carries).enterDark g)

/-! Training and mapping (R280, R285, R286, R290). -/

/-- OG_DARK_TIMER: 1 ms in DARK has passed and the target is not 0: TRAINING begins, and the target's transmit filter is loaded from the signed policy; in recovery no group leaves DARK (R285, R322, R324). DEDUCED, unsafe (log 74). -/
def execOgDarkTimer (g : Nat) (s : State) : Host.Outcome State Fault Refusal :=
  let o := s.ogAt g
  if o.st ≠ .dark ∨ o.tgt = 0 ∨ !o.busy ∨ s.mgmt.recov then .next s
  else .next (s.setOg g { o with st := .training, failedLinks := [], filter := Tab.get Filter.none o.filters o.tgt.toNat })

def laneCount (m : BitVec 16) : Nat := ((List.range 16).filter (fun i => m.getLsbD i)).length

/-- The lowest n working lanes of a mask. -/
def lowLanes (m : BitVec 16) (n : Nat) : BitVec 16 :=
  (((List.range 16).filter (fun i => m.getLsbD i)).take n).foldl (fun x i => x ||| (1#16 <<< i)) 0

/-- The lanes of a link that are in use: it trains to the widest of its widths, widest first, that its working lanes allow (R280). Which of them it then uses the spec leaves open. DEDUCED, unsafe (log 76). -/
def linkLanes (m : BitVec 16) (widths : List Nat) : BitVec 16 :=
  match widths.find? (fun n => decide (n ≤ laneCount m)) with
  | some n => lowLanes m n
  | none => 0

/-- Lanes in use by each link or port of a personality, of the lanes that have trained (R279, R280). DEDUCED, unsafe (log 76). -/
def linksUp (pers : Nat) (m : BitVec 16) : List (BitVec 16) :=
  match pers with
  | 1 => [linkLanes m [16, 8, 4]]
  | 2 => [linkLanes m [16, 8, 4]]
  | 3 => [linkLanes (laneField m 0 8) [8, 4], linkLanes (laneField m 8 8) [8, 4]]
  | 4 => (List.range 4).map (fun i => linkLanes (laneField m (4 * i) 4) [4])
  | 5 => [linkLanes (laneField m 0 8) [8], linkLanes (laneField m 8 8) [8]]
  | _ => []

/-- OG_TRAIN_UP: links or ports come up on these lanes; the group carries what is up (R280, R285, R286). Fewer than 16 lanes is a narrowed group, which Firefly shows (R364). DEDUCED, unsafe (log 76). -/
def execOgTrainUp (g : Nat) (lanes : BitVec 16) (s : State) : Host.Outcome State Fault Refusal :=
  let o := s.ogAt g
  let up := linksUp o.tgt.toNat lanes
  if o.st ≠ .training ∨ up.all (· == 0) then .next s else
    let used := up.foldl (· ||| ·) 0
    let down := (List.range up.length).filter (fun i => up.getD i 0 == 0)
    let f := s.firefly
    let bit : BitVec 12 := 1#12 <<< g
    let narrow := if used = BitVec.allOnes 16 then f.narrow &&& ~~~bit else f.narrow ||| bit
    .next { s.setOg g { o with st := .mapping, pers := o.tgt, lanes := used, downLinks := down } with
      firefly := { f with narrow := narrow, repl := f.repl || narrow != 0 } }

/-- OG_TRAIN_TIMEOUT: nothing is up after 25 ms (R285). DESIGN CHOICE, safe (log 45). -/
def execOgTrainTimeout (g : Nat) (s : State) : Host.Outcome State Fault Refusal :=
  let o := s.ogAt g
  if o.st ≠ .training then .next s
  else .next ((s.setOg g { o with st := .failed, reason := 8, busy := false, tgt := 0, lanes := 0, filter := Filter.none }).notNarrow g)

/-- OG_MAPPING_DONE: the windows of the new personality join the map, those of links that are up (R280, R285, R290). -/
def execOgMappingDone (g : Nat) (s : State) : Host.Outcome State Fault Refusal :=
  let o := s.ogAt g
  if o.st ≠ .mapping then .next s else
    let ws := o.plan.filter (fun w => decide (w.pers = o.pers.toNat) && !o.downLinks.contains w.link)
    .next { s.setOg g { o with st := .active, windows := ws, busy := false, joined := (s.mapGen + 1).toNat } with mapGen := s.mapGen + 1 }

/-! Pool links (R358). -/

/-- The link becomes FAILED (R358): a swap pair with a frame behind it is lost, and SWAP_COMPLETE leaves its pages as the rule says. -/
def State.failLink (s : State) (g link : Nat) : State :=
  let o := s.ogAt g
  let gone := { o with windows := o.windows.filter (fun w => w.link == link) }
  let behind := fun (pa : Nat) => decide (0x10 * 2 ^ 40 ≤ pa ∧ pa < 0x1C * 2 ^ 40) && groupOfFrame pa == g && o.linkOf pa == link
  let s := s.setOg g { o with
    failedLinks := insertNat link o.failedLinks, downLinks := o.downLinks.filter (· != link),
    windows := o.windows.filter (fun w => w.link != link) }
  let s := s.dropPoolLines (fun l => gone.carries (64 * l)) true
  let s := s.cancelTo (fun pa => gone.carries pa || behind pa)
  let s := { s with swaps := s.swaps.map (fun (e : Nat × Swap) =>
    if behind e.2.src || (e.2.far && behind e.2.dst) then (e.1, { e.2 with lost := true }) else e) }
  { s with warps := s.warps.map (fun (e : Nat × Warp) =>
      let m := e.2.those (fun t => match t.st with
        | .parked (.far p) => (match s.view e.1 with
          | some v => (match s.tierEntry v.g.ctx p with
            | some x => entryKind x.1 == 1 && behind (entryFrame x.1)
            | none => false)
          | none => false)
        | _ => false)
      (e.1, e.2.modThreads m Thread.wake)) }

/-- LINK_DOWN: an active CXL downstream link goes down; where it is down already, it has not retrained within 25 ms or its device has failed, and it becomes FAILED (R286, R358). DEDUCED, safe (log 67). -/
def execLinkDown (g link : Nat) (s : State) : Host.Outcome State Fault Refusal :=
  let o := s.ogAt g
  if o.st ≠ .active ∨ !o.isPool ∨ (if o.pers = 3 then 2 else 1) ≤ link ∨ o.failedLinks.contains link then .next s
  else if o.downLinks.contains link then .next (s.failLink g link)
  else .next (s.setOg g { o with downLinks := insertNat link o.downLinks })

/-- LINK_RETRAIN: a link that is down trains again within 25 ms (R286, R358). DEDUCED, safe (log 67). -/
def execLinkRetrain (g link : Nat) (s : State) : Host.Outcome State Fault Refusal :=
  let o := s.ogAt g
  if o.st ≠ .active ∨ !o.isPool ∨ o.failedLinks.contains link then .next s
  else .next (s.setOg g { o with downLinks := o.downLinks.filter (· != link) })

/-! Peers (R279). -/

/-- A peer's access to HBM may be made now: past a flip, and past the snoop it needs (R270, R273). DEDUCED, unsafe (log 65). -/
def State.peerAccess (s : State) (key : Nat) (write : Bool) (f : State → State) : State :=
  if 2 ≤ s.biasState key then s
  else if s.biasState key = 1 then (s.viaDca key write f).getD s
  else f s

/-- A write at the home from no C-die, with its notice in device bias. DEDUCED, unsafe (log 65). -/
def State.peerWrite (s : State) (key : Nat) (bs : List Byte) : State :=
  let s := s.writeHome key bs
  if s.biasState key == 0 then s.notice key (s.biasCtx key) 2 0 0 else s

/-- The bytes of a peer's access. -/
def peerSize : PeerOp → Nat
  | .read n => n
  | .write d => d.length
  | .atomic _ wide _ _ => if wide then 8 else 4

/-- PEER_TRANSACTION: a read, write or atomic of an accelerator at a port that is up, served at the home (R250, R279). The group answers the IDs that its transmit filter admits, and no other. DEDUCED, unsafe (log 65). -/
def execPeerTransaction (g port : Nat) (pa : Nat) (op : PeerReq) (s : State) : Host.Outcome State Fault Refusal :=
  let o := s.ogAt g
  let key := cellOf pa
  let n := peerSize op.op
  let up := o.st == .active && o.pers == 4 && decide (port < 4) && o.linkLanes port != 0 && o.filter.accels.contains op.who
  if !up || !isHbm key || isCarveOut key || s.isRetired key || decide (64 < pa % 64 + n) then .next s else
    match op.op with
    | .read n => .next (s.peerAccess key false (fun s => { s with peerResp := s.peerResp ++ [(pa, readBytes s.mem key n)] }))
    | .write d => .next (s.peerAccess key true (fun s => s.peerWrite key d))
    | .atomic op _ x swp => if pa % n ≠ 0 then .next s else .next (s.peerAccess key true (fun s =>
        let old := readBytes s.mem key n
        { s.peerWrite key (natToBytes n (atomNew op n (bytesToNat old) x.toNat swp.toNat)) with peerResp := s.peerResp ++ [(pa, old)] }))

end Sys2Proof.Machine
end

