-- ==== Sys2Proof/Machine/Failures.lean ====
section
/-! DEFINITION. Failures: uncorrectable errors (R355, R356), mesh links (R359, R360), compute dies (R361, R362), memory stacks (R365), and reductions across devices (R237, R363), with what Firefly reports of them (R364). -/

namespace Sys2Proof.Machine

/-! Uncorrectable errors. -/

/-- A number into a list, once. -/
def addOnce (x : Nat) (l : List Nat) : List Nat := if l.contains x then l else x :: l

/-- Firefly raises replace-requested (R364). DEDUCED, unsafe (log 69). -/
def Firefly.report (f : Firefly) : Firefly := { f with repl := true }

/-- UNCORRECTABLE_ERROR: the sector, die copy, scratch word, thread-register or accumulator element is marked (R356, R357). -/
def execUncorrectableError (site : ErrSite) (s : State) : Host.Outcome State Fault Refusal :=
  match site with
  | .memory pa => .next { s with memPoison := addOnce (cellOf pa / 64) s.memPoison }
  | .dieCopy die ctx pa =>
    let tag := tagOf ctx (cellOf pa)
    (match Tab.look (s.dieAt die).l2 tag with
      | some x => .next (s.setL2 die tag { x with poison := true })
      | none => .next s)
  | .scratch wg addr => .next (s.modWg wg (fun w => { w with scrPoison := addOnce (addr / 8) w.scrPoison }))
  | .register warp reg lane =>
    if reg < 254 ∧ lane < 32 then .next (s.modWarp warp (fun w => { w with vPoison := addOnce (32 * reg + lane) w.vPoison })) else .next s
  | .accumulator wg tile idx =>
    if idx < 4096 then .next (s.modWg wg (fun w => { w with accPoison := addOnce (4096 * tile + idx) w.accPoison })) else .next s

/-- POISON_ERROR_EVICT: an uncorrectable error in a dirty sector that a die evicts: charged to the context of its tag, its diff sent as PZ; with the error in the twin alone, all 64 bytes are sent and nothing is lost (R355). DEDUCED, unsafe (log 69). -/
def execPoisonErrorEvict (die : BitVec 3) (ctx pa : Nat) (twin : Bool) (s : State) : Host.Outcome State Fault Refusal :=
  let d := die.toNat
  let tag := tagOf ctx (cellOf pa)
  match Tab.look (s.dieAt d).l2 tag with
  | none => .next s
  | some x =>
    if x.twin.isNone then .next s else
      let y := s.ctxAt ctx
      let s := s.setCtx ctx { y with errcnt := y.errcnt + 1 }
      let s := { s with firefly := s.firefly.report }
      if twin && !x.poison then
        let id := s.nextId
        let p : Packet := {
          die := d, ctx := ctx, kind := 2, seq := (s.seqOf d ctx).toNat, sector := tagSector tag, runs := [(0, x.data)], pz := false,
          drop := true, applied := false }
        .next { s.setL2 d tag { x with twin := none, age := s.nextId } with nextId := id + 1, pkts := Tab.put s.pkts id p }
      else .next ((s.setL2 d tag { x with poison := true }).takeDiff d tag 2 (s.seqOf d ctx) true false).1

/-! Compute dies (R361, R362). -/

/-- Copies that lost clusters started from their tiles keep what is left of their source, and go on; those into their tiles are discarded with the clusters (R361). -/
def State.keepCopies (s : State) (p : Nat → Bool) : State :=
  { s with copies := s.copies.map (fun (e : Nat × Copy) =>
      if p e.2.cluster && e.2.srcTile.isSome && e.2.dstTile.isNone then (e.1, { e.2 with image := s.srcScratch e.2, srcTile := none }) else e) }

/-- A lost cluster of a restartable grid is to be run again, as one that has never run. DEDUCED, unsafe (log 68). -/
def State.rerun (s : State) (key : Nat) (cl : Cluster) : State :=
  let s := s.removeClusters (· == key)
  { s with grids := Tab.mod s.grids cl.grid (fun g => { g with
      again := g.again ++ [cl.clid], since := s.clock.toNat, frames := g.frames.filter (fun f => f.1 != cl.frame) }) }

/-- A die is fenced: it takes no further work, and what it held is discarded; its clusters of restartable grids that have published nothing are offered again, every other one ends its context with code 11 (R361, R362). DEDUCED, unsafe (log 68). -/
def State.fenceDie (s : State) (d : Nat) : State :=
  if (s.dieAt d).fenced then s else
    let x := s.dieAt d
    let mine := (x.pool.filter (fun e => e.2.st == .m)).map (·.1)
    let f := s.firefly
    let lost := f.cdlost + 1
    let s := s.setDie d { Die.reset with fenced := true, seqs := x.seqs, lastSeen := x.lastSeen }
    let s := { s with
      dca := s.dca.filter (fun e => !mine.contains e.1)
      cores := s.cores.map (fun (e : Nat × Core) => if e.1 / 24 = d then (e.1, Core.reset) else e)
      handoffs := s.handoffs.filter (fun e => e.2.die != d)
      firefly := { f with cdlost := lost, repl := true, overLoss := f.overLoss || decide (2 ≤ lost.toNat) } }
    let here := s.clusters.filter (fun e => e.2.die == d && e.2.st.onCore)
    let s := s.keepCopies (fun k => here.any (fun e => e.1 == k))
    let canRun := fun (c : Cluster) => !c.published && (match Tab.look s.grids c.grid with | some g => g.restart | none => false)
    let dead := sortNats (here.filterMap (fun e => if canRun e.2 then none else (Tab.look s.grids e.2.grid).map Grid.ctx))
    let s := (here.filter (fun e => canRun e.2)).foldl (fun s e => s.rerun e.1 e.2) s
    dead.foldl (fun s c => s.abortCtx c) s

/-- CDIE_FENCE: a die that fails its self-checks is fenced (R361). -/
def execCdieFence (die : BitVec 3) (s : State) : Host.Outcome State Fault Refusal := .next (s.fenceDie die.toNat)

/-! Mesh links (R10, R359, R360). -/

/-- Links in the order of R10's list: dies are C0 to C7 (0 to 7), M0 to M15 (8 to 23), E0 to E3 (24 to 27). The numbers are the model's. DESIGN CHOICE, safe (log 70). -/
def meshLinks : List (Nat × Nat) :=
  ((List.range 8).map (fun i => (i, (i + 1) % 8))) ++
    ((List.range 16).map (fun m => (m / 2, 8 + m))) ++ ((List.range 8).map (fun i => (i, 24 + i / 2))) ++
    ((List.range 16).map (fun m => (8 + m, 8 + (m + 1) % 16))) ++ ((List.range 4).map (fun e => (24 + e, 24 + (e + 1) % 4))) ++
    ((List.range 4).flatMap (fun e => [(24 + e, 8 + 4 * e), (24 + e, 8 + 4 * e + 3)]))

/-- Dies reached from a set by links that are up, in so many hops. -/
def reach (ls : List (Nat × Nat)) : Nat → List Nat → List Nat
  | 0, ds => ds
  | n + 1, ds => reach ls n (sortNats (ds ++ ls.filterMap (fun l =>
      if ds.contains l.1 then some l.2 else if ds.contains l.2 then some l.1 else none)))

/-- Dies that have lost every path to some other die (R360). DESIGN CHOICE, safe (log 70). -/
def cutDies (down : List Nat) : List Nat :=
  let ls := (meshLinks.zipIdx.filter (fun l => !down.contains l.2)).map (·.1)
  (List.range 28).filter (fun d => (reach ls 28 [d]).length < 28)

/-- A partition holds a die: a C-die of its set, every M-die where it has units, the E-die of a group of its set (R327). -/
def Part.holdsDie (p : Part) (d : Nat) : Bool :=
  if d < 8 then p.dies.getLsbD d
  else if d < 24 then !p.units.isEmpty
  else (List.range 3).any (fun k => p.ogs.getLsbD (3 * (d - 24) + k))

/-- Every context of a partition is aborted with code 11 (R294, R359), and its packets on the mesh are discarded with it (R14). -/
def State.abortPart (s : State) (n : Nat) : State :=
  let mine := (s.ctxs.filter (fun e => e.2.part.toNat == n)).map (·.1)
  let s := mine.foldl (fun s c => s.abortCtx c) s
  { s with pkts := s.pkts.filter (fun e => e.2.applied || !mine.contains e.2.ctx) }

/-- C-dies whose links to every neighbour are down (R361). -/
def lonelyDies (down : List Nat) : List Nat :=
  (List.range 8).filter (fun d => meshLinks.zipIdx.all (fun l => (l.1.1 != d && l.1.2 != d) || down.contains l.2))

/-- MESH_LINK_FAIL: the link is lost until module reset; the partitions that use it are aborted, and those that hold a die which it cuts off (R359, R360); a C-die left without a link is fenced (R361). parts: the partitions with a packet in the link at detection. -/
def execMeshLinkFail (link : Nat) (parts : BitVec 4) (s : State) : Host.Outcome State Fault Refusal :=
  if 60 ≤ link ∨ s.meshDown.contains link then .next s else
    let down := insertNat link s.meshDown
    let cut := cutDies down
    let f := s.firefly
    let hit := (s.parts.filter (fun e => parts.getLsbD e.1 || cut.any e.2.holdsDie)).map (·.1)
    let s := { s with meshDown := down, firefly := { f with linkdn := f.linkdn + 1, repl := true } }
    .next ((lonelyDies down).foldl (fun s d => s.fenceDie d) (hit.foldl (fun s n => s.abortPart n) s))

/-! Memory stacks (R364, R365). -/

/-- RETM: the stack's home slice and notice log are fenced (R365). DEDUCED, safe (log 75). -/
def execRetm (x : W64) (s : State) : Host.Outcome State Fault Refusal :=
  if s.mgmt.recov then .next s else
  let m := x.toNat % 16
  let h := s.homeAt m
  if h.fenced then .next s else
    let f := s.firefly
    let gone := f.retired ||| (1#16 <<< m)
    .next { s.setHome m { h with fenced := true, ring := [] } with
      firefly := { f with retired := gone, repl := true, overLoss := f.overLoss || decide (3 ≤ laneCount gone) } }

/-! Reductions (R237, R363). -/

/-- Cycles of one millisecond at 2.7 GHz. -/
def msCycles : Nat := 2700000

/-- The status word of a reduction that has completed. -/
def reductionStatus (nv sat : Bool) : Nat := 1 + (if sat then 4 else 0) + (if nv then 8 else 0)

/-- The root converts the sum and writes the result, then every participant's status word (R237, R363). DEDUCED, unsafe (log 66). -/
def State.finishReduction (s : State) (id : Nat) (r : Reduction) : State :=
  let f := slotOf r.slot
  let v := wfxOfBits r.sum.toNat
  let out := { f with fmt := r.fmt.toNat }.ofTriple f.shift v
  let n := (({ f with fmt := r.fmt.toNat } : Slot).type.map typeBytes).getD 12
  let s := s.portWrite r.dst (natToBytes n out.1)
  let int := (({ f with fmt := r.fmt.toNat } : Slot).type.bind intType).isSome
  let sat := r.sat || (out.2 &&& flSAT) != 0 || (int && v != wfxInvalid && (out.2 &&& flNV) != 0)
  let s := { s with reductions := Tab.put s.reductions id { r with res := 1, sat := sat } }
  r.status.foldl (fun s k => s.portWrite k (natToBytes 8 (reductionStatus (v == wfxInvalid) sat))) s

/-- The WFX96 value of a contribution, converted once at its source (R237); none of a participant that has failed. -/
def contributed (f : Slot) : Contribution → Option (Int × Fl)
  | .wfx x => some (wfxOfBits x.toNat, 0)
  | .fp32 x => some (toWfx f.shift (fp32.decode x.toNat).exact)
  | .fp64 x => some (toWfx f.shift (fp64.decode x.toNat).exact)
  | .failed => none

/-- REDUCTION_CONTRIBUTION: a participant's value is converted and added; with the last one the reduction completes. One that comes late, or twice, is discarded; a participant's failure ends the reduction (R237, R363). DEDUCED, unsafe (log 66). -/
def execReductionContribution (red who : Nat) (x : Contribution) (s : State) : Host.Outcome State Fault Refusal :=
  match Tab.look s.reductions red with
  | none => .next s
  | some r =>
    if r.res ≠ 0 ∨ !r.need.contains who ∨ r.got.contains who then .next s else
      match contributed (slotOf r.slot) x with
      | none => .next (s.endReduction red r 2)
      | some v =>
        let y := if r.got.isEmpty then (v.1, 0) else addWfx (wfxOfBits r.sum.toNat) v.1
        let r := { r with
          sum := BitVec.ofNat 96 (wfxBits y.1), sat := r.sat || ((v.2 ||| y.2) &&& flSAT) != 0, got := insertNat who r.got,
          first := if r.got.isEmpty then s.clock else r.first }
        if r.need.all (fun w => r.got.contains w) then .next (s.finishReduction red r)
        else .next { s with reductions := Tab.put s.reductions red r }

/-- REDUCTION_TIMEOUT: RTMO has passed since the first contribution, and some participant has made none (R363). -/
def execReductionTimeout (red : Nat) (s : State) : Host.Outcome State Fault Refusal :=
  match Tab.look s.reductions red with
  | none => .next s
  | some r =>
    let late := decide ((s.partAt r.part).rtmo.toNat * msCycles ≤ (s.clock - r.first).toNat)
    if r.res ≠ 0 ∨ r.got.isEmpty ∨ !late then .next s else .next (s.endReduction red r 3)

end Sys2Proof.Machine
end

