-- ==== Sys2Proof/Machine/Fp.lean ====
section
/-! DEFINITION. FP32, FP64 and packed 16-bit arithmetic of classes 1 and 2 (R102-R106). -/

namespace Sys2Proof.Machine

/-- A function of FP bit patterns over the operands of a lane, giving bits and flags. -/
def fpBin (f : Nat → Nat → Nat × Fl) : List W64 → W64 × Fl
  | a :: b :: _ => let r := f a.toNat b.toNat; (BitVec.ofNat 64 r.1, r.2)
  | _ => (0, 0)
def fpTri (f : Nat → Nat → Nat → Nat × Fl) : List W64 → W64 × Fl
  | a :: b :: c :: _ => let r := f a.toNat b.toNat c.toNat; (BitVec.ofNat 64 r.1, r.2)
  | _ => (0, 0)

/-- The two 16-bit elements of a packed operand, computed independently (R106). -/
def packed2 (f : Nat → Nat → Nat × Fl) (a b : Nat) : Nat × Fl :=
  let lo := f (a % 2 ^ 16) (b % 2 ^ 16)
  let hi := f (a / 2 ^ 16) (b / 2 ^ 16)
  (lo.1 + 2 ^ 16 * hi.1, lo.2 ||| hi.2)
def packed3 (f : Nat → Nat → Nat → Nat × Fl) (a b c : Nat) : Nat × Fl :=
  let lo := f (a % 2 ^ 16) (b % 2 ^ 16) (c % 2 ^ 16)
  let hi := f (a / 2 ^ 16) (b / 2 ^ 16) (c / 2 ^ 16)
  (lo.1 + 2 ^ 16 * hi.1, lo.2 ||| hi.2)

/-- The element format of a packed word: SUB[0]. -/
def halfFmt (bf : Bool) : Fmt := if bf then bf16 else fp16

def execFadd (h : Head) (rnd : Rnd) (sat : Bool) (d : BitVec 8) (a b : Src) (s : State) : Host.Outcome State Fault Refusal :=
  valueOp (.fadd h rnd sat d a b) h 3 (.r32 d) [.r32 a, .r32 b] (fpBin (fp32.add rnd sat)) s
def execFsub (h : Head) (rnd : Rnd) (sat : Bool) (d : BitVec 8) (a b : Src) (s : State) : Host.Outcome State Fault Refusal :=
  valueOp (.fsub h rnd sat d a b) h 3 (.r32 d) [.r32 a, .r32 b] (fpBin (fp32.sub rnd sat)) s
def execFmul (h : Head) (rnd : Rnd) (sat : Bool) (d : BitVec 8) (a b : Src) (s : State) : Host.Outcome State Fault Refusal :=
  valueOp (.fmul h rnd sat d a b) h 3 (.r32 d) [.r32 a, .r32 b] (fpBin (fp32.mul rnd sat)) s
def execFfma (h : Head) (rnd : Rnd) (sat : Bool) (d : BitVec 8) (a b c : Src) (s : State) : Host.Outcome State Fault Refusal :=
  valueOp (.ffma h rnd sat d a b c) h 3 (.r32 d) [.r32 a, .r32 b, .r32 c] (fpTri (fp32.fma rnd sat)) s
def execFmin (h : Head) (d : BitVec 8) (a b : Src) (s : State) : Host.Outcome State Fault Refusal :=
  valueOp (.fmin h d a b) h 3 (.r32 d) [.r32 a, .r32 b] (fpBin (fp32.minmax false)) s
def execFmax (h : Head) (d : BitVec 8) (a b : Src) (s : State) : Host.Outcome State Fault Refusal :=
  valueOp (.fmax h d a b) h 3 (.r32 d) [.r32 a, .r32 b] (fpBin (fp32.minmax true)) s

def execFaddF64 (h : Head) (rnd : Rnd) (sat : Bool) (d : BitVec 8) (a b : Src) (s : State) : Host.Outcome State Fault Refusal :=
  valueOp (.faddF64 h rnd sat d a b) h 5 (.r64 d) [.r64 a, .r64 b] (fpBin (fp64.add rnd sat)) s
def execFsubF64 (h : Head) (rnd : Rnd) (sat : Bool) (d : BitVec 8) (a b : Src) (s : State) : Host.Outcome State Fault Refusal :=
  valueOp (.fsubF64 h rnd sat d a b) h 5 (.r64 d) [.r64 a, .r64 b] (fpBin (fp64.sub rnd sat)) s
def execFmulF64 (h : Head) (rnd : Rnd) (sat : Bool) (d : BitVec 8) (a b : Src) (s : State) : Host.Outcome State Fault Refusal :=
  valueOp (.fmulF64 h rnd sat d a b) h 5 (.r64 d) [.r64 a, .r64 b] (fpBin (fp64.mul rnd sat)) s
def execFfmaF64 (h : Head) (rnd : Rnd) (sat : Bool) (d : BitVec 8) (a b c : Src) (s : State) : Host.Outcome State Fault Refusal :=
  valueOp (.ffmaF64 h rnd sat d a b c) h 5 (.r64 d) [.r64 a, .r64 b, .r64 c] (fpTri (fp64.fma rnd sat)) s
def execFminF64 (h : Head) (d : BitVec 8) (a b : Src) (s : State) : Host.Outcome State Fault Refusal :=
  valueOp (.fminF64 h d a b) h 5 (.r64 d) [.r64 a, .r64 b] (fpBin (fp64.minmax false)) s
def execFmaxF64 (h : Head) (d : BitVec 8) (a b : Src) (s : State) : Host.Outcome State Fault Refusal :=
  valueOp (.fmaxF64 h d a b) h 5 (.r64 d) [.r64 a, .r64 b] (fpBin (fp64.minmax true)) s

def execHadd2 (h : Head) (bf : Bool) (rnd : Rnd) (sat : Bool) (d : BitVec 8) (a b : Src) (s : State) : Host.Outcome State Fault Refusal :=
  valueOp (.hadd2 h bf rnd sat d a b) h 3 (.r32 d) [.r32 a, .r32 b] (fpBin (packed2 ((halfFmt bf).add rnd sat))) s
def execHsub2 (h : Head) (bf : Bool) (rnd : Rnd) (sat : Bool) (d : BitVec 8) (a b : Src) (s : State) : Host.Outcome State Fault Refusal :=
  valueOp (.hsub2 h bf rnd sat d a b) h 3 (.r32 d) [.r32 a, .r32 b] (fpBin (packed2 ((halfFmt bf).sub rnd sat))) s
def execHmul2 (h : Head) (bf : Bool) (rnd : Rnd) (sat : Bool) (d : BitVec 8) (a b : Src) (s : State) : Host.Outcome State Fault Refusal :=
  valueOp (.hmul2 h bf rnd sat d a b) h 3 (.r32 d) [.r32 a, .r32 b] (fpBin (packed2 ((halfFmt bf).mul rnd sat))) s
def execHfma2 (h : Head) (bf : Bool) (rnd : Rnd) (sat : Bool) (d : BitVec 8) (a b c : Src) (s : State) : Host.Outcome State Fault Refusal :=
  valueOp (.hfma2 h bf rnd sat d a b c) h 3 (.r32 d) [.r32 a, .r32 b, .r32 c] (fpTri (packed3 ((halfFmt bf).fma rnd sat))) s
def execHmin2 (h : Head) (bf : Bool) (d : BitVec 8) (a b : Src) (s : State) : Host.Outcome State Fault Refusal :=
  valueOp (.hmin2 h bf d a b) h 3 (.r32 d) [.r32 a, .r32 b] (fpBin (packed2 ((halfFmt bf).minmax false))) s
def execHmax2 (h : Head) (bf : Bool) (d : BitVec 8) (a b : Src) (s : State) : Host.Outcome State Fault Refusal :=
  valueOp (.hmax2 h bf d a b) h 3 (.r32 d) [.r32 a, .r32 b] (fpBin (packed2 ((halfFmt bf).minmax true))) s

end Sys2Proof.Machine
end

