-- ==== Sys2Proof/Machine/LoadStore.lean ====
section
/-! DEFINITION. Loads and stores of class 5 (R138-R142), LDS (R141) and private memory (R335). The copy start stands in Copy.lean. -/

namespace Sys2Proof.Machine

/-- Registers that a load or store names: its data group and its index. -/
def ldstRegs (w : Width) (d : BitVec 8) (m : MemOp) : List Nat := groupOf d.toNat w.regs ++ idxRegs m.idx

/-- A load of a space: one access for each enabled thread (R133, R139). -/
def loadWord (i : Instr) (h : Head) (fsel : Bool) (w : Width) (sc : Scope) (space : Space) (d : BitVec 8) (m : MemOp)
    (site : Run → Nat → Site) (s : State) : Host.Outcome State Fault Refusal :=
  runWarp i h (Pre.long fsel (ldstRegs w d m)) s (fun r =>
    let bad := r.poisoned (idxRegs m.idx)
    if bad ≠ 0 then r.trapPoisonReg bad else
      let xs := (maskLanes r.en).map (fun l => (l, site r (r.memAddr m l)))
      r.withSites (space != .scr) xs (fun r =>
        r.memOp fsel (.load w d.toNat) sc space (xs.map (fun e => mkAccess e.1 w.bytes e.2 [] []))))

/-- ld.sc.w: global memory at the level of its scope. -/
def execLd (h : Head) (fsel : Bool) (w : Width) (sc : Scope) (d : BitVec 8) (m : MemOp) (s : State) : Host.Outcome State Fault Refusal :=
  loadWord (.ld h fsel w sc d m) h fsel w sc .glob d m (fun r a => r.globalSite .read sc true a w.bytes) s

/-- ld.scr.sc.w: the workgroup's scratch. -/
def execLdScr (h : Head) (fsel : Bool) (w : Width) (sc : Scope) (d : BitVec 8) (m : MemOp) (s : State) : Host.Outcome State Fault Refusal :=
  loadWord (.ldScr h fsel w sc d m) h fsel w sc .scr d m (fun r a => r.scratchSite true a w.bytes) s

/-- ld.con.w: the context's constant space. -/
def execLdCon (h : Head) (fsel : Bool) (w : Width) (d : BitVec 8) (m : MemOp) (s : State) : Host.Outcome State Fault Refusal :=
  loadWord (.ldCon h fsel w d m) h fsel w .th .con d m (fun r a => r.constSite a w.bytes) s

/-- Aligned 4-byte words of a private access (R335). -/
def prvParts (w : Width) : List Nat := if w.bytes ≤ 4 then [0] else (List.range (w.bytes / 4)).map (4 * ·)

/-- ld.prv.w: the thread's own private region. -/
def execLdPrv (h : Head) (fsel : Bool) (w : Width) (d : BitVec 8) (m : MemOp) (s : State) : Host.Outcome State Fault Refusal :=
  runWarp (.ldPrv h fsel w d m) h (Pre.long fsel (ldstRegs w d m)) s (fun r =>
    let bad := r.poisoned (idxRegs m.idx)
    if bad ≠ 0 then r.trapPoisonReg bad else
      let xs := (maskLanes r.en).flatMap (fun l => (prvParts w).map (fun p => (l, r.privateSite .read (r.memAddr m l) w.bytes p l)))
      r.withSites true xs (fun r =>
        r.memOp fsel (.load w d.toNat) .th .prv (xs.map (fun e => mkAccess e.1 (Nat.min w.bytes 4) e.2 [] []))))

/-- A store of a space (R140): sources are read at issue. -/
def storeWord (i : Instr) (h : Head) (fsel : Bool) (w : Width) (sc : Scope) (space : Space) (d : BitVec 8) (m : MemOp)
    (site : Run → Nat → Site) (s : State) : Host.Outcome State Fault Refusal :=
  runWarp i h (Pre.long fsel (ldstRegs w d m)) s (fun r =>
    let bad := r.poisoned (ldstRegs w d m)
    if bad ≠ 0 then r.trapPoisonReg bad else
      let xs := (maskLanes r.en).map (fun l => (l, site r (r.memAddr m l)))
      r.withSites (space != .scr) xs (fun r =>
        r.memOp fsel .store sc space (xs.map (fun e => mkAccess e.1 w.bytes e.2 (r.dataBytes 3 d.toNat w.regs w.bytes e.1) []))))

/-- st.sc.w: a restartable grid may not store to device memory. -/
def execSt (h : Head) (fsel : Bool) (w : Width) (sc : Scope) (d : BitVec 8) (m : MemOp) (s : State) : Host.Outcome State Fault Refusal :=
  storeWord (.st h fsel w sc d m) h fsel w sc .glob d m (fun r a => r.noRestart a (r.globalSite .write sc false a w.bytes)) s

def execStScr (h : Head) (fsel : Bool) (w : Width) (sc : Scope) (d : BitVec 8) (m : MemOp) (s : State) : Host.Outcome State Fault Refusal :=
  storeWord (.stScr h fsel w sc d m) h fsel w sc .scr d m (fun r a => r.scratchSite false a w.bytes) s

def execStPrv (h : Head) (fsel : Bool) (w : Width) (d : BitVec 8) (m : MemOp) (s : State) : Host.Outcome State Fault Refusal :=
  runWarp (.stPrv h fsel w d m) h (Pre.long fsel (ldstRegs w d m)) s (fun r =>
    let bad := r.poisoned (ldstRegs w d m)
    if bad ≠ 0 then r.trapPoisonReg bad else
      let xs := (maskLanes r.en).flatMap (fun l => (prvParts w).map (fun p => (l, p, r.privateSite .write (r.memAddr m l) w.bytes p l)))
      r.withSites true (xs.map (fun e => (e.1, e.2.2))) (fun r =>
        r.memOp fsel .store .th .prv (xs.map (fun e => mkAccess e.1 (Nat.min w.bytes 4) e.2.2
          (((r.dataBytes 3 d.toNat w.regs w.bytes e.1).drop e.2.1).take 4) []))))

/-- lds.sc.64: 8 bytes to a scalar, once for the split. -/
def execLds (h : Head) (fsel : Bool) (sc : Scope) (sd : BitVec 6) (base : BitVec 6) (off : BitVec 16) (s : State) : Host.Outcome State Fault Refusal :=
  runWarp (.lds h fsel sc sd base off) h (Pre.long fsel []) s (fun r =>
    let x := r.globalSite .read sc true (r.scalar 1 base + off.signExtend 64).toNat 8
    r.withSites true (onceSites r.en x) (fun r => r.memOp fsel (.lds sd.toNat) sc .glob [mkAccess 32 8 x [] []]))

end Sys2Proof.Machine
end

