-- ==== Sys2Proof/Machine/Sha.lean ====
section
/-! DEFINITION. SHA-384, which R322, R325 and R326 name: the standard's function (FIPS 180-4), PRESUMED as published. -/

namespace Sys2Proof.Machine

/-- The bits of a root, highest first: a bit is kept while the d-th power of the number built so far is not above n. -/
def rootBits (d n : Nat) : Nat → Nat → Nat
  | 0, r => r
  | b + 1, r => rootBits d n b (if (r + 2 ^ b) ^ d ≤ n then r + 2 ^ b else r)

/-- The first 64 bits after the point of the d-th root of p, as the standard derives its constants. -/
def rootFraction (d p : Nat) : W64 := BitVec.ofNat 64 (rootBits d (p * 2 ^ (64 * d)) 72 0)

/-- A number with no divisor from 2 up to itself. -/
def isPrime (n : Nat) : Bool := decide (2 ≤ n) && (List.range n).all (fun d => decide (d < 2) || n % d != 0)

/-- The first eighty primes: those up to 409. -/
def shaPrimes : List Nat := (List.range 410).filter isPrime

/-- Round constants: from the cube roots of the first eighty primes. -/
def shaK : List W64 := shaPrimes.map (rootFraction 3)

/-- The initial hash value of SHA-384: from the square roots of the ninth to the sixteenth prime. -/
def shaInit : List W64 := ((shaPrimes.drop 8).take 8).map (rootFraction 2)

def wordAt (l : List W64) (n : Nat) : W64 := l.getD n 0

/-- A message padded to whole blocks: a one bit, zeros, and its length in bits as 128 bits, high byte first. -/
def shaPad (m : List Byte) : List Byte :=
  let zeros := (239 - m.length % 128) % 128
  m ++ 0x80#8 :: List.replicate zeros 0#8 ++ (natToBytes 16 (8 * m.length)).reverse

/-- The words of a block, high byte first. -/
def shaWords (b : List Byte) : List W64 :=
  (List.range 16).map (fun i => BitVec.ofNat 64 (bytesToNat ((b.drop (8 * i)).take 8).reverse))

/-- The message schedule, newest word first: n more words. -/
def shaSchedule : Nat → List W64 → List W64
  | 0, w => w
  | n + 1, w =>
    let s0 := let x := wordAt w 14; x.rotateRight 1 ^^^ x.rotateRight 8 ^^^ (x >>> 7)
    let s1 := let x := wordAt w 1; x.rotateRight 19 ^^^ x.rotateRight 61 ^^^ (x >>> 6)
    shaSchedule n ((wordAt w 15 + s0 + wordAt w 6 + s1) :: w)

/-- One round on the eight working words. -/
def shaRound (v : List W64) (kw : W64) : List W64 :=
  let a := wordAt v 0; let b := wordAt v 1; let c := wordAt v 2; let e := wordAt v 4; let f := wordAt v 5; let g := wordAt v 6
  let t1 := wordAt v 7 + (e.rotateRight 14 ^^^ e.rotateRight 18 ^^^ e.rotateRight 41) + ((e &&& f) ^^^ (~~~e &&& g)) + kw
  let t2 := (a.rotateRight 28 ^^^ a.rotateRight 34 ^^^ a.rotateRight 39) + ((a &&& b) ^^^ (a &&& c) ^^^ (b &&& c))
  [t1 + t2, a, b, c, wordAt v 3 + t1, e, f, g]

/-- One block into the hash value. -/
def shaBlock (h : List W64) (b : List Byte) : List W64 :=
  let w := (shaSchedule 64 (shaWords b).reverse).reverse
  let v := (List.zipWith (· + ·) shaK w).foldl shaRound h
  List.zipWith (· + ·) h v

/-- The blocks of a message, one after another. -/
def shaBlocks : Nat → List W64 → List Byte → List W64
  | 0, h, _ => h
  | n + 1, h, m => shaBlocks n (shaBlock h (m.take 128)) (m.drop 128)

/-- The 48 bytes of SHA-384 of a message. PRESUMED, unsafe (log 43). -/
def sha384 (m : List Byte) : List Byte :=
  let p := shaPad m
  ((shaBlocks (p.length / 128) shaInit p).take 6).flatMap (fun x => (natToBytes 8 x.toNat).reverse)

/-- Bytes as a 384-bit register, the first byte lowest. -/
def digestOf (bs : List Byte) : BitVec 384 := BitVec.ofNat 384 (bytesToNat bs)
def digestBytes (d : BitVec 384) : List Byte := natToBytes 48 d.toNat

end Sys2Proof.Machine
end

