-- ==== Sys2Proof/Machine/Mgmt.lean ====
section
/-! DEFINITION. Bring-up, attestation and power (R322-R326), Firefly's beacon (R364), writes to plain registers (R6), and Scarab's writes (R342). -/

namespace Sys2Proof.Machine

/-! Module reset and boot (R322). -/

/-- A measurement register is extended with a digest. -/
def Mgmt.extend (m : Mgmt) (n : Nat) (d : List Byte) : Mgmt :=
  { m with meas := Tab.set 0 m.meas n (digestOf (sha384 (digestBytes (Tab.get 0 m.meas n) ++ d))) }

/-- Stages 1 to k of the boot have verified their items: each has extended its register (R322). -/
def Mgmt.boot (m : Mgmt) (serial k : Nat) : Mgmt :=
  (List.range k).foldl (fun m n => m.extend n (digestBytes (if n = 3 then Config.policyDigest serial else Config.imageDigest n))) m

/-- Every group dark. -/
def Og.darkened (o : Og) : Og := { o with st := .dark, pers := 0, tgt := 0, lanes := 0, windows := [], filter := Filter.none }

/-- What the policy says of a group. -/
def Policy.group (p : Policy) (g : Nat) : GroupPolicy := Tab.get GroupPolicy.off p.groups g

/-- A policy that stage 4 accepts: it pins one group, with code 1 and no other, its power limit is no more than 4,000 W, and its filters and partitions are no more than there may be (R324). -/
def Policy.valid (p : Policy) : Bool :=
  let groups := (List.range 12).map p.group
  ((List.range 12).filter (fun g => (p.group g).pin)).length == 1 &&
    groups.all (fun x => !x.pin || x.pers == 1) && decide (p.limit ≤ 4000) && decide (p.parts.length ≤ 4) &&
    groups.all (fun x => x.filters.all (fun f => decide (f.2.accels.length ≤ 1024) &&
      (List.range 2).all (fun l => decide ((f.2.cxl.filter (fun e => e.1 == l)).length ≤ 64 ∧ (f.2.sources.filter (fun e => e.1 == l)).length ≤ 16))))

/-- The module in recovery after so many stages: every group is dark (R322). -/
def State.recovery (z : State) (n : Nat) : State :=
  { z with
    mgmt := { (z.mgmt.boot z.policy.serial n) with stage := BitVec.ofNat 4 n, recov := true, idok := true }
    ogs := (List.range 12).map (fun g => (g, (Og.ofPolicy (z.policy.group g)).darkened)) }

/-- MODULE_RESET: everything is as after reset, memory and the policy in flash as they were; then the stages run, and the module is ready under its policy, or in recovery after the stage that fails, as stage 4 does on a policy that it does not accept (R322, R324). DESIGN CHOICE, unsafe (log 71). DEDUCED, unsafe (log 74). -/
def execModuleReset (bad : Option (BitVec 3)) (s : State) : Host.Outcome State Fault Refusal :=
  let z := { State.reset with mem := s.mem, memPoison := s.memPoison, draws := s.draws, nextId := s.nextId, policy := s.policy }
  match bad with
  | some k => if k.toNat = 0 ∨ 4 < k.toNat then .next s else .next (z.recovery (if k.toNat = 4 ∨ s.policy.valid then k.toNat - 1 else Nat.min (k.toNat - 1) 3))
  | none =>
    if !s.policy.valid then .next (z.recovery 3) else
      .next { z with
        ogs := s.policy.groups.map (fun (e : Nat × GroupPolicy) => (e.1, Og.ofPolicy e.2))
        parts := s.policy.parts
        mgmt := { (z.mgmt.boot s.policy.serial 4) with
          stage := 5, polok := true, idok := true, ready := true, limit := BitVec.ofNat 13 s.policy.limit } }

/-- What the management interface gives of the identity: the public key and the vendor's certificate over it; nothing reads the private key, which only signs (R323). DESIGN CHOICE, safe (log 42). -/
def identity : BitVec 768 × List Byte := (Config.publicKey, Config.vendorCert)

/-! Attestation (R325, R326). -/

/-- MEASEXT: six writes give the 48 bytes of a digest; the sixth extends the selected register (R326). -/
def execMeasext (x : W64) (s : State) : Host.Outcome State Fault Refusal :=
  let m := s.mgmt
  let ws := m.ext ++ [x]
  if ws.length < 6 then .next { s with mgmt := { m with ext := ws } }
  else .next { s with mgmt := { (m.extend m.sel.toNat (ws.flatMap (fun w => natToBytes 8 w.toNat))) with ext := [] } }

/-- MEASSEL: the register that MEASEXT extends, 4 to 7; every write starts a new sequence (R326). -/
def execMeassel (x : W64) (s : State) : Host.Outcome State Fault Refusal :=
  let m := s.mgmt
  let n : BitVec 3 := x.setWidth 3
  .next { s with mgmt := { m with ext := [], sel := if n.toNat < 4 then m.sel else n } }

/-- The nonce registers as one value. -/
def Mgmt.nonceBytes (m : Mgmt) : List Byte := (List.range 6).flatMap (fun i => natToBytes 8 (Tab.get 0 m.nonce i).toNat)

/-- ATTCMD: GO starts a quote, with nonce and measurements captured; while one is in progress QREJ is set (R325, R326). -/
def execAttcmdGo (x : W64) (s : State) : Host.Outcome State Fault Refusal :=
  let m := s.mgmt
  if !x.getLsbD 0 then .next s
  else if m.qbusy then .next { s with mgmt := { m with qrej := true } }
  else .next { s with mgmt := { m with
    qbusy := true, qdst := x.toNat % 2 ^ 57 / 128 * 128, qnonce := digestOf m.nonceBytes,
    quote := (List.range 8).map (fun i => Tab.get 0 m.meas i) } }

/-- The 576 bytes of a quote (R326). -/
def Mgmt.quoteBytes (m : Mgmt) (serial : Nat) : List Byte :=
  let body := digestBytes m.qnonce ++ m.quote.flatMap digestBytes ++ digestBytes (Config.policyDigest serial)
  body ++ natToBytes 96 (Config.sign (digestOf (sha384 body))).toNat

/-- The cell of a host address: an offset into host memory; past what the host window shows of it, cells of their own. DEDUCED, safe (log 72). -/
def hostCell (a : Nat) : Nat := if a < Win.hostWindow.size then Win.hostWindow.base + a else 2 ^ 60 + a

/-- QUOTE_DONE: the quote is in the host buffer, and QBUSY clears (R326); in recovery no group carries it to the host (R322). DESIGN CHOICE, unsafe (log 40). -/
def execQuoteDone (s : State) : Host.Outcome State Fault Refusal :=
  let m := s.mgmt
  if !m.qbusy then .next s
  else
    let s := if m.recov then s else s.writeHome (hostCell m.qdst) (m.quoteBytes s.policy.serial)
    .next { s with mgmt := { m with qbusy := false } }

/-! Power (R325, R326). -/

/-- PWRREQ: a write below 1,000 is ignored (R326). -/
def execPwrreq (x : W64) (s : State) : Host.Outcome State Fault Refusal :=
  let n : BitVec 13 := x.setWidth 13
  if n.toNat < 1000 then .next s else .next { s with mgmt := { s.mgmt with pwrreq := n } }

/-- PWREFF: min(policy limit, PWRREQ, 4000). DESIGN CHOICE, safe (log 73). -/
def Mgmt.pwreff (m : Mgmt) : Nat := Nat.min m.limit.toNat (Nat.min m.pwrreq.toNat 4000)

/-- POWER_CAP_THROTTLE: the regulators lower the arithmetic clock until the load fits the caps; it changes timing only (R325). DESIGN CHOICE, safe (log 73). -/
def execPowerCapThrottle (s : State) : Host.Outcome State Fault Refusal :=
  .next { s with mgmt := { s.mgmt with throttled := !s.mgmt.throttled } }

/-- FIREFLY_BEACON: one more beacon on the management path (R364). -/
def execFireflyBeacon (s : State) : Host.Outcome State Fault Refusal :=
  .next { s with firefly := { s.firefly with beacons := s.firefly.beacons + 1 } }

/-! Plain registers (R6). -/

/-- Bits hi:lo of a register value. -/
def bitsOf (x : W64) (hi lo : Nat) : Nat := x.toNat / 2 ^ lo % 2 ^ (hi + 1 - lo)

/-- A ring's registers (R292). -/
def Ring.write (r : Ring) (off : Nat) (x : W64) : Ring :=
  match off with
  | 0x00 => if r.en then r else { r with rbase := BitVec.ofNat 57 (bitsOf x 56 12 * 4096) }
  | 0x08 =>
    let n := bitsOf x 4 0
    { r with
      en := x.getLsbD 31, halt := r.halt && !x.getLsbD 30, pmax := BitVec.ofNat 2 (bitsOf x 29 28)
      log2n := if r.en ∨ n < 4 ∨ 16 < n then r.log2n else BitVec.ofNat 5 n }
  | _ => r

/-- A context's block (R328): every field but DBGCTL, MDST, MERR is fixed while EN is 1. DEDUCED, safe (log 63). -/
def Ctx.write (y : Ctx) (off : Nat) (x : W64) : Ctx :=
  match off with
  | 0x58 => { y with dbgctl := BitVec.ofNat 64 (x.toNat % 4) }
  | 0x78 =>
    let y := if x.getLsbD 1 then { y with merr := false } else y
    if y.mbusy then y else { y with mdst := BitVec.ofNat 36 (bitsOf x 51 16), mdstUsed := false }
  | _ =>
    if y.en then y else
      match off with
      | 0x08 => { y with ptb := BitVec.ofNat 40 (bitsOf x 51 12) }
      | 0x10 => { y with skey := BitVec.ofNat 16 (bitsOf x 15 0) }
      | 0x18 => { y with saveb := BitVec.ofNat 45 (bitsOf x 56 12), saven := BitVec.ofNat 12 (bitsOf x 11 0) }
      | 0x20 => { y with shb := BitVec.ofNat 36 (bitsOf x 51 16), shn := BitVec.ofNat 16 (bitsOf x 15 0) }
      | 0x28 => { y with conb := BitVec.ofNat 45 (bitsOf x 56 12) }
      | 0x30 => { y with conn := BitVec.ofNat 15 (bitsOf x 14 0) }
      | 0x38 => { y with prvb := BitVec.ofNat 41 (bitsOf x 56 16), prvg := BitVec.ofNat 16 (bitsOf x 15 0) }
      | 0x40 => { y with
          phwm := BitVec.ofNat 20 (bitsOf x 51 32), psz := BitVec.ofNat 20 (bitsOf x 31 12), prvng := BitVec.ofNat 6 (bitsOf x 5 0) }
      | 0x48 => { y with tplb := BitVec.ofNat 45 (bitsOf x 56 12), tpln := BitVec.ofNat 12 (bitsOf x 11 0) }
      | 0x50 =>
        let n := bitsOf x 12 0
        if n = 0 ∨ 4096 < n then y else { y with monmax := BitVec.ofNat 13 n }
      | _ => y

/-- REGISTER_WRITE: a write of a register without a behaviour of its own, by its offset in BAR 0 (R6). Registers whose write starts something are the other events' own. In recovery only the management controller's registers answer, here and in those events (R322). DEDUCED, safe (log 63). -/
def execRegisterWrite (off : Nat) (x : W64) (s : State) : Host.Outcome State Fault Refusal :=
  if off % 8 ≠ 0 ∨ (s.mgmt.recov ∧ ¬ (0xA000 ≤ off ∧ off < 0xA300)) then .next s
  else if off = 0x2008 then .next { s with bfErr := s.bfErr && !x.getLsbD 2, bfRej := s.bfRej && !x.getLsbD 1 }
  else if 0x3000 ≤ off ∧ off < 0x3180 then
    let g := (off - 0x3000) / 0x20
    if off % 0x20 ≠ 8 then .next s else
      let o := s.ogAt g
      .next (s.setOg g { o with ref := o.ref && !x.getLsbD 1 })
  else if 0x4000 ≤ off ∧ off < 0x8000 then
    let k := (off - 0x4000) / 0x20
    .next (s.setRing (k / 8) (k % 8) ((s.ringAt (k / 8) (k % 8)).write (off % 0x20) x))
  else if 0x8000 ≤ off ∧ off < 0x8400 then
    let c := (off - 0x8000) / 0x10
    if off % 0x10 ≠ 0 then .next s else
      let s := s.setCtx c { s.ctxAt c with wquota := BitVec.ofNat 16 (bitsOf x 47 32) }
      .next (if x.getLsbD 0 then s.preempt c else s)
  else if 0x9000 ≤ off ∧ off < 0x9020 then
    let n := (off - 0x9000) / 8
    let a := bitsOf x 7 0
    if a = 0 then .next s else .next (s.setPart n { s.partAt n with age := BitVec.ofNat 8 a })
  else if off = 0xA028 then .next { s with mgmt := { s.mgmt with qrej := s.mgmt.qrej && !x.getLsbD 1 } }
  else if 0xA040 ≤ off ∧ off < 0xA070 then
    .next { s with mgmt := { s.mgmt with nonce := Tab.set 0 s.mgmt.nonce ((off - 0xA040) / 8) x } }
  else if 0xB000 ≤ off ∧ off < 0xD000 then
    let c := (off - 0xB000) / 0x80
    .next (s.setCtx c ((s.ctxAt c).write (off % 0x80) x))
  else if 0xD010 ≤ off ∧ off < 0xD030 then
    let n := (off - 0xD010) / 8
    let t := bitsOf x 15 0
    if t = 0 then .next s else .next (s.setPart n { s.partAt n with rtmo := BitVec.ofNat 16 t })
  else .next s

/-! Reads of the registers (R6): a write-only field, a reserved one and an offset without a register read as zero. -/

def OgSt.code : OgSt → Nat
  | .active => 0 | .quiescing => 1 | .draining => 2 | .dark => 3 | .training => 4 | .mapping => 5 | .failed => 6

def bit (b : Bool) (n : Nat) : Nat := if b then 2 ^ n else 0

/-- OGSTAT (R282): TGT equals PERS when no switch is in progress. -/
def Og.stat (o : Og) : Nat :=
  o.lanes.toNat * 2 ^ 32 + o.st.code * 2 ^ 28 + o.pers.toNat * 2 ^ 24 + (if o.busy then o.tgt else o.pers).toNat * 2 ^ 20 +
    o.reason.toNat * 2 ^ 16 + bit o.pin 2 + bit o.ref 1 + bit o.busy 0

/-- A ring's registers (R292). -/
def Ring.read (r : Ring) (off : Nat) : Nat :=
  match off with
  | 0x00 => r.rbase.toNat
  | 0x08 => bit r.en 31 + bit r.halt 30 + r.pmax.toNat * 2 ^ 28 + r.log2n.toNat
  | 0x18 => r.rhead.toNat
  | _ => 0

/-- A context's block (R328). -/
def Ctx.read (y : Ctx) (off : Nat) : Nat :=
  match off with
  | 0x00 => y.part.toNat * 2 ^ 6 + bit y.en 0
  | 0x08 => y.ptb.toNat * 2 ^ 12
  | 0x10 => y.skey.toNat
  | 0x18 => y.saveb.toNat * 2 ^ 12 + y.saven.toNat
  | 0x20 => y.shb.toNat * 2 ^ 16 + y.shn.toNat
  | 0x28 => y.conb.toNat * 2 ^ 12
  | 0x30 => y.conn.toNat
  | 0x38 => y.prvb.toNat * 2 ^ 16 + y.prvg.toNat
  | 0x40 => y.phwm.toNat * 2 ^ 32 + y.psz.toNat * 2 ^ 12 + y.prvng.toNat
  | 0x48 => y.tplb.toNat * 2 ^ 12 + y.tpln.toNat
  | 0x50 => y.monmax.toNat
  | 0x58 => y.dbgctl.toNat
  | 0x68 => bit y.ibusy 0
  | 0x78 => y.mdst.toNat * 2 ^ 16 + bit y.merr 1 + bit y.mbusy 0
  | _ => 0

/-- The management registers (R326). -/
def Mgmt.read (m : Mgmt) (off : Nat) : Nat :=
  match off with
  | 0xA000 => m.stage.toNat * 16 + bit m.recov 3 + bit m.polok 2 + bit m.idok 1 + bit m.ready 0
  | 0xA008 => m.pwrreq.toNat
  | 0xA010 => m.pwreff
  | 0xA028 => bit m.qrej 1 + bit m.qbusy 0
  | 0xA030 => m.sel.toNat
  | _ => 0

/-- Firefly's FFSTAT (R364). -/
def Firefly.stat (f : Firefly) : Nat :=
  f.retired.toNat * 2 ^ 48 + f.narrow.toNat * 2 ^ 36 + f.cdlost.toNat * 2 ^ 16 + f.linkdn.toNat * 2 ^ 8 + bit f.overLoss 1 + bit f.repl 0

/-- The value that a read of BAR 0 gives at an offset, from the host or the management controller (R6, R269, R282, R292, R295, R296, R326, R328, R364). DEDUCED, safe (log 98). -/
def State.readRegister (s : State) (off : Nat) : W64 :=
  BitVec.ofNat 64 (
    if off % 8 ≠ 0 then 0
    else if off = 0x2008 then bit s.bfErr 2 + bit s.bfRej 1 + bit s.flip.isSome 0
    else if 0x3000 ≤ off ∧ off < 0x3180 then (if off % 0x20 = 8 then (s.ogAt ((off - 0x3000) / 0x20)).stat else 0)
    else if 0x4000 ≤ off ∧ off < 0x8000 then
      let k := (off - 0x4000) / 0x20
      (s.ringAt (k / 8) (k % 8)).read (off % 0x20)
    else if 0x8000 ≤ off ∧ off < 0x8400 then
      let y := s.ctxAt ((off - 0x8000) / 0x10)
      if off % 0x10 = 0 then y.wquota.toNat * 2 ^ 32 else y.slips.toNat
    else if 0x9000 ≤ off ∧ off < 0x9020 then (s.partAt ((off - 0x9000) / 8)).age.toNat
    else if 0xA000 ≤ off ∧ off < 0xA100 then s.mgmt.read off
    else if 0xA100 ≤ off ∧ off < 0xA300 then (s.ctxAt ((off - 0xA100) / 8)).twovf.toNat
    else if 0xB000 ≤ off ∧ off < 0xD000 then (s.ctxAt ((off - 0xB000) / 0x80)).read (off % 0x80)
    else if off = 0xD000 then s.firefly.stat
    else if 0xD010 ≤ off ∧ off < 0xD030 then (s.partAt ((off - 0xD010) / 8)).rtmo.toNat
    else if 0xD100 ≤ off ∧ off < 0xD300 then (s.ctxAt ((off - 0xD100) / 8)).errcnt.toNat
    else 0)

/-! Scarab's writes (R342). -/

/-- The part of a write that lies in one sector, at device scope (R250): held while the page flips, through the DCA in host bias. A part that covers its sector clears the mark (R356). -/
def State.scarabPart (s : State) (core c va : Nat) (bs : List Byte) : State :=
    match s.translate core c .write va with
    | .error _ => s
    | .ok t =>
      let key := cellOf t.pa
      if t.kind ≠ 0 ∧ t.kind ≠ 2 then s
      else if !isHbm key then s.portWrite key bs
      else match s.biasState key with
        | 0 =>
          let s := (((s.settleUnit core c key).dropL1 core (· == tagOf c key)).writeHome key bs).mirror (core / 24) c key bs
          if bs.length = 64 then s.cleanse (core / 24) c key true else s
        | 1 => (s.viaDca key true (fun s =>
          let s := s.writeHome key bs
          if bs.length = 64 then s.cleanse (core / 24) c key true else s)).getD s
        | _ => s

/-- A write to context memory: its parts, sector by sector. -/
def State.scarabStore (s : State) (core c va : Nat) (bs : List Byte) : State :=
  let first := Nat.min bs.length (64 - va % 64)
  (List.range ((va % 64 + bs.length + 63) / 64)).foldl (fun s i =>
    if i = 0 then s.scarabPart core c va (bs.take first)
    else s.scarabPart core c (va + first + 64 * (i - 1)) ((bs.drop (first + 64 * (i - 1))).take 64)) s

/-- SCARAB_WRITE: while a split or a sequencer is parked on a record that has reached a core's queue, Scarab writes registers of the parked split's threads, the warp's scalars and fpflags, the workgroup's scratch, or context memory; a register that is covered is no longer poisoned (R342, R356). DEDUCED, unsafe (log 57). -/
def execScarabWrite (id : Nat) (e : ScarabEffect) (s : State) : Host.Outcome State Fault Refusal :=
  match Tab.look s.recs id with
  | none => .next s
  | some r =>
    if !r.queued then .next s else
    let core := r.core
    let onWarp := fun (f : Warp → Warp) => (match r.warp with
      | some k => s.modWarp k (fun w => if w.onRecord id = 0 then w else f w)
      | none => s)
    let mine := fun (w : Warp) (l : BitVec 5) => inMask (w.onRecord id) l.toNat
    match e with
    | .scalar n x => .next (onWarp (fun w => w.writeS 0 n.toNat (BitVec.allOnes 32) x))
    | .vector n l x => .next (onWarp (fun w => if mine w l && decide (n.toNat < w.quota) then w.writeV 0 n.toNat (1#32 <<< l.toNat) (fun _ => x) else w))
    | .predicate p l b => .next (onWarp (fun w => if mine w l then w.writeP 0 p.toNat (1#32 <<< l.toNat) (fun _ => b) else w))
    | .fpflags x => .next (onWarp (fun w => { w with fpflags := x }))
    | .scratch a data =>
      (match s.gridOf r.wgKey with
        | some g => if a + data.length ≤ g.scrBytes then .next (s.writeScratch r.wgKey a data) else .next s
        | none => .next s)
    | .memory va data => .next (s.scarabStore core r.ctx va data)

end Sys2Proof.Machine
end

