-- ==== Sys2Proof/Machine/Scalar.lean ====
section
/-! DEFINITION. The scalar operations of class 0 (R100), on 64 bits, arithmetic modulo 2^64. -/

namespace Sys2Proof.Machine

/-- mov sd, y. -/
def execSMov (h : Head) (sd : BitVec 6) (y : SSrc) (s : State) : Host.Outcome State Fault Refusal :=
  scalarOp (.sMov h sd y) h sd (fun r => r.second 2 y) s

/-- movh sd, imm: the high half replaced, the low half of sd kept. -/
def execMovh (h : Head) (sd : BitVec 6) (imm : BitVec 32) (s : State) : Host.Outcome State Fault Refusal :=
  scalarOp (.movh h sd imm) h sd (fun r => imm ++ ((r.scalar 1 sd).setWidth 32 : W32)) s

def execSIadd (h : Head) (sd sa : BitVec 6) (y : SSrc) (s : State) : Host.Outcome State Fault Refusal :=
  scalarOp (.sIadd h sd sa y) h sd (fun r => r.scalar 1 sa + r.second 2 y) s

def execSIsub (h : Head) (sd sa : BitVec 6) (y : SSrc) (s : State) : Host.Outcome State Fault Refusal :=
  scalarOp (.sIsub h sd sa y) h sd (fun r => r.scalar 1 sa - r.second 2 y) s

def execSMul (h : Head) (sd sa : BitVec 6) (y : SSrc) (s : State) : Host.Outcome State Fault Refusal :=
  scalarOp (.sMul h sd sa y) h sd (fun r => r.scalar 1 sa * r.second 2 y) s

/-- Bits [127:64] of the unsigned product. -/
def execSMulhu (h : Head) (sd sa : BitVec 6) (y : SSrc) (s : State) : Host.Outcome State Fault Refusal :=
  scalarOp (.sMulhu h sd sa y) h sd (fun r => mulHighU (r.scalar 1 sa) (r.second 2 y)) s

def execSAnd (h : Head) (sd sa : BitVec 6) (y : SSrc) (s : State) : Host.Outcome State Fault Refusal :=
  scalarOp (.sAnd h sd sa y) h sd (fun r => r.scalar 1 sa &&& r.second 2 y) s

def execSOr (h : Head) (sd sa : BitVec 6) (y : SSrc) (s : State) : Host.Outcome State Fault Refusal :=
  scalarOp (.sOr h sd sa y) h sd (fun r => r.scalar 1 sa ||| r.second 2 y) s

def execSXor (h : Head) (sd sa : BitVec 6) (y : SSrc) (s : State) : Host.Outcome State Fault Refusal :=
  scalarOp (.sXor h sd sa y) h sd (fun r => r.scalar 1 sa ^^^ r.second 2 y) s

/-- 0 when the count, read unsigned, is 64 or more. -/
def execSShl (h : Head) (sd sa : BitVec 6) (y : SSrc) (s : State) : Host.Outcome State Fault Refusal :=
  scalarOp (.sShl h sd sa y) h sd (fun r => shlBy (r.scalar 1 sa) (r.second 2 y)) s

def execSShr (h : Head) (sd sa : BitVec 6) (y : SSrc) (s : State) : Host.Outcome State Fault Refusal :=
  scalarOp (.sShr h sd sa y) h sd (fun r => shrBy (r.scalar 1 sa) (r.second 2 y)) s

/-- 64 copies of the sign when the count is 64 or more. -/
def execSSar (h : Head) (sd sa : BitVec 6) (y : SSrc) (s : State) : Host.Outcome State Fault Refusal :=
  scalarOp (.sSar h sd sa y) h sd (fun r => sarBy (r.scalar 1 sa) (r.second 2 y)) s

def execSMin (h : Head) (sd sa : BitVec 6) (y : SSrc) (s : State) : Host.Outcome State Fault Refusal :=
  scalarOp (.sMin h sd sa y) h sd (fun r => minS (r.scalar 1 sa) (r.second 2 y)) s

def execSMax (h : Head) (sd sa : BitVec 6) (y : SSrc) (s : State) : Host.Outcome State Fault Refusal :=
  scalarOp (.sMax h sd sa y) h sd (fun r => maxS (r.scalar 1 sa) (r.second 2 y)) s

/-- 1 if the comparison holds, else 0. -/
def execSset (h : Head) (cc : Cmp) (sd sa sb : BitVec 6) (s : State) : Host.Outcome State Fault Refusal :=
  scalarOp (.sset h cc sd sa sb) h sd (fun r => if cmpInt cc (r.scalar 1 sa) (r.scalar 2 sb) then 1 else 0) s

def execSPopc (h : Head) (sd sa : BitVec 6) (s : State) : Host.Outcome State Fault Refusal :=
  scalarOp (.sPopc h sd sa) h sd (fun r => BitVec.ofNat 64 (popCount (r.scalar 1 sa))) s

/-- 64 when the source is 0. -/
def execSClz (h : Head) (sd sa : BitVec 6) (s : State) : Host.Outcome State Fault Refusal :=
  scalarOp (.sClz h sd sa) h sd (fun r => BitVec.ofNat 64 (leadingZeros (r.scalar 1 sa))) s

end Sys2Proof.Machine
end

