-- ==== Sys2Proof/Machine/Sfu.lean ====
section
/-! DEFINITION. The SFU and conversion instructions of class 3 (R107, R108, R200-R203). -/

namespace Sys2Proof.Machine

/-- A function of one FP32 pattern. -/
def fpUn (f : Nat → Nat × Fl) : List W64 → W64 × Fl
  | a :: _ => let r := f a.toNat; (BitVec.ofNat 64 r.1, r.2)
  | _ => (0, 0)

def execRcp (h : Head) (fsel : Bool) (d : BitVec 8) (a : Src) (s : State) : Host.Outcome State Fault Refusal :=
  longOp (.rcp h fsel d a) h fsel (.r32 d) [.r32 a] (fpUn rcp32) s
def execRsqrt (h : Head) (fsel : Bool) (d : BitVec 8) (a : Src) (s : State) : Host.Outcome State Fault Refusal :=
  longOp (.rsqrt h fsel d a) h fsel (.r32 d) [.r32 a] (fpUn rsqrt32) s
def execSqrt (h : Head) (fsel : Bool) (d : BitVec 8) (a : Src) (s : State) : Host.Outcome State Fault Refusal :=
  longOp (.sqrt h fsel d a) h fsel (.r32 d) [.r32 a] (fpUn sqrt32) s
def execEx2 (h : Head) (fsel : Bool) (d : BitVec 8) (a : Src) (s : State) : Host.Outcome State Fault Refusal :=
  longOp (.ex2 h fsel d a) h fsel (.r32 d) [.r32 a] (fpUn ex2of) s
def execLg2 (h : Head) (fsel : Bool) (d : BitVec 8) (a : Src) (s : State) : Host.Outcome State Fault Refusal :=
  longOp (.lg2 h fsel d a) h fsel (.r32 d) [.r32 a] (fpUn lg2of) s
def execSin (h : Head) (fsel : Bool) (d : BitVec 8) (a : Src) (s : State) : Host.Outcome State Fault Refusal :=
  longOp (.sin h fsel d a) h fsel (.r32 d) [.r32 a] (fpUn sin32) s
def execCos (h : Head) (fsel : Bool) (d : BitVec 8) (a : Src) (s : State) : Host.Outcome State Fault Refusal :=
  longOp (.cos h fsel d a) h fsel (.r32 d) [.r32 a] (fpUn cos32) s
def execFrnd (h : Head) (fsel : Bool) (rnd : Rnd) (d : BitVec 8) (a : Src) (s : State) : Host.Outcome State Fault Refusal :=
  longOp (.frnd h fsel rnd d a) h fsel (.r32 d) [.r32 a] (fpUn (frnd32 rnd)) s

/-! CVT (R202, R203). -/

/-- A type code as it stands for the grid: slot names the format of a slot; none is a block format or wfx96. -/
def Grid.typeCode (g : Grid) (fs : BitVec 3) : TypeCode → Option TypeCode
  | .slot => (slotOf (g.slotWord fs.toNat)).type
  | t => some t

/-- An operand that should be a pair and is none (R90, R91). -/
def badPair (wide : Bool) : Src → Bool
  | .v r => wide && (decide (r.toNat % 2 = 1) || decide (254 ≤ r.toNat))
  | .s _ => false

def cvtOpnd (wide : Bool) (a : Src) : Opnd := if wide then .r64 a else .r32 a
def cvtDst (wide : Bool) (d : BitVec 8) : VDst := if wide then .r64 d else .r32 d

/-- The mode and saturation that govern: the slot's when either type is slot. -/
def Grid.cvtMode (g : Grid) (rnd : Rnd) (sat : Bool) (dt st : TypeCode) (fs : BitVec 3) : Rnd × Bool :=
  if dt = .slot ∨ st = .slot then
    let f := slotOf (g.slotWord fs.toNat)
    (f.rnd, f.sat)
  else (rnd, sat)

/-- CVT: a slot of a block format or wfx96 raises slot-mismatch; a slot of a 64-bit type makes its operand a pair. -/
def execCvt (h : Head) (fsel : Bool) (rnd : Rnd) (sat : Bool) (dt st : TypeCode) (fs : BitVec 3) (d : BitVec 8) (a : Src)
    (s : State) : Host.Outcome State Fault Refusal :=
  match s.curView with
  | none => .fault .noIssuer
  | some v =>
    let i := Instr.cvt h fsel rnd sat dt st fs d a
    match v.g.typeCode fs dt, v.g.typeCode fs st with
    | some t, some u =>
      let os := [cvtOpnd (isWide u) a]
      let dst := cvtDst (isWide t) d
      let pre := { preOf (some fsel) dst os with bad := badPair (isWide t) (.v d) || badPair (isWide u) a }
      let m := v.g.cvtMode rnd sat dt st fs
      runWarp i h pre s (fun r => r.valueLong fsel dst os (fpUn (convert m.1 m.2 t u)))
    | _, _ =>
      runWarp i h (preOf (some fsel) (.r32 d) [.r32 a]) s
        (fun r => r.trap1 causeSlot r.en (BitVec.ofNat 64 fs.toNat))

/-! PACK4 and UNPACK4 (R200, R201). -/

/-- Results of a whole-warp class-3 word: one value and flags for each lane. -/
def Run.warpLong (r : Run) (fsel : Bool) (d : BitVec 8) (pop : Bool) (f : Nat → W64 × Fl) : State :=
  let id := r.s.nextId
  let res := (maskLanes r.en).map (fun l => (l, f l))
  let o := r.newOp fsel (.regs (if d = 255#8 then .qm else .v d.toNat) false (res.map (fun e => (e.1, e.2.1)))
    (res.map (fun e => (e.1, e.2.2))))
  let s := (r.launch o).popQa r.v.wgKey pop
  if d = 255#8 then s.modWg r.v.wgKey (fun wg => wg.push { owner := some id, words := [] }) else s

/-- The eight codes of a lane's word. -/
def codesWord (cs : List (Nat × Fl)) (l : Nat) : Nat :=
  (List.range 8).foldl (fun a j => a + (cs.getD (8 * l + j) (0, 0)).1 * 16 ^ j) 0

/-- pack4 d, a, fsn. -/
def execPack4 (h : Head) (fsel : Bool) (d : BitVec 8) (a : Src) (fs : BitVec 3) (s : State) : Host.Outcome State Fault Refusal :=
  let os := [Opnd.r32 a]
  runWarp (.pack4 h fsel d a fs) h (preOf (some fsel) (.r32 d) os) s (fun r =>
    let f := slotOf (r.v.g.slotWord fs.toNat)
    if !f.isBlock then r.trap1 causeSlot r.en (BitVec.ofNat 64 fs.toNat) else
    let bad := r.poisoned (os.flatMap Opnd.reads)
    if bad ≠ 0 then r.trapPoisonReg bad else
      let p := pack4 (f.fmt - 14) f.rnd
        (lanes32.map (fun l => if inMask r.en l then some (r.value 1 l (.r32 a)).toNat else none))
      r.warpLong fsel d (Opnd.isQa (.r32 a)) (fun l =>
        (BitVec.ofNat 64 (if l < 4 then codesWord p.2 l else if l = 4 then p.1 else 0), (p.2.getD l (0, 0)).2)))

/-- Enabled lanes of UNPACK4 whose codes or scale byte stand in a poisoned register. -/
def Run.poisonedAcross (r : Run) (a : Src) : Mask :=
  let hit := fun l => match a with
    | .v x => decide (x.toNat < 254) && r.v.w.vPoison.contains (32 * x.toNat + l)
    | .s _ => false
  maskOf (fun l => inMask r.en l && (hit (l / 8) || hit 4))

/-- unpack4 d, a, fsn: codes from lanes 0 to 3 and the scale byte from lane 4, as they stand. -/
def execUnpack4 (h : Head) (fsel : Bool) (d : BitVec 8) (a : Src) (fs : BitVec 3) (s : State) : Host.Outcome State Fault Refusal :=
  let os := [Opnd.r32 a]
  runWarp (.unpack4 h fsel d a fs) h (preOf (some fsel) (.r32 d) os) s (fun r =>
    let f := slotOf (r.v.g.slotWord fs.toNat)
    if !f.isBlock then r.trap1 causeSlot r.en (BitVec.ofNat 64 fs.toNat) else
    let bad := r.poisonedAcross a
    if bad ≠ 0 then r.trapPoisonReg bad else
      let sg := (r.value 1 4 (.r32 a)).toNat % 256
      r.warpLong fsel d (Opnd.isQa (.r32 a)) (fun l =>
        let c := (r.value 1 (l / 8) (.r32 a)).toNat / 16 ^ (l % 8) % 16
        let x := blockValue sg c
        (BitVec.ofNat 64 x.1, x.2)))

end Sys2Proof.Machine
end

