-- ==== Sys2Proof/Machine/Vector.lean ====
section
/-! DEFINITION. The vector integer operations of class 1 (R101), on 32 bits per thread. -/

namespace Sys2Proof.Machine

/-- A 32-bit function of one, two or three operands; integer arithmetic sets no flag. -/
def un32 (f : W32 → W32) : List W64 → W64 × Fl
  | a :: _ => ((f (a.setWidth 32)).setWidth 64, 0)
  | _ => (0, 0)
def bin32 (f : W32 → W32 → W32) : List W64 → W64 × Fl
  | a :: b :: _ => ((f (a.setWidth 32) (b.setWidth 32)).setWidth 64, 0)
  | _ => (0, 0)
def tri32 (f : W32 → W32 → W32 → W32) : List W64 → W64 × Fl
  | a :: b :: c :: _ => ((f (a.setWidth 32) (b.setWidth 32) (c.setWidth 32)).setWidth 64, 0)
  | _ => (0, 0)

def execMov (h : Head) (d : BitVec 8) (a : Src) (s : State) : Host.Outcome State Fault Refusal :=
  valueOp (.mov h d a) h 1 (.r32 d) [.r32 a] (un32 id) s
def execMovImm (h : Head) (d : BitVec 8) (imm : W32) (s : State) : Host.Outcome State Fault Refusal :=
  valueOp (.movImm h d imm) h 1 (.r32 d) [.imm imm] (un32 id) s
def execIadd (h : Head) (d : BitVec 8) (a b : Src) (s : State) : Host.Outcome State Fault Refusal :=
  valueOp (.iadd h d a b) h 1 (.r32 d) [.r32 a, .r32 b] (bin32 (fun x y => x + y)) s
def execIaddImm (h : Head) (d : BitVec 8) (a : Src) (imm : W32) (s : State) : Host.Outcome State Fault Refusal :=
  valueOp (.iaddImm h d a imm) h 1 (.r32 d) [.r32 a, .imm imm] (bin32 (fun x y => x + y)) s
def execIsub (h : Head) (d : BitVec 8) (a b : Src) (s : State) : Host.Outcome State Fault Refusal :=
  valueOp (.isub h d a b) h 1 (.r32 d) [.r32 a, .r32 b] (bin32 (fun x y => x - y)) s
def execIsubImm (h : Head) (d : BitVec 8) (a : Src) (imm : W32) (s : State) : Host.Outcome State Fault Refusal :=
  valueOp (.isubImm h d a imm) h 1 (.r32 d) [.r32 a, .imm imm] (bin32 (fun x y => x - y)) s
def execMul (h : Head) (d : BitVec 8) (a b : Src) (s : State) : Host.Outcome State Fault Refusal :=
  valueOp (.mul h d a b) h 1 (.r32 d) [.r32 a, .r32 b] (bin32 (fun x y => x * y)) s
def execMulImm (h : Head) (d : BitVec 8) (a : Src) (imm : W32) (s : State) : Host.Outcome State Fault Refusal :=
  valueOp (.mulImm h d a imm) h 1 (.r32 d) [.r32 a, .imm imm] (bin32 (fun x y => x * y)) s
def execMulhu (h : Head) (d : BitVec 8) (a b : Src) (s : State) : Host.Outcome State Fault Refusal :=
  valueOp (.mulhu h d a b) h 1 (.r32 d) [.r32 a, .r32 b] (bin32 (mulHighU)) s
def execMulhuImm (h : Head) (d : BitVec 8) (a : Src) (imm : W32) (s : State) : Host.Outcome State Fault Refusal :=
  valueOp (.mulhuImm h d a imm) h 1 (.r32 d) [.r32 a, .imm imm] (bin32 (mulHighU)) s
def execMulhi (h : Head) (d : BitVec 8) (a b : Src) (s : State) : Host.Outcome State Fault Refusal :=
  valueOp (.mulhi h d a b) h 1 (.r32 d) [.r32 a, .r32 b] (bin32 (mulHighS)) s
def execMulhiImm (h : Head) (d : BitVec 8) (a : Src) (imm : W32) (s : State) : Host.Outcome State Fault Refusal :=
  valueOp (.mulhiImm h d a imm) h 1 (.r32 d) [.r32 a, .imm imm] (bin32 (mulHighS)) s
def execAnd (h : Head) (d : BitVec 8) (a b : Src) (s : State) : Host.Outcome State Fault Refusal :=
  valueOp (.and h d a b) h 1 (.r32 d) [.r32 a, .r32 b] (bin32 (fun x y => x &&& y)) s
def execAndImm (h : Head) (d : BitVec 8) (a : Src) (imm : W32) (s : State) : Host.Outcome State Fault Refusal :=
  valueOp (.andImm h d a imm) h 1 (.r32 d) [.r32 a, .imm imm] (bin32 (fun x y => x &&& y)) s
def execOr (h : Head) (d : BitVec 8) (a b : Src) (s : State) : Host.Outcome State Fault Refusal :=
  valueOp (.or h d a b) h 1 (.r32 d) [.r32 a, .r32 b] (bin32 (fun x y => x ||| y)) s
def execOrImm (h : Head) (d : BitVec 8) (a : Src) (imm : W32) (s : State) : Host.Outcome State Fault Refusal :=
  valueOp (.orImm h d a imm) h 1 (.r32 d) [.r32 a, .imm imm] (bin32 (fun x y => x ||| y)) s
def execXor (h : Head) (d : BitVec 8) (a b : Src) (s : State) : Host.Outcome State Fault Refusal :=
  valueOp (.xor h d a b) h 1 (.r32 d) [.r32 a, .r32 b] (bin32 (fun x y => x ^^^ y)) s
def execXorImm (h : Head) (d : BitVec 8) (a : Src) (imm : W32) (s : State) : Host.Outcome State Fault Refusal :=
  valueOp (.xorImm h d a imm) h 1 (.r32 d) [.r32 a, .imm imm] (bin32 (fun x y => x ^^^ y)) s
def execShl (h : Head) (d : BitVec 8) (a b : Src) (s : State) : Host.Outcome State Fault Refusal :=
  valueOp (.shl h d a b) h 1 (.r32 d) [.r32 a, .r32 b] (bin32 (shlBy)) s
def execShlImm (h : Head) (d : BitVec 8) (a : Src) (imm : W32) (s : State) : Host.Outcome State Fault Refusal :=
  valueOp (.shlImm h d a imm) h 1 (.r32 d) [.r32 a, .imm imm] (bin32 (shlBy)) s
def execShr (h : Head) (d : BitVec 8) (a b : Src) (s : State) : Host.Outcome State Fault Refusal :=
  valueOp (.shr h d a b) h 1 (.r32 d) [.r32 a, .r32 b] (bin32 (shrBy)) s
def execShrImm (h : Head) (d : BitVec 8) (a : Src) (imm : W32) (s : State) : Host.Outcome State Fault Refusal :=
  valueOp (.shrImm h d a imm) h 1 (.r32 d) [.r32 a, .imm imm] (bin32 (shrBy)) s
def execSar (h : Head) (d : BitVec 8) (a b : Src) (s : State) : Host.Outcome State Fault Refusal :=
  valueOp (.sar h d a b) h 1 (.r32 d) [.r32 a, .r32 b] (bin32 (sarBy)) s
def execSarImm (h : Head) (d : BitVec 8) (a : Src) (imm : W32) (s : State) : Host.Outcome State Fault Refusal :=
  valueOp (.sarImm h d a imm) h 1 (.r32 d) [.r32 a, .imm imm] (bin32 (sarBy)) s
def execImad (h : Head) (d : BitVec 8) (a b c : Src) (s : State) : Host.Outcome State Fault Refusal :=
  valueOp (.imad h d a b c) h 1 (.r32 d) [.r32 a, .r32 b, .r32 c] (tri32 (fun x y z => x * y + z)) s

/-- Signed, or unsigned with SUB[0] = 1. -/
def execMin (h : Head) (uns : Bool) (d : BitVec 8) (a b : Src) (s : State) : Host.Outcome State Fault Refusal :=
  valueOp (.min h uns d a b) h 1 (.r32 d) [.r32 a, .r32 b] (bin32 (if uns then minU else minS)) s
def execMax (h : Head) (uns : Bool) (d : BitVec 8) (a b : Src) (s : State) : Host.Outcome State Fault Refusal :=
  valueOp (.max h uns d a b) h 1 (.r32 d) [.r32 a, .r32 b] (bin32 (if uns then maxU else maxS)) s

/-- a where predicate c is true, else b. -/
def execSel (h : Head) (d : BitVec 8) (a b : Src) (pc : BitVec 3) (s : State) : Host.Outcome State Fault Refusal :=
  valueOp (.sel h d a b pc) h 1 (.r32 d) [.r32 a, .r32 b, .pred pc]
    (fun vs => match vs with
      | x :: y :: c :: _ => ((if c.getLsbD 0 then (x.setWidth 32 : W32) else y.setWidth 32).setWidth 64, 0)
      | _ => (0, 0)) s

def execPopc (h : Head) (d : BitVec 8) (a : Src) (s : State) : Host.Outcome State Fault Refusal :=
  valueOp (.popc h d a) h 1 (.r32 d) [.r32 a] (un32 (fun x => BitVec.ofNat 32 (popCount x))) s
def execClz (h : Head) (d : BitVec 8) (a : Src) (s : State) : Host.Outcome State Fault Refusal :=
  valueOp (.clz h d a) h 1 (.r32 d) [.r32 a] (un32 (fun x => BitVec.ofNat 32 (leadingZeros x))) s
def execBrev (h : Head) (d : BitVec 8) (a : Src) (s : State) : Host.Outcome State Fault Refusal :=
  valueOp (.brev h d a) h 1 (.r32 d) [.r32 a] (un32 bitReverse) s

end Sys2Proof.Machine
end

