-- ==== Sys2Proof/Machine/Dispatch.lean ====
section
/-! DEFINITION. The meaning of every instruction, operation and event: one arm per constructor of Instr. -/

namespace Sys2Proof.Machine

def exec (i : Instr) (s : State) : Host.Outcome State Fault Refusal :=
  match i with
  | .nop h => Sys2Proof.Machine.execNop h s
  | .bra h off => Sys2Proof.Machine.execBra h off s
  | .bnz h sc off => Sys2Proof.Machine.execBnz h sc off s
  | .bz h sc off => Sys2Proof.Machine.execBz h sc off s
  | .call h lv off => Sys2Proof.Machine.execCall h lv off s
  | .ret h lv => Sys2Proof.Machine.execRet h lv s
  | .exit h => Sys2Proof.Machine.execExit h s
  | .tcall h off => Sys2Proof.Machine.execTcall h off s
  | .tcallW h off => Sys2Proof.Machine.execTcallW h off s
  | .tret h => Sys2Proof.Machine.execTret h s
  | .tquit h => Sys2Proof.Machine.execTquit h s
  | .tstat h sd n => Sys2Proof.Machine.execTstat h sd n s
  | .tstatCancel h sd => Sys2Proof.Machine.execTstatCancel h sd s
  | .tbar h => Sys2Proof.Machine.execTbar h s
  | .sMov h sd y => Sys2Proof.Machine.execSMov h sd y s
  | .movh h sd imm => Sys2Proof.Machine.execMovh h sd imm s
  | .sIadd h sd sa y => Sys2Proof.Machine.execSIadd h sd sa y s
  | .sIsub h sd sa y => Sys2Proof.Machine.execSIsub h sd sa y s
  | .sMul h sd sa y => Sys2Proof.Machine.execSMul h sd sa y s
  | .sMulhu h sd sa y => Sys2Proof.Machine.execSMulhu h sd sa y s
  | .sAnd h sd sa y => Sys2Proof.Machine.execSAnd h sd sa y s
  | .sOr h sd sa y => Sys2Proof.Machine.execSOr h sd sa y s
  | .sXor h sd sa y => Sys2Proof.Machine.execSXor h sd sa y s
  | .sShl h sd sa y => Sys2Proof.Machine.execSShl h sd sa y s
  | .sShr h sd sa y => Sys2Proof.Machine.execSShr h sd sa y s
  | .sSar h sd sa y => Sys2Proof.Machine.execSSar h sd sa y s
  | .sMin h sd sa y => Sys2Proof.Machine.execSMin h sd sa y s
  | .sMax h sd sa y => Sys2Proof.Machine.execSMax h sd sa y s
  | .sset h cc sd sa sb => Sys2Proof.Machine.execSset h cc sd sa sb s
  | .sPopc h sd sa => Sys2Proof.Machine.execSPopc h sd sa s
  | .sClz h sd sa => Sys2Proof.Machine.execSClz h sd sa s
  | .mov h d a => Sys2Proof.Machine.execMov h d a s
  | .movImm h d imm => Sys2Proof.Machine.execMovImm h d imm s
  | .iadd h d a b => Sys2Proof.Machine.execIadd h d a b s
  | .iaddImm h d a imm => Sys2Proof.Machine.execIaddImm h d a imm s
  | .isub h d a b => Sys2Proof.Machine.execIsub h d a b s
  | .isubImm h d a imm => Sys2Proof.Machine.execIsubImm h d a imm s
  | .mul h d a b => Sys2Proof.Machine.execMul h d a b s
  | .mulImm h d a imm => Sys2Proof.Machine.execMulImm h d a imm s
  | .mulhu h d a b => Sys2Proof.Machine.execMulhu h d a b s
  | .mulhuImm h d a imm => Sys2Proof.Machine.execMulhuImm h d a imm s
  | .mulhi h d a b => Sys2Proof.Machine.execMulhi h d a b s
  | .mulhiImm h d a imm => Sys2Proof.Machine.execMulhiImm h d a imm s
  | .imad h d a b c => Sys2Proof.Machine.execImad h d a b c s
  | .and h d a b => Sys2Proof.Machine.execAnd h d a b s
  | .andImm h d a imm => Sys2Proof.Machine.execAndImm h d a imm s
  | .or h d a b => Sys2Proof.Machine.execOr h d a b s
  | .orImm h d a imm => Sys2Proof.Machine.execOrImm h d a imm s
  | .xor h d a b => Sys2Proof.Machine.execXor h d a b s
  | .xorImm h d a imm => Sys2Proof.Machine.execXorImm h d a imm s
  | .shl h d a b => Sys2Proof.Machine.execShl h d a b s
  | .shlImm h d a imm => Sys2Proof.Machine.execShlImm h d a imm s
  | .shr h d a b => Sys2Proof.Machine.execShr h d a b s
  | .shrImm h d a imm => Sys2Proof.Machine.execShrImm h d a imm s
  | .sar h d a b => Sys2Proof.Machine.execSar h d a b s
  | .sarImm h d a imm => Sys2Proof.Machine.execSarImm h d a imm s
  | .min h uns d a b => Sys2Proof.Machine.execMin h uns d a b s
  | .max h uns d a b => Sys2Proof.Machine.execMax h uns d a b s
  | .sel h d a b pc => Sys2Proof.Machine.execSel h d a b pc s
  | .popc h d a => Sys2Proof.Machine.execPopc h d a s
  | .clz h d a => Sys2Proof.Machine.execClz h d a s
  | .brev h d a => Sys2Proof.Machine.execBrev h d a s
  | .fadd h rnd sat d a b => Sys2Proof.Machine.execFadd h rnd sat d a b s
  | .fsub h rnd sat d a b => Sys2Proof.Machine.execFsub h rnd sat d a b s
  | .fmul h rnd sat d a b => Sys2Proof.Machine.execFmul h rnd sat d a b s
  | .ffma h rnd sat d a b c => Sys2Proof.Machine.execFfma h rnd sat d a b c s
  | .fmin h d a b => Sys2Proof.Machine.execFmin h d a b s
  | .fmax h d a b => Sys2Proof.Machine.execFmax h d a b s
  | .faddF64 h rnd sat d a b => Sys2Proof.Machine.execFaddF64 h rnd sat d a b s
  | .fsubF64 h rnd sat d a b => Sys2Proof.Machine.execFsubF64 h rnd sat d a b s
  | .fmulF64 h rnd sat d a b => Sys2Proof.Machine.execFmulF64 h rnd sat d a b s
  | .ffmaF64 h rnd sat d a b c => Sys2Proof.Machine.execFfmaF64 h rnd sat d a b c s
  | .fminF64 h d a b => Sys2Proof.Machine.execFminF64 h d a b s
  | .fmaxF64 h d a b => Sys2Proof.Machine.execFmaxF64 h d a b s
  | .hadd2 h bf rnd sat d a b => Sys2Proof.Machine.execHadd2 h bf rnd sat d a b s
  | .hsub2 h bf rnd sat d a b => Sys2Proof.Machine.execHsub2 h bf rnd sat d a b s
  | .hmul2 h bf rnd sat d a b => Sys2Proof.Machine.execHmul2 h bf rnd sat d a b s
  | .hfma2 h bf rnd sat d a b c => Sys2Proof.Machine.execHfma2 h bf rnd sat d a b c s
  | .hmin2 h bf d a b => Sys2Proof.Machine.execHmin2 h bf d a b s
  | .hmax2 h bf d a b => Sys2Proof.Machine.execHmax2 h bf d a b s
  | .rcp h fsel d a => Sys2Proof.Machine.execRcp h fsel d a s
  | .rsqrt h fsel d a => Sys2Proof.Machine.execRsqrt h fsel d a s
  | .sqrt h fsel d a => Sys2Proof.Machine.execSqrt h fsel d a s
  | .ex2 h fsel d a => Sys2Proof.Machine.execEx2 h fsel d a s
  | .lg2 h fsel d a => Sys2Proof.Machine.execLg2 h fsel d a s
  | .sin h fsel d a => Sys2Proof.Machine.execSin h fsel d a s
  | .cos h fsel d a => Sys2Proof.Machine.execCos h fsel d a s
  | .frnd h fsel rnd d a => Sys2Proof.Machine.execFrnd h fsel rnd d a s
  | .cvt h fsel rnd sat dt st fs d a => Sys2Proof.Machine.execCvt h fsel rnd sat dt st fs d a s
  | .pack4 h fsel d a fs => Sys2Proof.Machine.execPack4 h fsel d a fs s
  | .unpack4 h fsel d a fs => Sys2Proof.Machine.execUnpack4 h fsel d a fs s
  | .icmp h cc pd a b => Sys2Proof.Machine.execIcmp h cc pd a b s
  | .icmpImm h cc pd a imm => Sys2Proof.Machine.execIcmpImm h cc pd a imm s
  | .fcmp h cc pd a b => Sys2Proof.Machine.execFcmp h cc pd a b s
  | .fcmpF64 h cc pd a b => Sys2Proof.Machine.execFcmpF64 h cc pd a b s
  | .pcomb h op pd pa pb => Sys2Proof.Machine.execPcomb h op pd pa pb s
  | .shflXor h fsel d a n => Sys2Proof.Machine.execShflXor h fsel d a n s
  | .shflUp h fsel d a n => Sys2Proof.Machine.execShflUp h fsel d a n s
  | .shflDown h fsel d a n => Sys2Proof.Machine.execShflDown h fsel d a n s
  | .shflIdx h fsel d a n => Sys2Proof.Machine.execShflIdx h fsel d a n s
  | .shflIdxReg h fsel d a b => Sys2Proof.Machine.execShflIdxReg h fsel d a b s
  | .voteAll h fsel pd pa => Sys2Proof.Machine.execVoteAll h fsel pd pa s
  | .voteAny h fsel pd pa => Sys2Proof.Machine.execVoteAny h fsel pd pa s
  | .voteBallot h fsel sd pa => Sys2Proof.Machine.execVoteBallot h fsel sd pa s
  | .scan h fsel op incl d a => Sys2Proof.Machine.execScan h fsel op incl d a s
  | .redux h fsel op sd a => Sys2Proof.Machine.execRedux h fsel op sd a s
  | .ld h fsel w sc d m => Sys2Proof.Machine.execLd h fsel w sc d m s
  | .ldScr h fsel w sc d m => Sys2Proof.Machine.execLdScr h fsel w sc d m s
  | .ldCon h fsel w d m => Sys2Proof.Machine.execLdCon h fsel w d m s
  | .ldPrv h fsel w d m => Sys2Proof.Machine.execLdPrv h fsel w d m s
  | .st h fsel w sc d m => Sys2Proof.Machine.execSt h fsel w sc d m s
  | .copyStart h fsel st_ base off => Sys2Proof.Machine.execCopyStart h fsel st_ base off s
  | .stScr h fsel w sc d m => Sys2Proof.Machine.execStScr h fsel w sc d m s
  | .stPrv h fsel w d m => Sys2Proof.Machine.execStPrv h fsel w d m s
  | .lds h fsel sc sd base off => Sys2Proof.Machine.execLds h fsel sc sd base off s
  | .atomAdd h fsel m d b => Sys2Proof.Machine.execAtomAdd h fsel m d b s
  | .atomMin h fsel m d b => Sys2Proof.Machine.execAtomMin h fsel m d b s
  | .atomMax h fsel m d b => Sys2Proof.Machine.execAtomMax h fsel m d b s
  | .atomMinu h fsel m d b => Sys2Proof.Machine.execAtomMinu h fsel m d b s
  | .atomMaxu h fsel m d b => Sys2Proof.Machine.execAtomMaxu h fsel m d b s
  | .atomAnd h fsel m d b => Sys2Proof.Machine.execAtomAnd h fsel m d b s
  | .atomOr h fsel m d b => Sys2Proof.Machine.execAtomOr h fsel m d b s
  | .atomXor h fsel m d b => Sys2Proof.Machine.execAtomXor h fsel m d b s
  | .atomExch h fsel m d b => Sys2Proof.Machine.execAtomExch h fsel m d b s
  | .atomCas h fsel m d b c => Sys2Proof.Machine.execAtomCas h fsel m d b c s
  | .atomFadd h fsel m d b => Sys2Proof.Machine.execAtomFadd h fsel m d b s
  | .redAdd h fsel m d => Sys2Proof.Machine.execRedAdd h fsel m d s
  | .redMin h fsel m d => Sys2Proof.Machine.execRedMin h fsel m d s
  | .redMax h fsel m d => Sys2Proof.Machine.execRedMax h fsel m d s
  | .redFadd h fsel m d => Sys2Proof.Machine.execRedFadd h fsel m d s
  | .redOr h fsel m d => Sys2Proof.Machine.execRedOr h fsel m d s
  | .fence h fsel sc => Sys2Proof.Machine.execFence h fsel sc s
  | .acq h fsel sc => Sys2Proof.Machine.execAcq h fsel sc s
  | .rel h fsel sc => Sys2Proof.Machine.execRel h fsel sc s
  | .relN h fsel wide d base off => Sys2Proof.Machine.execRelN h fsel wide d base off s
  | .bar h fsel n => Sys2Proof.Machine.execBar h fsel n s
  | .barArrive h fsel n => Sys2Proof.Machine.execBarArrive h fsel n s
  | .barWait h fsel n => Sys2Proof.Machine.execBarWait h fsel n s
  | .pbarArrive h fsel n => Sys2Proof.Machine.execPbarArrive h fsel n s
  | .pbarWait h fsel n => Sys2Proof.Machine.execPbarWait h fsel n s
  | .mwait h fsel scr wide sc cc base off x => Sys2Proof.Machine.execMwait h fsel scr wide sc cc base off x s
  | .cwait h fsel ms base off => Sys2Proof.Machine.execCwait h fsel ms base off s
  | .cwaitTile h fsel ms tile hi => Sys2Proof.Machine.execCwaitTile h fsel ms tile hi s
  | .ctest h fsel sd ms base off => Sys2Proof.Machine.execCtest h fsel sd ms base off s
  | .ctestTile h fsel sd ms tile hi => Sys2Proof.Machine.execCtestTile h fsel sd ms tile hi s
  | .publish h fsel sc nm1 base off => Sys2Proof.Machine.execPublish h fsel sc nm1 base off s
  | .tdef h fsel tile base off ms => Sys2Proof.Machine.execTdef h fsel tile base off ms s
  | .twait h fsel tile => Sys2Proof.Machine.execTwait h fsel tile s
  | .tfree h tile => Sys2Proof.Machine.execTfree h tile s
  | .mldb ta fs => Sys2Proof.Machine.execMldb ta fs s
  | .mmaP acc ta fs rows => Sys2Proof.Machine.execMmaP acc ta fs rows s
  | .mclr acc km1 => Sys2Proof.Machine.execMclr acc km1 s
  | .mscl acc ss => Sys2Proof.Machine.execMscl acc ss s
  | .accst acc ss imm fs => Sys2Proof.Machine.execAccst acc ss imm fs s
  | .accld acc ss imm fs => Sys2Proof.Machine.execAccld acc ss imm fs s
  | .accq acc rm1 => Sys2Proof.Machine.execAccq acc rm1 s
  | .mbarArrive n => Sys2Proof.Machine.execMbarArrive n s
  | .mbarWait n => Sys2Proof.Machine.execMbarWait n s
  | .mloop km1 imm => Sys2Proof.Machine.execMloop km1 imm s
  | .mend => Sys2Proof.Machine.execMend s
  | .packp h fsel a st_ fs r => Sys2Proof.Machine.execPackp h fsel a st_ fs r s
  | .unpackp h fsel d st_ fs r => Sys2Proof.Machine.execUnpackp h fsel d st_ fs r s
  | .mfsr h d sel => Sys2Proof.Machine.execMfsr h d sel s
  | .mtsr h sel a => Sys2Proof.Machine.execMtsr h sel a s
  | .yield h d k => Sys2Proof.Machine.execYield h d k s
  | .syscall h n => Sys2Proof.Machine.execSyscall h n s
  | .trap h n => Sys2Proof.Machine.execTrap h n s
  | .brk h n => Sys2Proof.Machine.execBrk h n s
  | .ipf h base off nm1 => Sys2Proof.Machine.execIpf h base off nm1 s
  | .regq h w1 w2 k => Sys2Proof.Machine.execRegq h w1 w2 k s
  | .cctlWb h sc base off => Sys2Proof.Machine.execCctlWb h sc base off s
  | .cctlInv h sc base off => Sys2Proof.Machine.execCctlInv h sc base off s
  | .cctlWbinv h sc base off => Sys2Proof.Machine.execCctlWbinv h sc base off s
  | .qstat h sd qm => Sys2Proof.Machine.execQstat h sd qm s
  | .clauseStart core slice => Sys2Proof.Machine.execClauseStart core slice s
  | .longLatencyCompletion op lanes => Sys2Proof.Machine.execLongLatencyCompletion op lanes s
  | .accessPerform op idx => Sys2Proof.Machine.execAccessPerform op idx s
  | .icacheMissFill warp => Sys2Proof.Machine.execIcacheMissFill warp s
  | .watchdogFault warp => Sys2Proof.Machine.execWatchdogFault warp s
  | .quotaTransferApply wg => Sys2Proof.Machine.execQuotaTransferApply wg s
  | .workgroupDeadlock wg => Sys2Proof.Machine.execWorkgroupDeadlock wg s
  | .sequencerTaskLoad wg => Sys2Proof.Machine.execSequencerTaskLoad wg s
  | .monitorWake mon => Sys2Proof.Machine.execMonitorWake mon s
  | .monitorEntryArm mon => Sys2Proof.Machine.execMonitorEntryArm mon s
  | .monitorSwapOut cluster => Sys2Proof.Machine.execMonitorSwapOut cluster s
  | .clusterRequeue cluster => Sys2Proof.Machine.execClusterRequeue cluster s
  | .diffApply pkt => Sys2Proof.Machine.execDiffApply pkt s
  | .diffAck pkt => Sys2Proof.Machine.execDiffAck pkt s
  | .lockHandoffReceive msg => Sys2Proof.Machine.execLockHandoffReceive msg s
  | .bteChunkStart copy chunk => Sys2Proof.Machine.execBteChunkStart copy chunk s
  | .chunkComplete copy chunk => Sys2Proof.Machine.execChunkComplete copy chunk s
  | .copyFault copy chunk => Sys2Proof.Machine.execCopyFault copy chunk s
  | .tileDrainDone copy => Sys2Proof.Machine.execTileDrainDone copy s
  | .publishSwitch op => Sys2Proof.Machine.execPublishSwitch op s
  | .pageRetire ctx page => Sys2Proof.Machine.execPageRetire ctx page s
  | .rtailWrite ctx ring x => Sys2Proof.Machine.execRtailWrite ctx ring x s
  | .ringEntryAdmit ctx ring => Sys2Proof.Machine.execRingEntryAdmit ctx ring s
  | .haltClear ctx ring => Sys2Proof.Machine.execHaltClear ctx ring s
  | .gridEligible grid => Sys2Proof.Machine.execGridEligible grid s
  | .clusterPull die group cores => Sys2Proof.Machine.execClusterPull die group cores s
  | .starvationPreempt grid => Sys2Proof.Machine.execStarvationPreempt grid s
  | .gridComplete grid => Sys2Proof.Machine.execGridComplete grid s
  | .preRequest ctx => Sys2Proof.Machine.execPreRequest ctx s
  | .clusterSave cluster => Sys2Proof.Machine.execClusterSave cluster s
  | .clusterRestore cluster die group cores => Sys2Proof.Machine.execClusterRestore cluster die group cores s
  | .trapRecordEnqueue core => Sys2Proof.Machine.execTrapRecordEnqueue core s
  | .replay core => Sys2Proof.Machine.execReplay core s
  | .skip core => Sys2Proof.Machine.execSkip core s
  | .jump core a => Sys2Proof.Machine.execJump core a s
  | .endRecord core => Sys2Proof.Machine.execEndRecord core s
  | .answer core => Sys2Proof.Machine.execAnswer core s
  | .singleStep warp splitB => Sys2Proof.Machine.execSingleStep warp splitB s
  | .growFaultService warp ans => Sys2Proof.Machine.execGrowFaultService warp ans s
  | .farPageFault warp cold => Sys2Proof.Machine.execFarPageFault warp cold s
  | .swapComplete swap => Sys2Proof.Machine.execSwapComplete swap s
  | .ctmigBringNear ctx x => Sys2Proof.Machine.execCtmigBringNear ctx x s
  | .ctmigMoveFar ctx x => Sys2Proof.Machine.execCtmigMoveFar ctx x s
  | .ctmigOffline ctx x => Sys2Proof.Machine.execCtmigOffline ctx x s
  | .ctmigReserved ctx x => Sys2Proof.Machine.execCtmigReserved ctx x s
  | .tlbinv ctx x => Sys2Proof.Machine.execTlbinv ctx x s
  | .tlbinvComplete ctx => Sys2Proof.Machine.execTlbinvComplete ctx s
  | .contextEnable ctx x => Sys2Proof.Machine.execContextEnable ctx x s
  | .contextDisable ctx x => Sys2Proof.Machine.execContextDisable ctx x s
  | .bflipSetCtx x => Sys2Proof.Machine.execBflipSetCtx x s
  | .bflipToHost x => Sys2Proof.Machine.execBflipToHost x s
  | .bflipToDev x => Sys2Proof.Machine.execBflipToDev x s
  | .bflipReserved x => Sys2Proof.Machine.execBflipReserved x s
  | .d2hDrainComplete page => Sys2Proof.Machine.execD2hDrainComplete page s
  | .h2dDrainComplete page => Sys2Proof.Machine.execH2dDrainComplete page s
  | .biasSnoopTimeout line => Sys2Proof.Machine.execBiasSnoopTimeout line s
  | .memrd pa cache => Sys2Proof.Machine.execMemrd pa cache s
  | .memwr pa data => Sys2Proof.Machine.execMemwr pa data s
  | .birsp line shared writeback => Sys2Proof.Machine.execBirsp line shared writeback s
  | .bisnpdataMonitor line => Sys2Proof.Machine.execBisnpdataMonitor line s
  | .poolBisnpinv line => Sys2Proof.Machine.execPoolBisnpinv line s
  | .poolBisnpdata line => Sys2Proof.Machine.execPoolBisnpdata line s
  | .ogctlGo g x => Sys2Proof.Machine.execOgctlGo g x s
  | .drainingMarkAck g core => Sys2Proof.Machine.execDrainingMarkAck g core s
  | .ogDrainDone g => Sys2Proof.Machine.execOgDrainDone g s
  | .ogDrainTimeout g => Sys2Proof.Machine.execOgDrainTimeout g s
  | .ogDarkTimer g => Sys2Proof.Machine.execOgDarkTimer g s
  | .ogTrainUp g lanes => Sys2Proof.Machine.execOgTrainUp g lanes s
  | .ogTrainTimeout g => Sys2Proof.Machine.execOgTrainTimeout g s
  | .ogMappingDone g => Sys2Proof.Machine.execOgMappingDone g s
  | .linkDown g link => Sys2Proof.Machine.execLinkDown g link s
  | .meshLinkFail link parts => Sys2Proof.Machine.execMeshLinkFail link parts s
  | .cdieFence die => Sys2Proof.Machine.execCdieFence die s
  | .poisonErrorEvict die ctx pa twin => Sys2Proof.Machine.execPoisonErrorEvict die ctx pa twin s
  | .reductionContribution red who x => Sys2Proof.Machine.execReductionContribution red who x s
  | .reductionTimeout red => Sys2Proof.Machine.execReductionTimeout red s
  | .moduleReset bad => Sys2Proof.Machine.execModuleReset bad s
  | .measext x => Sys2Proof.Machine.execMeasext x s
  | .meassel x => Sys2Proof.Machine.execMeassel x s
  | .attcmdGo x => Sys2Proof.Machine.execAttcmdGo x s
  | .quoteDone => Sys2Proof.Machine.execQuoteDone s
  | .pwrreq x => Sys2Proof.Machine.execPwrreq x s
  | .powerCapThrottle => Sys2Proof.Machine.execPowerCapThrottle s
  | .fireflyBeacon => Sys2Proof.Machine.execFireflyBeacon s
  | .retm x => Sys2Proof.Machine.execRetm x s
  | .registerWrite off x => Sys2Proof.Machine.execRegisterWrite off x s
  | .uncorrectableError site => Sys2Proof.Machine.execUncorrectableError site s
  | .scarabWrite id e => Sys2Proof.Machine.execScarabWrite id e s
  | .linkRetrain g link => Sys2Proof.Machine.execLinkRetrain g link s
  | .peerTransaction g port pa op => Sys2Proof.Machine.execPeerTransaction g port pa op s

end Sys2Proof.Machine
end

