-- ==== Sys2Proof/Machine/Auto.lean ====
section
/-! DEFINITION. Turns: one word issued by a warp or a sequencer (R95, R98, R183, R300), one event, or time passing; the turn the model takes when nothing else is scheduled; and placing one word where the next step fetches. -/

namespace Sys2Proof.Machine

/-! Issue. -/

/-- A cycle passes. DESIGN CHOICE, unsafe (log 26). -/
def State.tick (s : State) (n : Nat) : State := { s with clock := s.clock + BitVec.ofNat 64 n }

/-- After a word of a warp: the pair goes on or ends, a stepped split parks, a warp to be pre-empted that stands at a yield point is held (R304, R313), and a cycle has passed. DESIGN CHOICE, unsafe (log 26). -/
def State.issued (s : State) (v : View) : State :=
  let sp := v.w.split
  ((if v.w.dbg == .step then s.afterStep v.key sp v.w.isB else s.afterWord v.key (v.w.pcOf sp) v.w.isB).holdWarps (· == v.key)).tick 1

/-- A state reached by a word, or the stop of its meaning. -/
def mapNext (o : Host.Outcome State Fault Refusal) (f : State → State) : Host.Outcome State Fault Refusal :=
  match o with
  | .next s => .next (f s)
  | .fault r => .fault r
  | .refused r => .refused r

/-- The split whose turn it is in a warp issues its next word: the word is fetched and checked in R95's order, and its instruction runs (R300). A warp that does not hold its slice issues nothing. -/
def issueWarp (key : Nat) (s : State) : Host.Outcome State Fault Refusal :=
  match s.view key with
  | none => .next { s with cur := none }
  | some v =>
    if !s.mayIssue v then .next { s with cur := none } else
      let s := { (s.beforeWord v) with cur := some (.warp key) }
      match s.nextWord v with
      | .run i => mapNext (exec i s) (fun s => s.issued v)
      | .void dist => .next ((s.voidWord v dist).issued v)
      | .bad c m d => .next ((s.raise v v.w.split [(c, m)] d).issued v)
      | .fetch c d => .next ((s.raiseFetch v v.w.split c d).issued v)
      | .far p => .next ((s.parkAll key (.far p)).issued v)
      | .miss va => .next { (s.slip v.g.ctx).modWarp key (fun w => { w with frozen := some va }) with cur := none }

/-- A sequencer may issue: it has a task, its workgroup is on its core, and no breakpoint has stopped its grid (R182, R347). -/
def State.seqReady (s : State) (r : SeqRun) : Bool :=
  r.q.st == .running && !r.g.stopped && (match Tab.look s.clusters (r.key / 8) with | some c => c.st == .resident | none => false)

/-- A sequencer issues its next word (R183, R184). -/
def issueSeq (key : Nat) (s : State) : Host.Outcome State Fault Refusal :=
  let s := { s with cur := some (.seq key) }
  let idle := fun (s : State) => { s with cur := none }
  match s.curSeq with
  | none => .next (idle s)
  | some r =>
    if !s.seqReady r then .next (idle s) else
      let s := s.seqFill r
      let x := s.seqNext r
      let q := { r.q with cl := x.1, pc := x.2.1 }
      let at_ := s.modSeq key (fun _ => q)
      match x.2.2 with
      | .run i => mapNext (exec i at_) idle
      | .bad c _ d => .next (idle (at_.raiseSeq key r.wg q r.g false c d))
      | .fetch c d => .next (idle (at_.raiseSeq key r.wg q r.g true c d))
      | _ => .next (idle s)

/-- An issuer's turn. -/
def issue (who : Issuer) (s : State) : Host.Outcome State Fault Refusal :=
  match who with
  | .warp k => issueWarp k s
  | .seq k => issueSeq k s

/-- One turn. -/
def turn (t : Turn) (s : State) : Host.Outcome State Fault Refusal :=
  match t with
  | .event i => exec i s
  | .issue who => issue who s
  | .tick n => .next (s.tick n)

/-! The turn that nothing has scheduled: the model's own order among what may happen inside the module. Host, driver, peers, Scarab and failures act only where the agenda says so. -/

/-- Events of operations, packets and handoffs. -/
def State.flightTurns (s : State) : List Instr :=
  s.ops.flatMap (fun e => ((List.range e.2.accs.length).map (fun k => .accessPerform e.1 k)) ++ [.longLatencyCompletion e.1 e.2.left])
    ++ s.pkts.flatMap (fun e => [.diffApply e.1, .diffAck e.1])
    ++ s.handoffs.map (fun e => .lockHandoffReceive e.1)
    ++ s.mons.flatMap (fun e => [.monitorEntryArm e.1, .monitorWake e.1])

/-- Events of copies and of PUBLISH. -/
def State.copyTurns (s : State) : List Instr :=
  s.copies.flatMap (fun e =>
      (e.2.chunks.flatMap (fun k =>
        if e.2.doneChunks.contains k then []
        else if e.2.started.contains k then [.chunkComplete e.1 k, .copyFault e.1 k] else [.bteChunkStart e.1 k]))
      ++ [.tileDrainDone e.1])
    ++ s.ops.map (fun e => .publishSwitch e.1)
    ++ s.ctxs.flatMap (fun e => e.2.retired.map (fun r => .pageRetire e.1 (r.page.headD 0)))

/-- Events of the cores: clause starts, faults by detection, records. -/
def State.coreTurns (s : State) : List Instr :=
  let cores := (s.wgs.map (fun e => e.2.core)).eraseDups
  s.wgs.flatMap (fun e => [.sequencerTaskLoad e.1, .quotaTransferApply e.1])
    ++ s.warps.flatMap (fun e => [.icacheMissFill e.1, .watchdogFault e.1])
    ++ cores.map (fun c => .trapRecordEnqueue c)
    ++ cores.flatMap (fun c => (List.range 4).map (fun sl => .clauseStart c sl))
    ++ s.wgs.map (fun e => .workgroupDeadlock e.1)

/-- Who may issue a word: sequencers, and the warp that holds each slice; the clock says with whom the round begins. -/
def State.issueTurns (s : State) : List Turn :=
  let cores := (s.wgs.map (fun e => e.2.core)).eraseDups
  let l := s.wgs.map (fun e => .issue (.seq e.1))
    ++ cores.flatMap (fun c => (List.range 4).filterMap (fun sl => (s.holder c sl).map (fun k => .issue (.warp k))))
  l.rotateLeft (s.clock.toNat % l.length)

/-- Events of contexts, grids and clusters. -/
def State.gridTurns (s : State) : List Instr :=
  s.grids.flatMap (fun e => [.gridEligible e.1, .gridComplete e.1, .starvationPreempt e.1])
    ++ s.clusters.flatMap (fun e => [.clusterSave e.1, .monitorSwapOut e.1, .clusterRequeue e.1])
    ++ s.ctxs.flatMap (fun e => e.2.rings.map (fun r => .ringEntryAdmit (BitVec.ofNat 6 e.1) (BitVec.ofNat 3 r.1)))
    ++ (if s.grids.isEmpty then [] else
      (List.range 8).flatMap (fun d => (List.range 3).map (fun g => .clusterPull (BitVec.ofNat 3 d) g [])))

/-- Events of translation, bias, links and management. -/
def State.unitTurns (s : State) : List Instr :=
  s.warps.map (fun e => .farPageFault e.1 0) ++ (if s.grids.isEmpty then [] else [.farPageFault 0 0])
    ++ s.swaps.map (fun e => .swapComplete e.1)
    ++ s.ctxs.map (fun e => .tlbinvComplete (BitVec.ofNat 6 e.1))
    ++ (match s.flip with
      | some f => f.pages.flatMap (fun p => [.d2hDrainComplete p, .h2dDrainComplete p])
      | none => [])
    ++ s.ogs.flatMap (fun e => (if e.2.st == .quiescing then s.liveCores.map (fun c => .drainingMarkAck e.1 c) else [])
      ++ [.ogDrainDone e.1, .ogDarkTimer e.1, .ogMappingDone e.1])
    ++ (if s.mgmt.qbusy then [.quoteDone] else [])
    ++ (if s.mgmt.ready || s.mgmt.recov then [] else [.moduleReset none])

/-- The turns in the model's order. -/
def State.turns (s : State) : List Turn :=
  ((s.clusters.filter (fun e => e.2.marked || e.2.st == .saving || e.2.st == .releasing)).map (fun e => Instr.clusterSave e.1) ++
    s.flightTurns ++ s.copyTurns ++ s.coreTurns ++ s.gridTurns ++ s.unitTurns).map .event ++ s.issueTurns

/-- A turn changes the state. -/
def moves (s : State) (t : Turn) : Bool :=
  match turn t s with
  | .next s' => decide (s' ≠ s)
  | _ => true

/-- The first turn that changes anything; else a cycle passes. DESIGN CHOICE, unsafe (log 4). -/
def State.auto (s : State) : Turn := (s.turns.find? (moves s)).getD (.tick 1)

/-- What happens now: the head of the agenda; else the pair that is being issued goes on; else the model's own choice. DESIGN CHOICE, unsafe (log 4). -/
def State.nextTurn (s : State) : Turn × State :=
  match s.agenda with
  | t :: rest => (t, { s with agenda := rest })
  | [] =>
    match s.cur with
    | some who => (.issue who, s)
    | none => (s.auto, s)

/-! One word placed where the next step fetches it. -/

/-- Bytes of a 64-bit number in memory. -/
def State.poke8 (s : State) (pa x : Nat) : State := { s with mem := writeBytes s.mem (cellOf pa) (natToBytes 8 x) }

/-- The launch record of the grid that holds the word: one workgroup of one full warp, with everything it may reserve. -/
def placedRecord (stream : Bool) : List W64 :=
  [0x1000#64, if stream then 0x1000#64 else 0#64, 0x0000000100000020#64, 0x1F08404020000800#64, 0xFF00000000000000#64] ++
    List.replicate 27 0#64

/-- The grid, on ring 0 of context 0. -/
def placedGrid (stream : Bool) : Grid :=
  { Grid.ofWords (placedRecord stream) with st := .eligible, next := 1 }

/-- The clause whose one word it is: both flags set, but in a stream. -/
def placedClause (cls : Nat) : ClauseCtx :=
  { hdr := 0x1000, cls := cls, cnt := 1, wait := 0, setA := if cls = 8 then none else some 0, setB := if cls = 8 then none else some 1 }

/-- The header of that clause. -/
def placedHeader (cls : Nat) : W64 :=
  encodeHeader { cls := BitVec.ofNat 4 cls, cnt := 0, wait := 0, av := cls != 8, af := 0, bv := cls != 8, bf := if cls = 8 then 0 else 1 }

/-- The word stands at VA 0x1008 of context 0, after its header, in the code page of a one-page address space; a resident warp, or the sequencer where the word is of class 8, is about to issue it. -/
def State.placeWord (s : State) (w : Nat) : State :=
  let word : W64 := BitVec.ofNat 64 w
  let cls := (opClass (wOp word)).getD 0
  let stream := cls == 8
  let g := placedGrid stream
  let s := (List.range 4).foldl (fun s k => s.poke8 (0x10000 + 0x1000 * k) (0x11000 + 0x1000 * k + 1)) s
  let s := (((s.poke8 0x14008 0x2002B).poke8 0x20000 (placedHeader cls).toNat).poke8 0x20008 word.toNat)
  let line := natToBytes 8 (placedHeader cls).toNat ++ natToBytes 8 word.toNat ++ List.replicate 112 0
  let s := s.setCtx 0 { s.ctxAt 0 with en := true, ptb := 0x10 }
  let c := s.coreAt 0
  let s := s.setCore 0 { c with icache := Tab.put c.icache (lineTag 0 (cellOf 0x20000)) line, holds := Tab.put c.holds 0 0 }
  let cl : Cluster := {
    grid := 0, clid := 0, die := 0, group := 0, st := .resident, frame := 0, frameLen := 0, marked := false,
    swapped := false, offeredAt := 0, published := false }
  let at_ := fun (t : Thread) => { t with pc := 0x1008, cl := some (placedClause cls) }
  let warp := launchWarp g 0 0 0
  let warp := if stream then warp else
    { warp with threads := warp.threads.map at_, pair := some { a := BitVec.allOnes 32, b := 0, turnB := false } }
  let wg := launchWg g 0 0 0
  let wg := if stream then { wg with seq := some { Seq.launch g with st := .running, pc := 0x1008, cl := some (placedClause cls) } } else wg
  { s with
    grids := Tab.put s.grids 0 g, clusters := Tab.put s.clusters 0 cl, wgs := Tab.put s.wgs 0 wg, warps := Tab.put s.warps 0 warp
    nextId := s.nextId + 1, agenda := [], cur := some (if stream then .seq 0 else .warp 0) }

end Sys2Proof.Machine
end

