-- ==== Sys2Proof/Machine/Step.lean ====
section
/-! DEFINITION. One step of the machine. -/

namespace Sys2Proof.Machine

/-- One step is one turn: an event, one word of an issuer, or time passing. -/
def step (s : State) : Host.Outcome State Fault Refusal := turn s.nextTurn.1 s.nextTurn.2

/-- The state with one instruction word where step fetches its next. -/
def State.withFetchWord (s : State) (nbits w : Nat) : State := s.placeWord (w % 2 ^ nbits % 2 ^ 64)

end Sys2Proof.Machine
end

