-- ==== Sys2Proof/Certificates/Slice0/Words.lean ====
section
/-! DEFINITION. The words that the statements about instructions use: when a word issues, what it leaves of its warp, the operands it reads, and the results that the spec's tables give, written a second time from the spec. -/

namespace Sys2Proof.Claims

open Sys2Proof.Machine

/-! When a word issues. -/

/-- Threads of the issuing split whose guard is true (R81). -/
def enabled (v : View) (h : Head) : Mask :=
  maskOf (fun l => inMask v.w.split l && (v.w.preg (h.guard.setWidth 3 : BitVec 3).toNat l != h.guard.getLsbD 3))

/-- The word i issues in the warp of v and has its effect: v holds the issue; the split's results are as old as their latencies (R82); some thread is enabled (R81); the checks of R95 pass; nothing makes the word wait (R174, R204); the count allows it (R304); it is no word that stalled at a window which has left since (R289). -/
structure Ready (i : Instr) (h : Head) (pre : Pre) (s : State) (v : View) : Prop where
  issues : s.curView = some v
  settled : Settled h.dist.toNat v.w.split v.w.hazards
  live : enabled v h ≠ 0
  checks : pre.check v v.w.split (encode i) = none
  free : pre.waits v = none
  budget : v.w.cost ≤ v.w.budget
  reached : ∀ pc m, v.w.gone = some (pc, m) → pc ≠ v.w.pcOf v.w.split

/-- The warp past a word that has done nothing else: one word counted (R31), its latencies aged by DIST and by the word (R82), the split's threads at the next word (R76). -/
def passed (v : View) (h : Head) : Warp :=
  { v.w with
    hazards := age 1 v.w.split (age h.dist.toNat v.w.split v.w.hazards)
    budget := v.w.budget - 1
    threads := (v.w.modThreads v.w.split Thread.pass).threads }

/-- The state in which the word has changed its own warp alone: every other warp, all of memory and every other part of the state stand. draws is the model's own counter of free values. -/
def after (s : State) (v : View) (w : Warp) : State := { s with warps := Tab.put s.warps v.key w, draws := s.draws + 4096 }

/-- The latencies noted by the word: for each register written, its lanes and its latency (R82). -/
def Notes (w : Warp) (v : View) (h : Head) (rs : List RegName) (m : Mask) (lat : Nat) : Prop :=
  ∃ new : List Hazard, w.hazards = (passed v h).hazards ++ new ∧ new.map (fun z => (z.reg, z.lanes, z.left)) = rs.map (fun r => (r, m, lat))

/-! Operands. -/

/-- A scalar as the split reads it (R48, R98). -/
def scalarOf (v : View) (r : BitVec 6) : W64 := sregOf v.w.scalars r.toNat

/-- The second source of a scalar operation: a scalar, or 36 bits sign-extended (R84). -/
def secondOf (v : View) : SSrc → W64
  | .reg r => scalarOf v r
  | .imm x => BitVec.ofInt 64 x.toInt

/-- What an operand gives lane l (R26, R48, R89-R91). -/
def operand (v : View) (l : Nat) : Opnd → W64
  | .r32 (.v a) =>
    if a = 254#8 then (match v.wg.qa with | e :: _ => (Tab.get 0 e.words l).setWidth 64 | [] => 0)
    else (v.w.vreg a.toNat l).setWidth 64
  | .r32 (.s a) => BitVec.ofNat 64 ((scalarOf v a).toNat % 2 ^ 32)
  | .r64 (.v a) => v.w.vreg (a.toNat + 1) l ++ v.w.vreg a.toNat l
  | .r64 (.s a) => scalarOf v a
  | .imm x => x.setWidth 64
  | .pred p => if v.w.preg p.toNat l then 1 else 0

/-- No enabled thread reads a poisoned register (R357). -/
def Clean (v : View) (h : Head) (regs : List Nat) : Prop :=
  ∀ l r, inMask (enabled v h) l = true → r ∈ regs → 32 * r + l ∉ v.w.vPoison

/-! Scalar operations (R100, R128, R205). -/

def bitsSetIn {n : Nat} (x : BitVec n) : Nat := (List.range n).countP (fun i => x.getLsbD i)
def zerosAbove {n : Nat} (x : BitVec n) : Nat := ((List.range n).takeWhile (fun i => !x.getLsbD (n - 1 - i))).length

/-- A comparison (R86): signed, and unsigned for the u codes. -/
def holds {n : Nat} (cc : Cmp) (x y : BitVec n) : Bool :=
  match cc with
  | .eq => decide (x.toNat = y.toNat)
  | .ne => !decide (x.toNat = y.toNat)
  | .lt => x.slt y
  | .le => x.sle y
  | .gt => y.slt x
  | .ge => y.sle x
  | .ltu => x.ult y
  | .leu => x.ule y
  | .gtu => y.ult x
  | .geu => y.ule x

/-- The team of the lowest enabled thread (R128). -/
def teamOf (v : View) (h : Head) : Option Team := Tab.look v.wg.teams (v.w.thread (lowLane (enabled v h))).team

/-- The scalar operations: head, destination and result. Shifts are by the unsigned count, so a count of 64 or more leaves zeros or copies of the sign. -/
def scalarRow (v : View) : Instr → Option (Head × BitVec 6 × W64)
  | .sMov h d y => some (h, d, secondOf v y)
  | .movh h d imm => some (h, d, BitVec.ofNat 64 (imm.toNat * 2 ^ 32 + (scalarOf v d).toNat % 2 ^ 32))
  | .sIadd h d a y => some (h, d, BitVec.ofNat 64 ((scalarOf v a).toNat + (secondOf v y).toNat))
  | .sIsub h d a y => some (h, d, BitVec.ofInt 64 ((scalarOf v a).toInt - (secondOf v y).toInt))
  | .sMul h d a y => some (h, d, BitVec.ofNat 64 ((scalarOf v a).toNat * (secondOf v y).toNat))
  | .sMulhu h d a y => some (h, d, BitVec.ofNat 64 ((scalarOf v a).toNat * (secondOf v y).toNat / 2 ^ 64))
  | .sAnd h d a y => some (h, d, scalarOf v a &&& secondOf v y)
  | .sOr h d a y => some (h, d, scalarOf v a ||| secondOf v y)
  | .sXor h d a y => some (h, d, scalarOf v a ^^^ secondOf v y)
  | .sShl h d a y => some (h, d, BitVec.ofNat 64 ((scalarOf v a).toNat * 2 ^ (secondOf v y).toNat))
  | .sShr h d a y => some (h, d, BitVec.ofNat 64 ((scalarOf v a).toNat / 2 ^ (secondOf v y).toNat))
  | .sSar h d a y => some (h, d, BitVec.ofInt 64 ((scalarOf v a).toInt / 2 ^ (secondOf v y).toNat))
  | .sMin h d a y => some (h, d, BitVec.ofInt 64 (min (scalarOf v a).toInt (secondOf v y).toInt))
  | .sMax h d a y => some (h, d, BitVec.ofInt 64 (max (scalarOf v a).toInt (secondOf v y).toInt))
  | .sset h cc d a b => some (h, d, if holds cc (scalarOf v a) (scalarOf v b) then 1 else 0)
  | .sPopc h d a => some (h, d, BitVec.ofNat 64 (bitsSetIn (scalarOf v a)))
  | .sClz h d a => some (h, d, BitVec.ofNat 64 (zerosAbove (scalarOf v a)))
  | .qstat h d qm => some (h, d, BitVec.ofNat 64 (if qm then v.wg.qm.length else v.wg.qa.length))
  | .tstat h d n => some (h, d, match teamOf v h with
      | some x => if x.called then (match x.status[n.toNat]? with | some w => w | none => 1) else 0
      | none => 0)
  | .tstatCancel h d => some (h, d, match teamOf v h with
      | some x => (match x.parent with
        | some p => (match Tab.look v.wg.teams p with | some q => if q.cancel then 1 else 0 | none => 0)
        | none => 0)
      | none => 0)
  | _ => none

/-- The OPs of the scalar operations (R100). -/
def scalarOpcode : Instr → Option Nat
  | .sMov _ _ _ => some 0x10
  | .movh _ _ _ => some 0x11
  | .sIadd _ _ _ _ => some 0x12
  | .sIsub _ _ _ _ => some 0x13
  | .sMul _ _ _ _ => some 0x14
  | .sMulhu _ _ _ _ => some 0x15
  | .sAnd _ _ _ _ => some 0x16
  | .sOr _ _ _ _ => some 0x17
  | .sXor _ _ _ _ => some 0x18
  | .sShl _ _ _ _ => some 0x19
  | .sShr _ _ _ _ => some 0x1A
  | .sSar _ _ _ _ => some 0x1B
  | .sMin _ _ _ _ => some 0x1C
  | .sMax _ _ _ _ => some 0x1D
  | .sset _ _ _ _ _ => some 0x1E
  | .sPopc _ _ _ => some 0x1F
  | .sClz _ _ _ => some 0x20
  | _ => none

/-- The word wrote one scalar and nothing else: every other register, all of memory and every other part of the state stand. -/
def WroteScalar (o : Host.Outcome State Fault Refusal) (s : State) (v : View) (h : Head) (d : BitVec 6) (x : W64) : Prop :=
  ∃ w : Warp, o = .next (after s v w) ∧
    w = { passed v h with s := w.s, hazards := w.hazards } ∧
    (∀ r, sregOf w.s r = if r = d.toNat ∧ r ≠ 0 then x else sregOf v.w.s r) ∧
    Notes w v h (if d = 0 then [] else [.s d.toNat]) v.w.split 1

/-! Value operations of classes 1 and 2 (R101-R111). -/

/-- A value operation: head, latency (R82), destination, operands, and what a lane's operands give. -/
structure ValueRow where
  head : Head
  lat : Nat
  dst : VDst
  os : List Opnd
  f : List W64 → W64 × Fl

/-- Vector registers an operand names: the queue registers are none (R26, R90). -/
def opndRegs : Opnd → List Nat
  | .r32 (.v a) => if a = 254#8 ∨ a = 255#8 then [] else [a.toNat]
  | .r64 (.v a) => [a.toNat, a.toNat + 1]
  | _ => []

/-- The vector registers a destination names. -/
def dstRegs : VDst → List Nat
  | .r32 d => if d = 254#8 ∨ d = 255#8 then [] else [d.toNat]
  | .r64 d => [d.toNat, d.toNat + 1]
  | .pred _ => []

/-- Some operand is qa. -/
def pops (os : List Opnd) : Bool := os.any (fun o => decide (o = .r32 (.v 254#8)))

/-- The destination is qm. -/
def pushes (d : VDst) : Bool := decide (d = .r32 255#8)

/-- The decode checks of a value word (R92, R95, R204). -/
def valuePre (fsel : Option Bool) (dst : VDst) (os : List Opnd) : Pre :=
  { regs := dstRegs dst ++ os.flatMap opndRegs, res := [], fsel := fsel, pop := pops os, push := pushes dst, bad := false, tile := none }

/-- What a destination register takes of a result: a pair takes its halves (R90). -/
def part (dst : VDst) (x : W64) (r : Nat) : Option W32 :=
  match dst with
  | .r32 d => if d ≠ 255#8 ∧ r = d.toNat then some (BitVec.ofNat 32 x.toNat) else none
  | .r64 d => if r = d.toNat then some (BitVec.ofNat 32 x.toNat) else if r = d.toNat + 1 then some (BitVec.ofNat 32 (x.toNat / 2 ^ 32)) else none
  | .pred _ => none

/-- The queues of the workgroup after one pop and one push (R204): the tables of workgroups. -/
def queues (s : State) (v : View) (pop : Bool) (push : Option QEntry) : Tab Wg :=
  if pop || push.isSome then
    Tab.put s.wgs v.wgKey { v.wg with qa := if pop then v.wg.qa.drop 1 else v.wg.qa, qm := v.wg.qm ++ push.toList }
  else s.wgs

/-- A lane's result. -/
def ValueRow.result (row : ValueRow) (v : View) (l : Nat) : W64 × Fl := row.f (row.os.map (operand v l))

/-- The registers named by a destination, as latencies name them; p7 and qm hold none. -/
def notedBy : VDst → List RegName
  | .r32 d => if d = 255#8 then [] else [.v d.toNat]
  | .r64 d => [.v d.toNat, .v (d.toNat + 1)]
  | .pred p => if p = 7#3 then [] else [.p p.toNat]

/-- The word wrote a result for each enabled thread and nothing else: every other register, predicate and scalar, all of memory and every other part of the state stand; one entry left qa for all its qa operands, and one entered qm if that is its destination, with 0 for a thread not enabled (R98, R204); flags are sticky (R68, R99). -/
def Wrote (o : Host.Outcome State Fault Refusal) (s : State) (v : View) (h : Head) (lat : Nat) (dst : VDst) (pop : Bool) (result : Nat → W64 × Fl) : Prop :=
  let en := enabled v h
  ∃ (w : Warp) (q : Option QEntry),
    o = .next { after s v w with wgs := queues s v pop q } ∧
    w = { passed v h with v := w.v, vPoison := w.vPoison, p := w.p, fpflags := w.fpflags, hazards := w.hazards } ∧
    (∀ r l, l < 32 → w.vreg r l = if inMask en l then (part dst (result l).1 r).getD (v.w.vreg r l) else v.w.vreg r l) ∧
    (∀ k, k ∈ w.vPoison ↔ k ∈ v.w.vPoison ∧ ¬ (inMask en (k % 32) = true ∧ (part dst 0 (k / 32)).isSome)) ∧
    (∀ r l, w.preg r l =
      if inMask en l ∧ r ≠ 7 ∧ dst = .pred (BitVec.ofNat 3 r) ∧ r < 8 then (result l).1.getLsbD 0 else v.w.preg r l) ∧
    (∀ b, w.fpflags.getLsbD b = (v.w.fpflags.getLsbD b || (maskLanes en).any (fun l => (result l).2.getLsbD b))) ∧
    (if pushes dst then ∃ e, q = some { owner := none, words := e } ∧
        ∀ l, l < 32 → Tab.get 0 e l = if inMask en l then BitVec.ofNat 32 (result l).1.toNat else 0
      else q = none) ∧
    Notes w v h (notedBy dst) en lat

def WroteValues (o : Host.Outcome State Fault Refusal) (s : State) (v : View) (row : ValueRow) : Prop :=
  Wrote o s v row.head row.lat row.dst (pops row.os) (row.result v)

/-- A value word issues: Ready with its decode checks, and no poisoned source. -/
def ValueReady (i : Instr) (row : ValueRow) (s : State) (v : View) : Prop :=
  Ready i row.head (valuePre none row.dst row.os) s v ∧ Clean v row.head (row.os.flatMap opndRegs)

/-- Operand n of a lane as 32 bits. -/
def low (xs : List W64) (n : Nat) : W32 := BitVec.ofNat 32 (xs.getD n 0).toNat

/-- A 32-bit integer operation: latency 1, no flag (R98). -/
def intOp (h : Head) (d : BitVec 8) (os : List Opnd) (f : List W64 → W32) : Option ValueRow :=
  some { head := h, lat := 1, dst := .r32 d, os := os, f := fun xs => ((f xs).setWidth 64, 0) }

def shlSpec (x y : W32) : W32 := BitVec.ofNat 32 (x.toNat * 2 ^ y.toNat)
def shrSpec (x y : W32) : W32 := BitVec.ofNat 32 (x.toNat / 2 ^ y.toNat)
def sarSpec (x y : W32) : W32 := BitVec.ofInt 32 (x.toInt / 2 ^ y.toNat)
def mulhuSpec (x y : W32) : W32 := BitVec.ofNat 32 (x.toNat * y.toNat / 2 ^ 32)
def mulhiSpec (x y : W32) : W32 := BitVec.ofInt 32 (x.toInt * y.toInt / 2 ^ 32)

/-- Bit i goes to bit 31 - i: the bits read from bit 0 on, most significant first. -/
def reversed (x : W32) : W32 := BitVec.ofNat 32 ((List.range 32).foldl (fun a i => 2 * a + (x.getLsbD i).toNat) 0)

/-- The vector integer operations (R101). -/
def intRow : Instr → Option ValueRow
  | .mov h d a => intOp h d [.r32 a] (fun xs => low xs 0)
  | .movImm h d imm => intOp h d [.imm imm] (fun xs => low xs 0)
  | .iadd h d a b => intOp h d [.r32 a, .r32 b] (fun xs => low xs 0 + low xs 1)
  | .iaddImm h d a imm => intOp h d [.r32 a, .imm imm] (fun xs => low xs 0 + low xs 1)
  | .isub h d a b => intOp h d [.r32 a, .r32 b] (fun xs => low xs 0 - low xs 1)
  | .isubImm h d a imm => intOp h d [.r32 a, .imm imm] (fun xs => low xs 0 - low xs 1)
  | .mul h d a b => intOp h d [.r32 a, .r32 b] (fun xs => low xs 0 * low xs 1)
  | .mulImm h d a imm => intOp h d [.r32 a, .imm imm] (fun xs => low xs 0 * low xs 1)
  | .mulhu h d a b => intOp h d [.r32 a, .r32 b] (fun xs => mulhuSpec (low xs 0) (low xs 1))
  | .mulhuImm h d a imm => intOp h d [.r32 a, .imm imm] (fun xs => mulhuSpec (low xs 0) (low xs 1))
  | .mulhi h d a b => intOp h d [.r32 a, .r32 b] (fun xs => mulhiSpec (low xs 0) (low xs 1))
  | .mulhiImm h d a imm => intOp h d [.r32 a, .imm imm] (fun xs => mulhiSpec (low xs 0) (low xs 1))
  | .imad h d a b c => intOp h d [.r32 a, .r32 b, .r32 c] (fun xs => low xs 0 * low xs 1 + low xs 2)
  | .and h d a b => intOp h d [.r32 a, .r32 b] (fun xs => low xs 0 &&& low xs 1)
  | .andImm h d a imm => intOp h d [.r32 a, .imm imm] (fun xs => low xs 0 &&& low xs 1)
  | .or h d a b => intOp h d [.r32 a, .r32 b] (fun xs => low xs 0 ||| low xs 1)
  | .orImm h d a imm => intOp h d [.r32 a, .imm imm] (fun xs => low xs 0 ||| low xs 1)
  | .xor h d a b => intOp h d [.r32 a, .r32 b] (fun xs => low xs 0 ^^^ low xs 1)
  | .xorImm h d a imm => intOp h d [.r32 a, .imm imm] (fun xs => low xs 0 ^^^ low xs 1)
  | .shl h d a b => intOp h d [.r32 a, .r32 b] (fun xs => shlSpec (low xs 0) (low xs 1))
  | .shlImm h d a imm => intOp h d [.r32 a, .imm imm] (fun xs => shlSpec (low xs 0) (low xs 1))
  | .shr h d a b => intOp h d [.r32 a, .r32 b] (fun xs => shrSpec (low xs 0) (low xs 1))
  | .shrImm h d a imm => intOp h d [.r32 a, .imm imm] (fun xs => shrSpec (low xs 0) (low xs 1))
  | .sar h d a b => intOp h d [.r32 a, .r32 b] (fun xs => sarSpec (low xs 0) (low xs 1))
  | .sarImm h d a imm => intOp h d [.r32 a, .imm imm] (fun xs => sarSpec (low xs 0) (low xs 1))
  | .min h uns d a b => intOp h d [.r32 a, .r32 b] (fun xs =>
      if uns then BitVec.ofNat 32 (min (low xs 0).toNat (low xs 1).toNat) else BitVec.ofInt 32 (min (low xs 0).toInt (low xs 1).toInt))
  | .max h uns d a b => intOp h d [.r32 a, .r32 b] (fun xs =>
      if uns then BitVec.ofNat 32 (max (low xs 0).toNat (low xs 1).toNat) else BitVec.ofInt 32 (max (low xs 0).toInt (low xs 1).toInt))
  | .sel h d a b pc => intOp h d [.r32 a, .r32 b, .pred pc] (fun xs => if low xs 2 = 1#32 then low xs 0 else low xs 1)
  | .popc h d a => intOp h d [.r32 a] (fun xs => BitVec.ofNat 32 (bitsSetIn (low xs 0)))
  | .clz h d a => intOp h d [.r32 a] (fun xs => BitVec.ofNat 32 (zerosAbove (low xs 0)))
  | .brev h d a => intOp h d [.r32 a] (fun xs => reversed (low xs 0))
  | _ => none

/-- An FP operation: the bits and flags that a format's operation gives on the operands' bits. -/
def fpOp2 (h : Head) (lat : Nat) (dst : VDst) (a b : Opnd) (f : Nat → Nat → Nat × Fl) : Option ValueRow :=
  some { head := h, lat := lat, dst := dst, os := [a, b],
         f := fun xs => (BitVec.ofNat 64 (f (xs.getD 0 0).toNat (xs.getD 1 0).toNat).1, (f (xs.getD 0 0).toNat (xs.getD 1 0).toNat).2) }

def fpOp3 (h : Head) (lat : Nat) (dst : VDst) (a b c : Opnd) (f : Nat → Nat → Nat → Nat × Fl) : Option ValueRow :=
  some { head := h, lat := lat, dst := dst, os := [a, b, c],
         f := fun xs => let r := f (xs.getD 0 0).toNat (xs.getD 1 0).toNat (xs.getD 2 0).toNat; (BitVec.ofNat 64 r.1, r.2) }

/-- The exact result of an operation on decoded operands, rounded once by the mode and saturated (R102, R220). -/
def rounded (f : Fmt) (rnd : Rnd) (sat : Bool) (x : Exact) : Nat × Fl := f.deliver rnd sat x

/-- The FP32 operations (R103, R104): class 1, latency 3. -/
def fp32Row : Instr → Option ValueRow
  | .fadd h rnd sat d a b => fpOp2 h 3 (.r32 d) (.r32 a) (.r32 b) (fun x y => rounded fp32 rnd sat (faddEx rnd (fp32.decode x) (fp32.decode y)))
  | .fsub h rnd sat d a b => fpOp2 h 3 (.r32 d) (.r32 a) (.r32 b) (fun x y => rounded fp32 rnd sat (faddEx rnd (fp32.decode x) (fp32.decode y).neg))
  | .fmul h rnd sat d a b => fpOp2 h 3 (.r32 d) (.r32 a) (.r32 b) (fun x y => rounded fp32 rnd sat (fmulEx (fp32.decode x) (fp32.decode y)))
  | .ffma h rnd sat d a b c => fpOp3 h 3 (.r32 d) (.r32 a) (.r32 b) (.r32 c)
      (fun x y z => rounded fp32 rnd sat (ffmaEx rnd (fp32.decode x) (fp32.decode y) (fp32.decode z)))
  | .fmin h d a b => fpOp2 h 3 (.r32 d) (.r32 a) (.r32 b) (fp32.minmax false)
  | .fmax h d a b => fpOp2 h 3 (.r32 d) (.r32 a) (.r32 b) (fp32.minmax true)
  | _ => none

/-- The FP64 operations (R105): class 2, latency 5, on register pairs. -/
def fp64Row : Instr → Option ValueRow
  | .faddF64 h rnd sat d a b => fpOp2 h 5 (.r64 d) (.r64 a) (.r64 b) (fun x y => rounded fp64 rnd sat (faddEx rnd (fp64.decode x) (fp64.decode y)))
  | .fsubF64 h rnd sat d a b => fpOp2 h 5 (.r64 d) (.r64 a) (.r64 b) (fun x y => rounded fp64 rnd sat (faddEx rnd (fp64.decode x) (fp64.decode y).neg))
  | .fmulF64 h rnd sat d a b => fpOp2 h 5 (.r64 d) (.r64 a) (.r64 b) (fun x y => rounded fp64 rnd sat (fmulEx (fp64.decode x) (fp64.decode y)))
  | .ffmaF64 h rnd sat d a b c => fpOp3 h 5 (.r64 d) (.r64 a) (.r64 b) (.r64 c)
      (fun x y z => rounded fp64 rnd sat (ffmaEx rnd (fp64.decode x) (fp64.decode y) (fp64.decode z)))
  | .fminF64 h d a b => fpOp2 h 5 (.r64 d) (.r64 a) (.r64 b) (fp64.minmax false)
  | .fmaxF64 h d a b => fpOp2 h 5 (.r64 d) (.r64 a) (.r64 b) (fp64.minmax true)
  | _ => none

/-- The two elements of packed operands, each computed alone; their flags are joined (R106). -/
def pairwise (f : Nat → Nat → Nat × Fl) (x y : Nat) : Nat × Fl :=
  ((f (x % 65536) (y % 65536)).1 + 65536 * (f (x / 65536) (y / 65536)).1, (f (x % 65536) (y % 65536)).2 ||| (f (x / 65536) (y / 65536)).2)

/-- The element format: .f16, or .bf16 with SUB[0] (R106). -/
def elemFmt (bf : Bool) : Fmt := match bf with | true => bf16 | false => fp16

/-- The packed 16-bit operations (R106): class 2, latency 3. -/
def packedRow : Instr → Option ValueRow
  | .hadd2 h bf rnd sat d a b => fpOp2 h 3 (.r32 d) (.r32 a) (.r32 b)
      (pairwise (fun x y => rounded (elemFmt bf) rnd sat (faddEx rnd ((elemFmt bf).decode x) ((elemFmt bf).decode y))))
  | .hsub2 h bf rnd sat d a b => fpOp2 h 3 (.r32 d) (.r32 a) (.r32 b)
      (pairwise (fun x y => rounded (elemFmt bf) rnd sat (faddEx rnd ((elemFmt bf).decode x) ((elemFmt bf).decode y).neg)))
  | .hmul2 h bf rnd sat d a b => fpOp2 h 3 (.r32 d) (.r32 a) (.r32 b)
      (pairwise (fun x y => rounded (elemFmt bf) rnd sat (fmulEx ((elemFmt bf).decode x) ((elemFmt bf).decode y))))
  | .hfma2 h bf rnd sat d a b c => fpOp3 h 3 (.r32 d) (.r32 a) (.r32 b) (.r32 c) (fun x y z =>
      let e := fun x y z => rounded (elemFmt bf) rnd sat (ffmaEx rnd ((elemFmt bf).decode x) ((elemFmt bf).decode y) ((elemFmt bf).decode z))
      ((e (x % 65536) (y % 65536) (z % 65536)).1 + 65536 * (e (x / 65536) (y / 65536) (z / 65536)).1,
       (e (x % 65536) (y % 65536) (z % 65536)).2 ||| (e (x / 65536) (y / 65536) (z / 65536)).2))
  | .hmin2 h bf d a b => fpOp2 h 3 (.r32 d) (.r32 a) (.r32 b) (pairwise ((elemFmt bf).minmax false))
  | .hmax2 h bf d a b => fpOp2 h 3 (.r32 d) (.r32 a) (.r32 b) (pairwise ((elemFmt bf).minmax true))
  | _ => none

/-- A bit as a result. -/
def bitOf (b : Bool) : W64 := if b then 1 else 0

/-- PCOMB (R111): and, or, exclusive or, and a AND NOT b. -/
def combined : PredOp → Bool → Bool → Bool
  | .and, x, y => x && y
  | .or, x, y => x || y
  | .xor, x, y => xor x y
  | .andn, x, y => x && !y

/-- An operation that writes a predicate. -/
def predOp (h : Head) (lat : Nat) (p : BitVec 3) (os : List Opnd) (f : List W64 → Bool × Fl) : Option ValueRow :=
  some { head := h, lat := lat, dst := .pred p, os := os, f := fun xs => (bitOf (f xs).1, (f xs).2) }

/-- Compares and predicate combinations (R109-R111): latency 1, 3 for FP32 and 5 for FP64. -/
def predRow : Instr → Option ValueRow
  | .icmp h cc p a b => predOp h 1 p [.r32 a, .r32 b] (fun xs => (holds cc (low xs 0) (low xs 1), 0))
  | .icmpImm h cc p a imm => predOp h 1 p [.r32 a, .imm imm] (fun xs => (holds cc (low xs 0) (low xs 1), 0))
  | .fcmp h cc p a b => predOp h 3 p [.r32 a, .r32 b] (fun xs => fp32.compare cc (xs.getD 0 0).toNat (xs.getD 1 0).toNat)
  | .fcmpF64 h cc p a b => predOp h 5 p [.r64 a, .r64 b] (fun xs => fp64.compare cc (xs.getD 0 0).toNat (xs.getD 1 0).toNat)
  | .pcomb h op p a b => predOp h 1 p [.pred a, .pred b] (fun xs => (combined op (decide (xs.getD 0 0 = 1)) (decide (xs.getD 1 0 = 1)), 0))
  | _ => none

/-! Special registers (R67, R211, R212). -/

/-- A special register as lane l of the issuing split reads it: wdog after the word itself is counted (R31), the clock within 64 cycles of the module's. -/
def specialOf (s : State) (v : View) (h : Head) (sel : BitVec 8) (l : Nat) : W64 :=
  let t := v.w.thread l
  match sel.toNat with
  | 0x00 => BitVec.ofNat 64 l
  | 0x01 => BitVec.ofNat 64 v.w.wid
  | 0x02 => BitVec.ofNat 64 v.g.nwarps
  | 0x03 => BitVec.ofNat 64 v.wg.wgid
  | 0x04 => BitVec.ofNat 64 v.g.nwgs
  | 0x05 => BitVec.ofNat 64 v.cl.clid
  | 0x06 => BitVec.ofNat 64 v.g.nclus
  | 0x07 => BitVec.ofNat 64 t.rank
  | 0x08 => BitVec.ofNat 64 t.size
  | 0x09 => BitVec.ofNat 64 t.path.length
  | 0x0A => (enabled v h).setWidth 64
  | 0x0B => (maskOf (fun l => match (v.w.thread l).st with | .absent => false | .exited => false | _ => true)).setWidth 64
  | 0x0C => s.clock + (Config.clockSkew v.wg.core).setWidth 64
  | 0x0D => v.w.fpflags.setWidth 64
  | 0x0E => (s.ctxAt v.g.ctx).mapgen
  | 0x0F => BitVec.ofNat 64 v.g.ctx
  | 0x10 => BitVec.ofNat 64 (v.w.budget - 1)
  | 0x11 => BitVec.ofNat 64 v.w.quota
  | 0x12 => BitVec.ofNat 64 v.g.scrBytes
  | _ => BitVec.ofNat 64 (v.g.scrBytes - 8 * v.g.barn)

/-- Selectors that R67 assigns. -/
def assigned (sel : BitVec 8) : Prop := sel.toNat ≤ 0x13

/-- MFSR into vectors: a pair for clock, fpflags and mapgen (R211). -/
def mfsrDst (sel d : BitVec 8) : VDst := if sel.toNat = 0x0C ∨ sel.toNat = 0x0D ∨ sel.toNat = 0x0E then .r64 d else .r32 d

/-! Control (R76, R117-R120). -/

/-- pc + 8 × the word's signed offset, modulo 2^64 (R117). -/
def target (v : View) (off : BitVec 32) : Nat := (((v.w.pcOf v.w.split : Int) + 8 * off.toInt) % 2 ^ 64).toNat

/-- A taken branch, call or return: the enabled threads stand outside any clause at their targets, the rest of the split passes. -/
def jumped (v : View) (h : Head) (hz : List Hazard) (tgt : Nat → Nat) : Warp :=
  { v.w with
    hazards := hz
    budget := v.w.budget - 1
    threads := v.w.threads.mapIdx (fun l t =>
      if inMask (enabled v h) l then { t with pc := tgt l, cl := none } else if inMask v.w.split l then t.pass else t) }

/-- A taken branch adds nothing to the distances of the threads that take it, neither its DIST nor its place (R82). -/
def branchHazards (v : View) (h : Head) : List Hazard := age (h.dist.toNat + 1) (v.w.split &&& ~~~(enabled v h)) v.w.hazards

end Sys2Proof.Claims
end

