-- ==== Sys2Proof/Certificates/Slice0/Flight.lean ====
section
/-! DEFINITION. What the statements say of long-latency words when they issue: the flag that rises, the operation in flight, its results or its accesses (R28, R80, R133). -/

namespace Sys2Proof.Claims

open Sys2Proof.Machine

/-- The flag that a long-latency word counts on: its clause's set A, or set B with FSEL (R28, R54). -/
def flagOf (v : View) (fsel : Bool) : Option Nat :=
  match (v.w.thread (lowLane v.w.split)).cl with
  | some c => if fsel then c.setB else c.setA
  | none => none

/-- The warp's flag rises by one and nothing else of its counters changes (R28). -/
def Raised (w : Warp) (v : View) (f : Option Nat) : Prop := ∀ n, w.flag n = v.w.flag n + (if f = some n then 1 else 0)

/-- An operation of the issuing split in flight. -/
def flight (v : View) (fsel : Bool) (kind : OpKind) (sc : Scope) (space : Space) (lanes : Mask) (accs : List Access) : Op :=
  { ctx := v.g.ctx, warp := v.key, pc := v.w.pcOf v.w.split, flag := flagOf v fsel, kind := kind, sc := sc, space := space,
    lanes := lanes, left := lanes, accs := accs, acks := [], counted := true }

/-- The word is in flight: its warp passes with its flag raised, its operation stands under a fresh number, the queues are as given, and nothing else of the state has changed: no register, no byte of memory. -/
def Launched (o : Host.Outcome State Fault Refusal) (s : State) (v : View) (h : Head) (fsel : Bool) (op : Op) (qs : Tab Wg) : Prop :=
  ∃ w : Warp, o = .next { after s v w with wgs := qs, ops := Tab.put s.ops s.nextId op, nextId := s.nextId + 1 } ∧
    w = { passed v h with flags := w.flags } ∧ Raised w v (flagOf v fsel)

/-! Results computed at issue and written at completion (R107, R112-R116, R200-R203). -/

/-- A class-3 or class-4 word: its checks, destination, whether it takes from qa, the condition that no source is poisoned, the lanes that receive a result, the results, and the scope that its operation carries: a CTEST's, which an ACQ waits for (R154, R178). -/
structure LongRow where
  head : Head
  fsel : Bool
  pre : Pre
  dest : Dest
  wide : Bool
  pop : Bool
  clean : Prop
  lanes : Mask
  result : Nat → W64 × Fl
  sc : Scope := .th

/-- The word is in flight with its results; one entry has left qa if an operand was qa, and a place of qm is reserved if that is the destination (R204). -/
def LaunchedResults (o : Host.Outcome State Fault Refusal) (s : State) (v : View) (row : LongRow) : Prop :=
  ∃ (vals : Tab W64) (fl : Tab (BitVec 6)),
    Launched o s v row.head row.fsel (flight v row.fsel (.regs row.dest row.wide vals fl) row.sc .glob row.lanes [])
      (queues s v row.pop (if row.dest = .qm then some { owner := some s.nextId, words := [] } else none)) ∧
    (∀ l, inMask row.lanes l = true → Tab.look vals l = some (row.result l).1) ∧
    (∀ l, inMask row.lanes l = true → Tab.get 0 fl l = (row.result l).2)

/-- Where a class-3 result goes: a register or qm (R204). -/
def destOf (d : BitVec 8) : Dest := if d = 255#8 then .qm else .v d.toNat

/-- A class-3 word on one operand. -/
def unaryRow (v : View) (h : Head) (fsel : Bool) (d : BitVec 8) (a : Src) (f : Nat → Nat × Fl) : LongRow :=
  { head := h, fsel := fsel, pre := valuePre (some fsel) (.r32 d) [.r32 a], dest := destOf d, wide := false, pop := pops [.r32 a],
    clean := Clean v h (opndRegs (.r32 a)), lanes := enabled v h,
    result := fun l => (BitVec.ofNat 64 (f (operand v l (.r32 a)).toNat).1, (f (operand v l (.r32 a)).toNat).2) }

/-- The type that a CVT word names: a code, or the slot's format (R202). -/
def cvtType (v : View) (fs : BitVec 3) : TypeCode → Option TypeCode
  | .slot => (slotOf (v.g.slotWord fs.toNat)).type
  | t => some t

def wideType (t : TypeCode) : Bool := decide (t = .s64 ∨ t = .u64 ∨ t = .f64)

/-- A register operand of a 64-bit type names a pair (R90, R91). -/
def pairNamed (wide : Bool) : Src → Bool
  | .v r => !wide || (decide (r.toNat % 2 = 0) && decide (r.toNat < 254))
  | .s _ => true

/-- Mode and saturation: the word's, or the slot's where a type is a slot (R202). -/
def cvtMode (v : View) (rnd : Rnd) (sat : Bool) (dt st : TypeCode) (fs : BitVec 3) : Rnd × Bool :=
  if dt = .slot ∨ st = .slot then ((slotOf (v.g.slotWord fs.toNat)).rnd, (slotOf (v.g.slotWord fs.toNat)).sat) else (rnd, sat)

/-- The SFU operations, FRND and CVT (R107, R108, R202, R203). -/
def sfuRow (v : View) : Instr → Option LongRow
  | .rcp h fsel d a => some (unaryRow v h fsel d a rcp32)
  | .rsqrt h fsel d a => some (unaryRow v h fsel d a rsqrt32)
  | .sqrt h fsel d a => some (unaryRow v h fsel d a sqrt32)
  | .ex2 h fsel d a => some (unaryRow v h fsel d a ex2of)
  | .lg2 h fsel d a => some (unaryRow v h fsel d a lg2of)
  | .sin h fsel d a => some (unaryRow v h fsel d a sin32)
  | .cos h fsel d a => some (unaryRow v h fsel d a cos32)
  | .frnd h fsel rnd d a => some (unaryRow v h fsel d a (frnd32 rnd))
  | .cvt h fsel rnd sat dt st fs d a =>
    match cvtType v fs dt, cvtType v fs st with
    | some t, some u =>
      let os := [if wideType u then Opnd.r64 a else .r32 a]
      let dst := if wideType t then VDst.r64 d else .r32 d
      let m := cvtMode v rnd sat dt st fs
      let f := fun l => convert m.1 m.2 t u (operand v l (if wideType u then Opnd.r64 a else .r32 a)).toNat
      some { head := h, fsel := fsel,
             pre := { valuePre (some fsel) dst os with bad := !(pairNamed (wideType t) (.v d) && pairNamed (wideType u) a) },
             dest := if wideType t then .v d.toNat else destOf d, wide := wideType t, pop := pops os,
             clean := Clean v h (os.flatMap opndRegs), lanes := enabled v h,
             result := fun l => (BitVec.ofNat 64 (f l).1, (f l).2) }
    | _, _ => none
  | _ => none

/-- The 32 elements of PACK4: an enabled lane's operand; a lane not enabled contributes none (R200). -/
def elements (v : View) (h : Head) (a : Src) : List (Option Nat) :=
  (List.range 32).map (fun l => if inMask (enabled v h) l then some (operand v l (.r32 a)).toNat else none)

/-- PACK4's result: lanes 0 to 3 hold codes 8l to 8l + 7, lane 4 the scale byte, the others 0 (R200). -/
def packedLane (p : Nat × List (Nat × Fl)) (l : Nat) : Nat :=
  if l < 4 then (List.range 8).foldl (fun a j => a + (p.2.getD (8 * l + j) (0, 0)).1 * 16 ^ j) 0 else if l = 4 then p.1 else 0

/-- PACK4 and UNPACK4 under a slot of a block format (R200, R201). -/
def blockRow (v : View) : Instr → Option LongRow
  | .pack4 h fsel d a fs =>
    let f := slotOf (v.g.slotWord fs.toNat)
    let p := pack4 (f.fmt - 14) f.rnd (elements v h a)
    some { head := h, fsel := fsel, pre := valuePre (some fsel) (.r32 d) [.r32 a], dest := destOf d, wide := false, pop := pops [.r32 a],
           clean := 14 ≤ f.fmt ∧ f.fmt ≤ 17 ∧ Clean v h (opndRegs (.r32 a)), lanes := enabled v h,
           result := fun l => (BitVec.ofNat 64 (packedLane p l), (p.2.getD l (0, 0)).2) }
  | .unpack4 h fsel d a fs =>
    let f := slotOf (v.g.slotWord fs.toNat)
    let code := fun l => (operand v (l / 8) (.r32 a)).toNat / 16 ^ (l % 8) % 16
    let x := fun l => blockValue ((operand v 4 (.r32 a)).toNat % 256) (code l)
    some { head := h, fsel := fsel, pre := valuePre (some fsel) (.r32 d) [.r32 a], dest := destOf d, wide := false, pop := pops [.r32 a],
           clean := 14 ≤ f.fmt ∧ f.fmt ≤ 17 ∧ (∀ l r, l < 5 → r ∈ opndRegs (.r32 a) → 32 * r + l ∉ v.w.vPoison) ∧ age h.dist.toNat v.w.split v.w.hazards = [],
           lanes := enabled v h, result := fun l => (BitVec.ofNat 64 (x l).1, (x l).2) }
  | _ => none

/-! Lane exchanges (R112-R116). -/

/-- A shuffle: register a of the source lane, whatever that lane does; no register it reads is poisoned. -/
def shuffleRow (v : View) (h : Head) (fsel : Bool) (d a : BitVec 8) (own : List (BitVec 8)) (src : Nat → Nat) : LongRow :=
  { head := h, fsel := fsel, pre := Pre.long fsel (d.toNat :: a.toNat :: own.map BitVec.toNat), dest := .v d.toNat, wide := false, pop := false,
    clean := (∀ l, inMask (enabled v h) l = true → 32 * a.toNat + src l ∉ v.w.vPoison) ∧ Clean v h (own.map BitVec.toNat) ∧
      age h.dist.toNat v.w.split v.w.hazards = [],
    lanes := enabled v h, result := fun l => ((v.w.vreg a.toNat (src l)).setWidth 64, 0) }

/-- A lane's contribution to a vote: false from a lane not enabled (R34, R113). -/
def ballot (v : View) (h : Head) (p : BitVec 3) : Mask := maskOf (fun l => inMask (enabled v h) l && v.w.preg p.toNat l)

def voteRow (v : View) (h : Head) (fsel : Bool) (dest : Dest) (x : W64) : LongRow :=
  { head := h, fsel := fsel, pre := Pre.long fsel [], dest := dest, wide := false, pop := false, clean := True, lanes := enabled v h,
    result := fun _ => (x, 0) }

/-- One step of a fold (R115). -/
def foldStep : FoldOp → W32 → W32 → W32
  | .add, x, y => x + y
  | .min, x, y => BitVec.ofInt 32 (min x.toInt y.toInt)
  | .max, x, y => BitVec.ofInt 32 (max x.toInt y.toInt)
  | .minu, x, y => BitVec.ofNat 32 (min x.toNat y.toNat)
  | .maxu, x, y => BitVec.ofNat 32 (max x.toNat y.toNat)
  | .and, x, y => x &&& y
  | .or, x, y => x ||| y
  | .xor, x, y => x ^^^ y

/-- What lane 0 of an exclusive scan receives (R115). -/
def foldStart : FoldOp → W32
  | .add => 0
  | .min => 0x7FFFFFFF#32
  | .max => 0x80000000#32
  | .minu => 0xFFFFFFFF#32
  | .maxu => 0
  | .and => 0xFFFFFFFF#32
  | .or => 0
  | .xor => 0

/-- The fold over lanes 0 to n - 1 in ascending order: a lane not enabled contributes 0 (R34, R113). -/
def foldOver (v : View) (h : Head) (op : FoldOp) (a : BitVec 8) : Nat → W32
  | 0 => foldStart op
  | n + 1 => foldStep op (foldOver v h op a n) (if inMask (enabled v h) n then v.w.vreg a.toNat n else 0)

/-- The bits of a mask are set in half h of a tile's bitmap: READY has every bit, and a bit at or above the count counts as set (R174, R177). -/
def tileHas (t : Tile) (hi : Bool) (m : W64) : Bool :=
  decide (t.st = .ready) || (List.range 64).all (fun b => !m.getLsbD b ||
    decide (t.count ≤ (if hi then 64 else 0) + b) || t.bits.getLsbD ((if hi then 64 else 0) + b))

/-- The lane exchanges and CTEST of a tile (R112-R116). -/
def exchangeRow (v : View) : Instr → Option LongRow
  | .shflXor h fsel d a n => some (shuffleRow v h fsel d a [] (fun l => l ^^^ n.toNat))
  | .shflUp h fsel d a n => some (shuffleRow v h fsel d a [] (fun l => if n.toNat ≤ l then l - n.toNat else l))
  | .shflDown h fsel d a n => some (shuffleRow v h fsel d a [] (fun l => if l + n.toNat ≤ 31 then l + n.toNat else l))
  | .shflIdx h fsel d a n => some (shuffleRow v h fsel d a [] (fun _ => n.toNat))
  | .shflIdxReg h fsel d a b => some (shuffleRow v h fsel d a [b] (fun l => (v.w.vreg b.toNat l).toNat % 32))
  | .voteAll h fsel pd pa => some (voteRow v h fsel (.p pd.toNat) (bitOf ((List.range 32).all (inMask (ballot v h pa)))))
  | .voteAny h fsel pd pa => some (voteRow v h fsel (.p pd.toNat) (bitOf ((List.range 32).any (inMask (ballot v h pa)))))
  | .voteBallot h fsel sd pa => some (voteRow v h fsel (.s sd.toNat) ((ballot v h pa).setWidth 64))
  | .scan h fsel op incl d a => some
      { head := h, fsel := fsel, pre := Pre.long fsel [d.toNat, a.toNat], dest := .v d.toNat, wide := false, pop := false,
        clean := Clean v h [a.toNat], lanes := enabled v h,
        result := fun l => ((foldOver v h op a (if incl then l + 1 else l)).setWidth 64, 0) }
  | .redux h fsel op sd a => some
      { head := h, fsel := fsel, pre := Pre.long fsel [a.toNat], dest := .s sd.toNat, wide := false, pop := false,
        clean := Clean v h [a.toNat], lanes := enabled v h,
        result := fun _ => (if op = .min ∨ op = .max then BitVec.ofInt 64 (foldOver v h op a 32).toInt else BitVec.ofNat 64 (foldOver v h op a 32).toNat, 0) }
  | .ctestTile h fsel sd ms tile hi =>
    match Tab.look v.wg.tiles tile.toNat with
    | some t => some
      { head := h, fsel := fsel, pre := { Pre.long fsel [] with res := [(tile.toNat, .tile)] }, dest := .s sd.toNat, wide := false, pop := false,
        clean := t.count ≠ 0 ∧ (t.st = .filling ∨ t.st = .ready), lanes := 1#32 <<< lowLane (enabled v h),
        result := fun _ => (bitOf (tileHas t hi (scalarOf v ms)), 0), sc := .wg }
    | none => none
  | _ => none

/-! Memory words (R51, R133-R142). -/

/-- base + index × scale + offset, modulo 2^64 (R51). -/
def addressOf (v : View) (base : BitVec 6) (idx : BitVec 8) (scl : Scl) (off : Int) (l : Nat) : Nat :=
  ((((scalarOf v base).toNat : Int) + (if idx = 255#8 then 0 else (v.w.vreg idx.toNat l).toNat : Nat) * (2 ^ scl.code.toNat : Nat) + off) % 2 ^ 64).toNat

/-- An access not yet performed, under the mapping generation in which it was translated (R179). -/
def access (s : State) (v : View) (lane va key size : Nat) (data swp : List Byte) : Access :=
  { lane := lane, va := va, pa := key, size := size, data := data, swp := swp, done := false, res := [], pkt := none,
    gen := (s.ctxAt v.g.ctx).mapgen.toNat }

/-- The first bytes of a group of registers of a lane, little-endian (R90, R140). -/
def regBytes (v : View) (d n l : Nat) : List Byte :=
  (List.range n).map (fun j => BitVec.ofNat 8 ((v.w.vreg (d + j / 4) l).toNat / 256 ^ (j % 4)))

/-- The states differ only in the translations that cores and dies hold and in the walk unit's cached entries (R333). -/
def Warmed (s t : State) : Prop :=
  ∃ (cs : Tab Core) (ds : Tab Die) (xs : Tab Ctx), t = { s with cores := cs, dies := ds, ctxs := xs } ∧
    (∀ c, { t.coreAt c with tlb := [] } = { s.coreAt c with tlb := [] }) ∧
    (∀ d, { t.dieAt d with tlb := [] } = { s.dieAt d with tlb := [] }) ∧
    ∀ c, { t.ctxAt c with walks := [] } = { s.ctxAt c with walks := [] }

/-- The word's accesses go to the memory pipe: they are in flight under a fresh number, the flag has risen, and the split passes; while one of them goes to a system window that a group may lose, the split issues no later word and stays parked at this one (R135), and frames that a port's filter drops are counted (R324). Nothing else has changed but translations held. -/
def LaunchedAccesses (o : Host.Outcome State Fault Refusal) (s : State) (v : View) (h : Head) (fsel : Bool) (kind : OpKind) (sc : Scope) (space : Space)
    (accs : List Access) (qs : Tab Wg) : Prop :=
  ∃ (w : Warp) (u : State),
    let t : State := { after u v w with wgs := qs, nextId := s.nextId + 1,
                                        ops := Tab.put s.ops s.nextId (flight v fsel kind sc space (enabled v h) accs) }
    o = .next (if space = .glob ∧ accs.any s.mayCancel = true then t.countDrops (accs.map Access.pa) else t) ∧
    Warmed s u ∧ Raised w v (flagOf v fsel) ∧
    (if space = .glob ∧ accs.any s.mayCancel = true then
      w = { passed v h with flags := w.flags, threads := (v.w.park v.w.split (.held s.nextId)).threads }
    else w = { passed v h with flags := w.flags })

/-- A memory word of which each enabled thread makes one access: its address, width, data and swap value, and where the address is checked (R134, R142). -/
structure MemRow where
  head : Head
  fsel : Bool
  regs : List Nat
  reads : List Nat
  kind : OpKind
  sc : Scope
  space : Space
  size : Nat
  addr : Nat → Nat
  data : Nat → List Byte
  swp : Nat → List Byte
  site : Run → Nat → Nat → Site

/-- The accesses of a row at sites that all pass: key and virtual address by lane. -/
def MemRow.accs (row : MemRow) (s : State) (v : View) (at_ : Nat → Nat × Nat) : List Access :=
  (maskLanes (enabled v row.head)).map (fun l => access s v l (at_ l).2 (at_ l).1 row.size (row.data l) (row.swp l))

/-- Every enabled thread's access passes the checks of its space, at these keys and addresses. -/
def MemRow.Passes (row : MemRow) (s : State) (v : View) (at_ : Nat → Nat × Nat) : Prop :=
  ∀ l, inMask (enabled v row.head) l = true → row.site (Run.of s v row.head) (row.addr l) l = .ok (at_ l).1 (at_ l).2

def groupRegs (d : BitVec 8) (n : Nat) : List Nat := (List.range n).map (d.toNat + ·)
def indexRegs (idx : BitVec 8) : List Nat := if idx = 255#8 then [] else [idx.toNat]

def loadRow (v : View) (h : Head) (fsel : Bool) (w : Width) (sc : Scope) (space : Space) (d : BitVec 8) (m : MemOp) (site : Run → Nat → Nat → Site) : MemRow :=
  { head := h, fsel := fsel, regs := groupRegs d w.regs ++ indexRegs m.idx, reads := indexRegs m.idx, kind := .load w d.toNat, sc := sc, space := space,
    size := w.bytes, addr := addressOf v m.base m.idx m.scl m.off.toInt, data := fun _ => [], swp := fun _ => [], site := site }

def storeRow (v : View) (h : Head) (fsel : Bool) (w : Width) (sc : Scope) (space : Space) (d : BitVec 8) (m : MemOp) (site : Run → Nat → Nat → Site) : MemRow :=
  { head := h, fsel := fsel, regs := groupRegs d w.regs ++ indexRegs m.idx, reads := groupRegs d w.regs ++ indexRegs m.idx, kind := .store, sc := sc, space := space,
    size := w.bytes, addr := addressOf v m.base m.idx m.scl m.off.toInt, data := fun l => regBytes v d.toNat w.bytes l, swp := fun _ => [], site := site }

/-- An atomic, or a reduction where there is no destination (R147-R149). -/
def atomRow (v : View) (h : Head) (fsel : Bool) (op : AtomOp) (m : AMem) (dst : Option (BitVec 8)) (b : BitVec 8) (c : Option (BitVec 8)) : MemRow :=
  let n := if m.wide then 2 else 1
  { head := h, fsel := fsel,
    regs := (dst.toList ++ [b] ++ c.toList).flatMap (fun d => groupRegs d n) ++ indexRegs m.idx,
    reads := ([b] ++ c.toList).flatMap (fun d => groupRegs d n) ++ indexRegs m.idx,
    kind := .atom op (dst.map BitVec.toNat), sc := m.sc, space := if m.scr then .scr else .glob, size := 4 * n,
    addr := addressOf v m.base m.idx m.scl 0, data := fun l => regBytes v b.toNat (4 * n) l,
    swp := fun l => match c with | some c => regBytes v c.toNat (4 * n) l | none => [],
    site := fun r a _ => if m.scr then r.scratchSite dst.isSome a (4 * n) else r.globalSite .both m.sc dst.isSome a (4 * n) }

/-- Loads, stores, atomics and reductions with one access for each enabled thread. -/
def memRow (v : View) : Instr → Option MemRow
  | .ld h fsel w sc d m => some (loadRow v h fsel w sc .glob d m (fun r a _ => r.globalSite .read sc true a w.bytes))
  | .ldScr h fsel w sc d m => some (loadRow v h fsel w sc .scr d m (fun r a _ => r.scratchSite true a w.bytes))
  | .ldCon h fsel w d m => some (loadRow v h fsel w .th .con d m (fun r a _ => r.constSite a w.bytes))
  | .st h fsel w sc d m => some (storeRow v h fsel w sc .glob d m (fun r a _ => r.noRestart a (r.globalSite .write sc false a w.bytes)))
  | .stScr h fsel w sc d m => some (storeRow v h fsel w sc .scr d m (fun r a _ => r.scratchSite false a w.bytes))
  | .atomAdd h fsel m d b => some (atomRow v h fsel .add m (some d) b none)
  | .atomMin h fsel m d b => some (atomRow v h fsel .min m (some d) b none)
  | .atomMax h fsel m d b => some (atomRow v h fsel .max m (some d) b none)
  | .atomMinu h fsel m d b => some (atomRow v h fsel .minu m (some d) b none)
  | .atomMaxu h fsel m d b => some (atomRow v h fsel .maxu m (some d) b none)
  | .atomAnd h fsel m d b => some (atomRow v h fsel .and m (some d) b none)
  | .atomOr h fsel m d b => some (atomRow v h fsel .or m (some d) b none)
  | .atomXor h fsel m d b => some (atomRow v h fsel .xor m (some d) b none)
  | .atomExch h fsel m d b => some (atomRow v h fsel .exch m (some d) b none)
  | .atomFadd h fsel m d b => some (atomRow v h fsel .fadd m (some d) b none)
  | .atomCas h fsel m d b c => some (atomRow v h fsel .cas m (some d) b (some c))
  | .redAdd h fsel m d => some (atomRow v h fsel .add m none d none)
  | .redMin h fsel m d => some (atomRow v h fsel .min m none d none)
  | .redMax h fsel m d => some (atomRow v h fsel .max m none d none)
  | .redFadd h fsel m d => some (atomRow v h fsel .fadd m none d none)
  | .redOr h fsel m d => some (atomRow v h fsel .or m none d none)
  | _ => none

/-- The 4-byte words of a private access (R335); one narrower than a word is one part. -/
def privateParts (w : Width) : List Nat := (List.range ((w.bytes + 3) / 4)).map (4 * ·)

/-- Every part of every enabled thread's private access passes the checks of R335. -/
def PrivatePasses (s : State) (v : View) (h : Head) (need : Need) (w : Width) (m : MemOp) (at_ : Nat → Nat → Nat × Nat) : Prop :=
  ∀ l p, inMask (enabled v h) l = true → p ∈ privateParts w →
    (Run.of s v h).privateSite need (addressOf v m.base m.idx m.scl m.off.toInt l) w.bytes p l = .ok (at_ l p).1 (at_ l p).2

/-- The accesses of a private word, part by part. -/
def privateAccs (s : State) (v : View) (h : Head) (w : Width) (at_ : Nat → Nat → Nat × Nat) (data : Nat → List Byte) : List Access :=
  (maskLanes (enabled v h)).flatMap (fun l => (privateParts w).map (fun p =>
    access s v l (at_ l p).2 (at_ l p).1 (Nat.min w.bytes 4) (((data l).drop p).take 4) []))

end Sys2Proof.Claims
end

