-- ==== Sys2Proof/Certificates/Slice0/Control.lean ====
section
/-! DEFINITION. What the statements say of words made once for a split, of calls and teams, barriers, waits, copies and calls to Scarab. -/

namespace Sys2Proof.Claims

open Sys2Proof.Machine

/-! Words with one access for the whole split (R133). -/

/-- base + offset, modulo 2^64. -/
def onceAddr (v : View) (base : BitVec 6) (off : BitVec 16) : Nat := (((scalarOf v base).toNat + off.toInt) % 2 ^ 64).toNat

/-- The rows and planes of an image can be reached: aligned, inside scratch, of a format that packs, and none of the words read is poisoned (R198, R357). -/
def PlanesReached (v : View) (f : Slot) (b row : Nat) (reads : List (Nat × Nat)) : Prop :=
  b % 4 = 0 ∧ (∀ e ∈ planeSites f b row, e.1 + e.2 ≤ v.g.scrBytes) ∧ f.badPlanes = false ∧
    ∀ e ∈ reads, e.1 / 8 ∉ v.wg.scrPoison

/-- The scale byte and plane words of a row, as accesses of the split. -/
def planeAccs (s : State) (v : View) (f : Slot) (b row : Nat) : List Access :=
  (planeSites f b row).map (fun e => access s v 32 e.1 e.1 e.2 [] [])

/-! Calls (R118). -/

/-- The word after the issuing split's. -/
def nextPc (v : View) : Nat := v.w.pcOf v.w.split + 8

/-- The issuing split's word is the last of its clause (R95, R118). -/
def LastOfClause (v : View) : Prop :=
  ∀ c, (v.w.thread (lowLane v.w.split)).cl = some c → c.hdr + 8 * c.cnt ≤ (v.w.thread (lowLane v.w.split)).pc

/-- Each enabled thread has the next word's address in its pair and stands at its target; the rest of the split passes. -/
def Called (o : Host.Outcome State Fault Refusal) (s : State) (v : View) (h : Head) (lv : Nat) (tgt : Nat → Nat) : Prop :=
  ∃ w : Warp, o = .next (after s v w) ∧
    w = { jumped v h w.hazards tgt with v := w.v, vPoison := w.vPoison } ∧
    (∀ r l, l < 32 → w.vreg r l = if inMask (enabled v h) l then
        (if r = lv then BitVec.ofNat 32 (nextPc v) else if r = lv + 1 then BitVec.ofNat 32 (nextPc v / 2 ^ 32) else v.w.vreg r l)
      else v.w.vreg r l) ∧
    (∀ k, k ∈ w.vPoison ↔ k ∈ v.w.vPoison ∧ ¬ (inMask (enabled v h) (k % 32) = true ∧ (k / 32 = lv ∨ k / 32 = lv + 1))) ∧
    Notes w v h [.v lv, .v (lv + 1)] (enabled v h) 1

/-! Teams (R119-R131). -/

/-- The split's enabled threads change, the rest of the split goes on. -/
def parted (v : View) (h : Head) (f : Thread → Thread) : Warp :=
  { passed v h with threads := v.w.threads.mapIdx (fun l t => if inMask (enabled v h) l then f t else if inMask v.w.split l then t.pass else t) }

/-- The team has an enabled thread. -/
def teamHere (v : View) (h : Head) (t : Nat) : Bool := (List.range 32).any (fun l => inMask (enabled v h) l && decide ((v.w.thread l).team = t))

/-- Every live thread of the warp in team t is enabled in the issuing split (R122). -/
def WholeHere (v : View) (h : Head) (t : Nat) : Prop :=
  ∀ l, l < 32 → (v.w.thread l).live = true → (v.w.thread l).team = t → inMask (enabled v h) l = true

/-- The state with the warp and with the workgroup's team table changed, and nothing else. -/
def WithTeams (s : State) (v : View) (w : Warp) (f : Nat → Team → Team) (t : State) : Prop :=
  ∃ wgs : Tab Wg, ∃ wg : Wg, t = { after s v w with wgs := wgs } ∧
    (∀ k, Tab.look wgs k = if k = v.wgKey then some wg else Tab.look s.wgs k) ∧
    wg = { v.wg with teams := wg.teams } ∧ (∀ n, Tab.look wg.teams n = (Tab.look v.wg.teams n).map (f n))

/-- The teams of the enabled threads may arrive at a collective (R122, R125). -/
def MayArrive (v : View) (h : Head) (call : Bool) : Prop :=
  ∀ t x, teamHere v h t = true → Tab.look v.wg.teams t = some x →
    (call = true → x.depth < 8) ∧ WholeHere v h t ∧ x.st ≠ .returning ∧ (x.pending = none ∨ x.pending = some (v.w.pcOf v.w.split))

/-- An arriving team collects, at the collective's word (R122). -/
def arrives (v : View) (h : Head) (byWarp : Bool) (table : List (Nat × Nat)) (t : Nat) (x : Team) : Team :=
  if teamHere v h t = true ∧ x.pending = none then { x with st := .collecting, pending := some (v.w.pcOf v.w.split), byWarp := byWarp, table := table } else x

/-- The enabled threads are parked at a collective, their teams have arrived, and whatever is now due in the workgroup has happened. -/
def Arrived (o : Host.Outcome State Fault Refusal) (s : State) (v : View) (h : Head) (call byWarp : Bool) (table : List (Nat × Nat)) : Prop :=
  ∃ t, WithTeams s v (parted v h (fun t => { t with st := .parked (if call then .tcall else .tbar) })) (arrives v h byWarp table) t ∧
    o = .next (t.settleWg v.wgKey)

/-- The word as issued, before its effect. -/
def counted (s : State) (v : View) (h : Head) : State := (Run.of s v h).s

/-- The team table at an address, read as code is, and its entries (R62). -/
def TableAt (s : State) (v : View) (a : Nat) (table : List (Nat × Nat)) : Prop :=
  a % 8 = 0 ∧ ∃ (w0 : W64) (es : List W64), s.fetch v.wg.core v.g.ctx a = .word w0 ∧
    s.teamWords v.wg.core v.g.ctx (a + 8) (w0.toNat % 8 + 1) = .ok es ∧ teamTable a (w0 :: es) = some table

/-! Barriers (R157-R161). -/

/-- The root team, and every live thread of the warp in the split and enabled (R157). -/
def WholeWarp (v : View) (h : Head) : Prop :=
  (∀ l, l < 32 → (v.w.thread l).live = true → inMask (enabled v h) l = true) ∧
    ∀ l, inMask (enabled v h) l = true → (v.w.thread l).team = 0

/-- A bit set or cleared. -/
def bit32 (x : BitVec 32) (n : Nat) (b : Bool) : BitVec 32 := if b then x ||| (1#32 <<< n) else x &&& ~~~(1#32 <<< n)

/-- The enabled threads that pass a test. -/
def among (v : View) (h : Head) (f : Thread → Bool) : Mask := maskOf (fun l => inMask (enabled v h) l && f (v.w.thread l))

/-- The threads of m are parked by a word after its issue: a counted operation with no access stands for the word until they go on (R28, R77). The other threads of the split change as f says. -/
def Parked (t s : State) (v : View) (h : Head) (fsel : Bool) (m : Mask) (f : Thread → Thread) : Prop :=
  ∃ w : Warp, t = { after s v w with nextId := s.nextId + 1,
                                      ops := Tab.put s.ops s.nextId { flight v fsel (.parked false) .th .glob m [] with left := m } } ∧
    w = { parted v h f with flags := w.flags } ∧ Raised w v (flagOf v fsel)

/-- The 8 bytes of phase barrier n: arrivals, expected arrivals, phase (R160). -/
def phaseWord (v : View) (n : Nat) : Nat := bytesToNat (readBytes v.wg.scratch (v.g.scrBytes - 8 * v.g.barn + 8 * n) 8)

/-- Phase barrier n is initialised and takes k more arrivals (R161). -/
def Takes (v : View) (n k : Nat) : Prop :=
  phaseWord v n / 2 ^ 33 = 0 ∧ phaseWord v n / 2 ^ 16 % 2 ^ 16 ≠ 0 ∧ phaseWord v n % 2 ^ 16 + k ≤ phaseWord v n / 2 ^ 16 % 2 ^ 16

/-- The object after k arrivals: with the last expected one, the count is zero and the phase has flipped (R161). -/
def phaseAfter (v : View) (n k : Nat) : Nat :=
  if phaseWord v n % 2 ^ 16 + k = phaseWord v n / 2 ^ 16 % 2 ^ 16 then
    phaseWord v n / 2 ^ 16 % 2 ^ 16 * 2 ^ 16 + (1 - phaseWord v n / 2 ^ 32) * 2 ^ 32
  else phaseWord v n + k

def phaseOf (v : View) (n : Nat) : Bool := decide (phaseWord v n / 2 ^ 32 % 2 = 1)

/-! Monitors (R162, R163, R177). -/

/-- A monitor of the enabled threads, not yet armed. -/
def newMonitor (s : State) (v : View) (h : Head) (fsel scr : Bool) (sc : Scope) (key size : Nat) (cc : Cmp) (x : W64) (maskForm : Bool) : Mon :=
  { ctx := v.g.ctx, warp := v.key, lanes := enabled v h, pc := v.w.pcOf v.w.split, flag := flagOf v fsel, sc := sc, scr := scr, key := key,
    size := size, cc := cc, x := x, maskForm := maskForm, armed := false, seen := [], since := s.clock.toNat }

/-- The enabled threads are parked at a new monitor, not yet armed, and then the monitor arms if it may; nothing else has changed but translations held. -/
def Monitored (o : Host.Outcome State Fault Refusal) (s : State) (v : View) (h : Head) (fsel scr : Bool) (sc : Scope) (key size : Nat) (cc : Cmp) (x : W64) (maskForm : Bool) : Prop :=
  ∃ (w : Warp) (u : State),
    o = .next (State.armMon { after u v w with nextId := s.nextId + 1,
                                                ops := Tab.put s.ops s.nextId (flight v fsel (.parked true) .th .glob (enabled v h) []),
                                                mons := Tab.put s.mons s.nextId (newMonitor s v h fsel scr sc key size cc x maskForm) } s.nextId) ∧
    Warmed s u ∧ w = { parted v h (fun t => { t with st := .parked (.monitor s.nextId) }) with flags := w.flags } ∧ Raised w v (flagOf v fsel)

/-- The comparison operand of MWAIT (R162). -/
def monOperand (v : View) : MX → W64
  | .reg a => scalarOf v a
  | .imm x => BitVec.ofNat 64 x.toNat

/-- One tile of the workgroup is as given, and nothing else but the warp has changed. -/
def TileSet (o : Host.Outcome State Fault Refusal) (s : State) (v : View) (h : Head) (n : Nat) (t : Tile) : Prop :=
  ∃ wgs : Tab Wg, ∃ wg : Wg, o = .next { after s v (passed v h) with wgs := wgs } ∧
    (∀ k, Tab.look wgs k = if k = v.wgKey then some wg else Tab.look s.wgs k) ∧
    wg = { v.wg with tiles := wg.tiles } ∧ (∀ j, Tab.look wg.tiles j = if j = n then some t else Tab.look v.wg.tiles j)

/-! Order and cache words (R152-R156, R215). -/

/-- A word made once for the split, whose one operation is in flight; while held, the split stays parked at it, and frames to these addresses that a port's filter drops are counted (R324). Nothing else has changed but translations held. -/
def LaunchedOnce (o : Host.Outcome State Fault Refusal) (s : State) (v : View) (h : Head) (fsel : Bool) (op : Op) (hold : Bool) : Prop :=
  ∃ (w : Warp) (u : State),
    let t : State := { after u v w with nextId := s.nextId + 1, ops := Tab.put s.ops s.nextId op }
    o = .next (if hold then t.countDrops (op.accs.map Access.pa) else t) ∧
    Warmed s u ∧ Raised w v (flagOf v fsel) ∧
    w = { passed v h with flags := w.flags, threads := if hold then (v.w.park v.w.split (.held s.nextId)).threads else (passed v h).threads }

/-- The line of a CCTL's address, as its site. -/
def lineAddr (v : View) (base : BitVec 6) (off : BitVec 16) : Nat := onceAddr v base off / 128 * 128

/-- CCTL's state: the caches its scope names have acted, its operation holds the pipe until what it waits for is done, and the split has passed. -/
def CacheActed (o : Host.Outcome State Fault Refusal) (s : State) (v : View) (h : Head) (sc : Scope) (key : Nat) (wb inv : Bool) : Prop :=
  ∃ u : State, Warmed s u ∧
    let c := (counted u v h).cctlAct v.wg.core v.g.ctx (key / 128) sc wb inv
    let op : Op := { flight v false (.cctl (key / 128) wb inv) sc .glob (enabled v h) [] with acks := c.2, flag := none, counted := false }
    let t := ({ c.1 with nextId := c.1.nextId + 1, ops := Tab.put c.1.ops c.1.nextId op } : State).setWarp v.key (passed v h)
    o = .next (if c.2 = [] then t.countDown c.1.nextId (enabled v h) else t)

/-! Copies and PUBLISH (R166-R168, R179). -/

/-- The page of an address is the context's aperture, and may be written (R35, R143). -/
def ApertureAt (s : State) (v : View) (h : Head) (a : Nat) : Prop := a < 2 ^ 57 ∧ ∃ t, (counted s v h).lookup v.wg.core v.g.ctx a = .ok t ∧ t.kind = 3 ∧ t.w = true

/-- The template of an index, read from the context's table: it has none of R73's defects (R71-R73). -/
def TemplateRead (s : State) (v : View) (i : Nat) (t : Template) : Prop :=
  let x := s.ctxAt v.g.ctx
  i ≤ x.tpln.toNat ∧ t.invalid v.g.tilen = false ∧
    ∃ key, s.unitSite v.g.ctx .read (x.tplb.toNat * 4096 + 128 * i) = .ok key ∧ t = Template.ofBytes (s.portRead key 128)

/-- The four words of a copy start are as R166 allows under a template. -/
def ScalarsPass (v : View) (t : Template) (w0 w1 w2 w3 : W64) : Prop :=
  w0.toNat < 2 ^ 16 ∧
  (if w0.getLsbD 12 then w0.getLsbD 15 = false ∧ w1.toNat < 2 ^ 57
    else if w0.getLsbD 15 then w1.toNat < 64 ∧ w1.toNat < v.g.tilen else w1 = 0) ∧
  (if w0.getLsbD 13 then (if t.toMem then w2.toNat < 2 ^ 57 else w2.toNat < 64 ∧ w2.toNat < v.g.tilen) else w2 = 0) ∧
  (w0.getLsbD 14 = false → w3 = 0)

/-- The windows among these that have no shadow pages still open to copies (R173, R179). -/
def unshadowed (x : Ctx) (ws : List Nat) : List Nat := ws.filter (fun v => !x.shadows.any (fun e => e.va == v && e.closed.isNone))

/-- A copy meets R167's conditions on its memory and its tiles: a bitmap that can be written; no capacity-tier page under a shadow; tiles in their states, the extent inside them; no device memory written by a restartable grid but through shadow pages; shadow pages enough. -/
def CopyPasses (s : State) (v : View) (t : Template) (cp : Copy) : Prop :=
  (t.toMem = true → ∃ key, s.unitSite v.g.ctx .write cp.target = .ok key ∧ (isHbm key = true ∨ 0x10 ≤ key / 2 ^ 40 ∧ key / 2 ^ 40 ≤ 0x1B)) ∧
  (cp.shadow = true → ∀ x ∈ cp.windows, ∀ u, s.walk v.g.ctx (65536 * x) = .ok u → u.ct = false ∧ u.kind ≠ 1) ∧
  (∀ n, cp.dstTile = some n → ∃ x, Tab.look v.wg.tiles n = some x ∧ x.count ≠ 0 ∧ x.st ≠ .filling ∧ x.st ≠ .draining ∧ 0 ≤ cp.lo ∧ cp.hi ≤ 512 * x.count) ∧
  (∀ n, cp.srcTile = some n → ∃ x, Tab.look v.wg.tiles n = some x ∧ x.count ≠ 0 ∧ x.st = .ready ∧
    ∀ e ∈ cp.spans, 0 ≤ (cp.src : Int) - x.base + e.1 ∧ (cp.src : Int) - x.base + e.1 + e.2 ≤ 512 * x.count) ∧
  (v.g.restart = true → cp.shadow = false → cp.toMem = true → ∀ a ∈ cp.destVas, s.deviceVa v.g.ctx (4096 * (a / 4096)) = false) ∧
  (cp.shadow = true → (unshadowed (s.ctxAt v.g.ctx) cp.windows).length ≤ (s.ctxAt v.g.ctx).freePages.length)

/-- The copy's tiles: the destination FILLING, set where it receives no byte, the source DRAINING (R168, R171, R174). -/
def TilesTaken (v : View) (cp : Copy) (wg : Wg) : Prop :=
  wg = { v.wg with tiles := wg.tiles } ∧
  (∀ j, Tab.look v.wg.tiles j = none → Tab.look wg.tiles j = none) ∧
  ∀ j x, Tab.look v.wg.tiles j = some x → ∃ z, Tab.look wg.tiles j = some z ∧
    (if cp.dstTile = some j then z = { x with st := .filling, bits := z.bits } ∧
        ∀ i, i < 128 → z.bits.getLsbD i = (decide (i < x.count) && !cp.filled.contains i)
      else if cp.srcTile = some j then z = { x with st := .draining } else z = x)

/-- The context with the next copy number, and with a new set of shadow pages from its pool for each window without an open one (R168, R173). -/
def numbered (x : Ctx) (cp : Copy) : Ctx :=
  let new := if cp.shadow then unshadowed x cp.windows else []
  { x with copyNo := x.copyNo + 1, freePages := x.freePages.drop new.length,
           shadows := x.shadows ++ (new.zip x.freePages).map (fun e => { va := e.1, page := e.2, written := [], closed := none }) }

/-- The copy is in flight with its number, its shadow pages and the word's counted store: its release has been made, or waits for the operations of its warp that are not done (R168). -/
def CopyStarted (o : Host.Outcome State Fault Refusal) (s : State) (v : View) (h : Head) (fsel : Bool) (cp : Copy) : Prop :=
  ∃ (w : Warp) (u : State) (wgs : Tab Wg) (wg : Wg),
    let x := numbered (u.ctxAt v.g.ctx) cp
    let t : State := { (after u v w).setCtx v.g.ctx x with wgs := wgs, nextId := s.nextId + 1 }
    let waits := s.copyWaits v.key
    let p := if waits = [] then t.releaseAt v.wg.core v.g.ctx cp.sc else (t, [])
    o = .next { p.1 with
      copies := Tab.put p.1.copies s.nextId { cp with before := waits, acks := p.2, pages := if cp.shadow then x.openPages cp.windows else [] }
      ops := Tab.put p.1.ops p.1.nextId (flight v fsel .store .th .glob (enabled v h) [])
      nextId := p.1.nextId + 1 } ∧
    Warmed s u ∧ w = { passed v h with flags := w.flags } ∧ Raised w v (flagOf v fsel) ∧
    (∀ k, Tab.look wgs k = if k = v.wgKey then some wg else Tab.look s.wgs k) ∧ TilesTaken v cp wg

/-- A page that PUBLISH may name: mapped as device memory in HBM, no capacity-tier page, in the partition's units (R179, R327, R341). -/
def Publishable (s : State) (v : View) (h : Head) (va : Nat) : Prop :=
  va < 2 ^ 57 ∧ ∃ t, (counted s v h).lookup v.wg.core v.g.ctx va = .ok t ∧ t.kind = 0 ∧ t.ct = false ∧ isHbm (cellOf t.pa) = true ∧
    s.checkTrans v.g.ctx .read { t with r := true } = none

/-- Every page of the windows may be published (R179). -/
def WindowsPass (s : State) (v : View) (h : Head) (a n : Nat) : Prop := a % 65536 = 0 ∧ ∀ i, i < 16 * n → Publishable s v h (a + 4096 * i)

/-- PUBLISH is in flight: its threads are parked, its windows and the copies it waits for are noted, and the windows' shadow pages are closed to copies that start later (R179). -/
def Publishing (o : Host.Outcome State Fault Refusal) (s : State) (v : View) (h : Head) (fsel : Bool) (sc : Scope) (a n : Nat) : Prop :=
  ∃ (w : Warp) (u : State) (copies : List Nat),
    let named := fun (x : Nat) => decide (a / 65536 ≤ x ∧ x < a / 65536 + n)
    let c := u.ctxAt v.g.ctx
    let close := fun (e : Shadow) => if e.closed = none ∧ named e.va = true then { e with closed := some s.nextId } else e
    o = .next { (after u v w).setCtx v.g.ctx { c with shadows := c.shadows.map close }
                with nextId := s.nextId + 1, ops := Tab.put s.ops s.nextId (flight v fsel (.publish a n copies false) sc .glob (enabled v h) []) } ∧
    Warmed s u ∧ w = { parted v h (fun t => { t with st := .parked (.publish s.nextId) }) with flags := w.flags } ∧ Raised w v (flagOf v fsel) ∧
    (∀ id, id ∈ copies ↔ ∃ c, (id, c) ∈ s.copies ∧ c.ctx = v.g.ctx ∧ c.shadow = true ∧ ∃ x ∈ c.windows, named x = true)

/-! Scarab (R208, R209, R345, R347, R349). -/

/-- A record of the issuing warp as R343 gives it: a cause in some threads, EXEC the split, LIVE the live threads. -/
def recordOf (s : State) (v : View) (pc : Nat) (exec : Mask) (causes : List (Nat × Mask)) (detail : W64) (origin : Nat) : TrapRec :=
  { core := v.wg.core, warp := some v.key, wgKey := v.wgKey, pc := pc, exec := exec,
    live := maskOf (fun l => (v.w.thread l).live), causes := causes, ctx := v.g.ctx, origin := origin,
    splitB := (match v.w.pair with | some p => p.turnB | none => false), fetch := false, wid := v.w.wid,
    wgid := v.wg.wgid, clid := v.cl.clid, detail := detail, clock := s.clockAt v.wg.core, dbg := false, queued := false }

end Sys2Proof.Claims
end

