-- ==== Sys2Proof/Certificates/Slice0/Stream.lean ====
section
/-! DEFINITION. What the statements say of records to Scarab, of YIELD and REGQ, and of the words of a matrix stream. -/

namespace Sys2Proof.Claims

open Sys2Proof.Machine

/-! Records (R208, R209, R343, R345). -/

/-- A core's queue has room for a record: fewer than 64 stand in it and none waits for a place (R345). -/
def Room (s : State) (core : Nat) : Prop := (s.coreAt core).queue.length < 64 ∧ ∀ e ∈ s.recs, e.2.core = core → e.2.queued = true

/-- A record has been made under the next number: it stands in its core's queue where there is room, and else waits. Nothing else has changed. -/
def Filed (t s : State) (r : TrapRec) : Prop :=
  ∃ (queued : Bool) (cs : Tab Core), (queued = true ↔ Room s r.core) ∧
    t = { s with nextId := s.nextId + 1, recs := Tab.put s.recs s.nextId { r with queued := queued }, cores := cs } ∧
    ∀ k, Tab.get Core.reset cs k = if queued = true ∧ k = r.core then { s.coreAt k with queue := (s.coreAt k).queue ++ [s.nextId] } else s.coreAt k

/-- A trap has been taken: the whole split parks at the word, for its record names the split and the threads of each cause, and the word has no other effect than to be counted (R95, R345). -/
def Trapped (o : Host.Outcome State Fault Refusal) (s : State) (v : View) (causes : List (Nat × Mask)) (detail : W64) : Prop :=
  ∃ t, Filed t s (recordOf s v (v.w.pcOf v.w.split) v.w.split causes detail 0) ∧
    o = .next (after t v { v.w with budget := v.w.budget - 1, threads := (v.w.park v.w.split (.record s.nextId)).threads })

/-! YIELD and REGQ (R31, R207, R213). -/

/-- The threads after a YIELD: past it, and where the warp is marked for pre-emption every ready one is parked for the save (R304). -/
def yielded (v : View) (h : Head) : List Thread :=
  if v.w.marked then (passed v h).threads.mapIdx (fun l t => if l < 32 ∧ t.st = .ready then { t with st := .parked .yieldSave } else t) else (passed v h).threads

/-- Registers per thread that pending transfers of the workgroup move out of a warp, or into one. -/
def movedRegs (s : State) (v : View) (f : Regq → Bool) : Nat :=
  ((s.warps.filter (fun e => decide (e.1 / 32 = v.wgKey))).map (fun e => match e.2.regq with | some q => if f q then 8 * q.k else 0 | none => 0)).sum

/-- The quota of warp i of the workgroup. -/
def quotaOf (s : State) (v : View) (i : Nat) : Nat := ((Tab.look s.warps (32 * v.wgKey + i)).map (·.quota)).getD 0

/-- A transfer that R213 lets a warp record. -/
def MayTransfer (s : State) (v : View) (q : Regq) : Prop :=
  v.w.regq = none ∧ q.w1 < v.g.nwarps ∧ q.w2 < v.g.nwarps ∧ q.w1 ≠ q.w2 ∧ 1 ≤ q.k ∧ q.k ≤ 30 ∧
    8 + 8 * q.k + movedRegs s v (fun p => decide (p.w1 = q.w1)) ≤ quotaOf s v q.w1 ∧
    quotaOf s v q.w2 + movedRegs s v (fun p => decide (p.w2 = q.w2)) + 8 * q.k ≤ 248 ∧
    (q.w1 % 4 = q.w2 % 4 ∨ s.sliceRegs v.wg.core (q.w2 % 4) + 8 * q.k ≤ 1024)

/-! Stream words (R182-R197). -/

/-- The sequencer past its word: at the next one, out of the clause after its last (R76). -/
def seqPassed (q : Seq) : Seq :=
  { q with pc := q.pc + 8,
           cl := match q.cl with | some c => if q.pc + 8 ≤ c.hdr + 8 * c.cnt then some c else none | none => none }

/-- The state with the workgroup of a stream as given, and nothing else changed. -/
def WgSet (o : Host.Outcome State Fault Refusal) (s : State) (r : SeqRun) (wg : Wg) : Prop :=
  ∃ wgs : Tab Wg, o = .next { s with wgs := wgs } ∧ ∀ k, Tab.look wgs k = if k = r.key then some wg else Tab.look s.wgs k

/-- The same, and flags have been added to every live warp of the workgroup (R187). -/
def WgSetFlags (o : Host.Outcome State Fault Refusal) (s : State) (r : SeqRun) (wg : Wg) (fl : Fl) : Prop :=
  ∃ (wgs : Tab Wg) (warps : Tab Warp), o = .next { s with wgs := wgs, warps := warps } ∧
    (∀ k, Tab.look wgs k = if k = r.key then some wg else Tab.look s.wgs k) ∧
    ∀ k, Tab.look warps k = (Tab.look s.warps k).map (fun w =>
      if k / 32 = r.key ∧ w.liveMask ≠ 0 then { w with fpflags := w.fpflags ||| fl } else w)

/-- Flags that are the union of those of all 64 × 64 elements, for some tiles. -/
def Union (fl : Fl) (n : Nat) (f : Nat → Nat → Nat → Fl) : Prop :=
  ∀ b, fl.getLsbD b = true ↔ ∃ k i j, k < n ∧ i < 64 ∧ j < 64 ∧ (f k i j).getLsbD b = true

/-- The accumulators hold the given elements, those of the tiles written are clean, and nothing else of the workgroup has changed but that its sequencer has passed. -/
def AccWritten (wg : Wg) (r : SeqRun) (written : Nat → Prop) (f : Nat → Nat → Nat → W32) : Prop :=
  wg = { r.wg with acc := wg.acc, accPoison := wg.accPoison, seq := some (seqPassed r.q) } ∧
    (∀ n i j, i < 64 → j < 64 → (written n → wg.accAt n i j = f n i j) ∧ (¬ written n → wg.accAt n i j = r.wg.accAt n i j)) ∧
    ∀ k, k ∈ wg.accPoison ↔ k ∈ r.wg.accPoison ∧ ¬ written (k / 4096)

/-- No element of these tiles is poisoned. -/
def AccClean (r : SeqRun) (used : Nat → Prop) : Prop := ∀ k ∈ r.wg.accPoison, ¬ used (k / 4096)

/-- A tile of scratch that a stream word may read: named below TILEN, with a range, READY (R174). -/
def Named (r : SeqRun) (ta : BitVec 6) (t : Tile) : Prop :=
  ta.toNat < r.g.tilen ∧ Tab.look r.wg.tiles ta.toNat = some t ∧ t.count ≠ 0 ∧ t.st = .ready

/-- An image of rows rows under a slot can be read: the tile holds it, the format has planes, the scale bytes are in scratch, and no word of it is poisoned (R185, R186, R357). -/
def ImageReads (r : SeqRun) (f : Slot) (t : Tile) (rows : Nat) : Prop :=
  4096 * (f.planes - 1) + 16 * rows ≤ 512 * t.count ∧ f.noPlanes = false ∧
    (∀ i b, i < rows → b < 4 → scaleAt f t.base i b < r.g.scrBytes ∧ scaleAt f t.base i b / 8 ∉ r.wg.scrPoison) ∧
    ∀ p i, p < f.planes → i < rows → ∀ y, y < 2 → (t.base + 4096 * p + 16 * i + 8 * y) / 8 ∉ r.wg.scrPoison

/-- Element k of row i of an image in scratch: bit k of row i of plane p has weight 2^p, that of the last plane minus it (R185). -/
def planeElem (r : SeqRun) (f : Slot) (t : Tile) (i k : Nat) : Int :=
  let bit := fun p => (Tab.get 0 r.wg.scratch (t.base + 4096 * p + 16 * i + k / 8)).getLsbD (k % 8)
  ((List.range f.planes).map (fun p => if bit p then (if p + 1 = f.planes then -(2 ^ p : Int) else 2 ^ p) else 0)).sum

/-- The exact sum of a block's products of MMA.P (R189). -/
def blockDot (r : SeqRun) (f : Slot) (t : Tile) (l : Latch) (i j b : Nat) : Int :=
  ((List.range 32).map (fun k => planeElem r f t i (32 * b + k) * Tab.get 0 l.ints (128 * j + 32 * b + k))).sum

/-- The blocks below n accumulated in ascending order, in FP32 mode (R189). -/
def accumFp (r : SeqRun) (f : Slot) (t : Tile) (l : Latch) (x0 : W32) (i j : Nat) : Nat → Nat × Fl
  | 0 => (x0.toNat, 0)
  | b + 1 =>
    let x := accumFp r f t l x0 i j b
    let y := mmaFp f.sat (Tab.get 0 r.wg.scratch (scaleAt f t.base i b)).toNat (Tab.get 0 l.scale (4 * j + b)).toNat (blockDot r f t l i j b) x.1
    (y.1, x.2 ||| y.2)

/-- The same in WFX96 mode. -/
def accumWfx (r : SeqRun) (f : Slot) (t : Tile) (l : Latch) (lam : Nat) (v0 : Int) (i j : Nat) : Nat → Int × Fl
  | 0 => (v0, 0)
  | b + 1 =>
    let x := accumWfx r f t l lam v0 i j b
    let y := mmaWfx lam (Tab.get 0 r.wg.scratch (scaleAt f t.base i b)).toNat (Tab.get 0 l.scale (4 * j + b)).toNat (blockDot r f t l i j b) x.1
    (y.1, x.2 ||| y.2)

/-- The address of an ACCST or ACCLD (R193). -/
def accSite (r : SeqRun) (ss : BitVec 6) (imm : BitVec 14) : Nat := (((sregOf r.q.s ss.toNat).toNat + imm.toInt) % 2 ^ 64).toNat

/-- The tiles that a word on accumulator n in a mode reads or writes. -/
def accTiles (m : AccMode) (n : Nat) : Nat → Prop := fun k => if m.isFp32 then k = n else n ≤ k ∧ k < n + 3

/-- Bytes 0 to z - 1 of a number, the lowest first. -/
def leBytes (z x : Nat) : List Byte := (List.range z).map (fun j => BitVec.ofNat 8 (x / 256 ^ j))

/-- The number that z bytes of scratch hold. -/
def scrNat (r : SeqRun) (a z : Nat) : Nat := bytesToNat (readBytes r.wg.scratch a z)

/-- An entry of ACCQ: row e / 2, columns 32 (e mod 2) to 32 (e mod 2) + 31, in FP32 (R194). -/
def queued (r : SeqRun) (n e l : Nat) : Nat :=
  let m := r.wg.mode n
  let j := 32 * (e % 2) + l
  if m.isFp32 then (r.wg.accAt n (e / 2) j).toNat else (fromWfx fp32 .rn false m.lam (r.wg.tripleAt n (e / 2) j)).1

/-- The flags of that element. -/
def queuedFl (r : SeqRun) (n e l : Nat) : Fl :=
  let m := r.wg.mode n
  if m.isFp32 then 0 else (fromWfx fp32 .rn false m.lam (r.wg.tripleAt n (e / 2) (32 * (e % 2) + l))).2

/-- After a load, the tiles loaded are in the new mode, the other tiles of any triple of theirs are in FP32 mode, and no other mode has changed (R193). -/
def ModesAfter (wg : Wg) (r : SeqRun) (loaded : Nat → Prop) (m : AccMode) : Prop :=
  let broken := fun k => ∃ i first lam, loaded i ∧ r.wg.mode i = .wfx first lam ∧ first ≤ k ∧ k ≤ first + 2
  ∀ k, (loaded k → wg.mode k = m) ∧ (¬ loaded k → broken k → wg.mode k = .fp32) ∧ (¬ loaded k → ¬ broken k → wg.mode k = r.wg.mode k)

end Sys2Proof.Claims
end

