-- ==== Sys2Proof/Certificates/Slice0/Events.lean ====
section
/-! DEFINITION. What the statements say of events: clause starts, completions, accesses performed, and the other things that happen after a word has issued. -/

namespace Sys2Proof.Claims

open Sys2Proof.Machine

/-! Clause starts (R22, R300, R301). -/

/-- No warp holds the slice, and its warps stand where they may be chosen: none is stopped by a debugger, and none that would start a pair has a faulty arrival, a page to bring near or a line to fetch. -/
def Standing (s : State) (core slice : Nat) : Prop :=
  slice < 4 ∧ s.holder core slice = none ∧ (s.onSlice core slice).Nodup ∧
  ∀ k ∈ s.onSlice core slice, ∀ v, s.view k = some v → v.w.resumed = none → v.cl.st = .resident →
    v.w.dbg ≠ .stopped ∧ v.g.stopped = false ∧
    (v.w.frozen = none → ∀ g ∈ v.w.ordered.take 2, ∃ c n e, s.startOf v.wg.core v.g.ctx g = .go c n e)

/-- A warp whose pair starts with split A, and split B where one joins: threads at a header are inside its clause, and the count of choices lost is zero (R300, R301). -/
def started (w : Warp) (a : Group × ClauseCtx × Bool) (b : Option (Group × ClauseCtx × Bool)) : Warp :=
  let x := w.enter a.1 a.2.1 a.2.2
  let y := match b with
    | some q => x.enter q.1 q.2.1 q.2.2
    | none => x
  { y with elig := 0, pair := some { a := a.1.mask, b := match b with | some q => q.1.mask | none => 0, turnB := false } }

/-! Completion (R28, R80, R139). -/

/-- A loaded value in register k of its destination: sign-extended for S8 and S16, else zero-extended, the lowest word first (R139). -/
def loadedWord (w : Width) (bs : List Byte) (k : Nat) : W32 :=
  let x := bytesToNat bs
  match w with
  | .s8 => BitVec.ofInt 32 (BitVec.ofNat 8 x).toInt
  | .s16 => BitVec.ofInt 32 (BitVec.ofNat 16 x).toInt
  | _ => BitVec.ofNat 32 (x / 2 ^ (32 * k))

/-- Results still hidden, once lanes m of n registers from d on hold a newer value (R82). -/
def notHidden (hs : List Hazard) (m : Mask) (d n : Nat) : List Hazard :=
  hs.filterMap (fun z => match z.reg with
    | .v r => if d ≤ r ∧ r < d + n then (if z.lanes &&& ~~~m = 0 then none else some { z with lanes := z.lanes &&& ~~~m }) else some z
    | _ => some z)

/-- Lanes m of an operation have completed: the registers n from d on hold the results and are not poisoned, the flags of the results have been set, the operation's counter falls with its last lane, and nothing else has changed; then the workgroup's collectives are looked at. -/
def LanesDone (e : Host.Outcome State Fault Refusal) (s : State) (op : Nat) (o : Op) (w : Warp) (m : Mask) (d n : Nat) (x : Nat → Nat → W32) (fl : Nat → Fl) : Prop :=
  ∃ (w' : Warp) (ops : Tab Op),
    e = .next (({ s with warps := Tab.put s.warps o.warp w', ops := ops } : State).settleWg (o.warp / 32)) ∧
    w' = { w with v := w'.v, vPoison := w'.vPoison, flags := w'.flags, fpflags := w'.fpflags, hazards := notHidden w.hazards m d n } ∧
    (∀ r l, l < 32 → w'.vreg r l = if inMask m l = true ∧ d ≤ r ∧ r < d + n then x (r - d) l else w.vreg r l) ∧
    (∀ r l, l < 32 → (32 * r + l ∈ w'.vPoison ↔ 32 * r + l ∈ w.vPoison ∧ ¬ (inMask m l = true ∧ d ≤ r ∧ r < d + n))) ∧
    (∀ b, w'.fpflags.getLsbD b = true ↔ w.fpflags.getLsbD b = true ∨ ∃ l, inMask m l = true ∧ (fl l).getLsbD b = true) ∧
    (∀ f, w'.flag f = w.flag f - (if o.left &&& ~~~m = 0 ∧ o.counted = true ∧ o.flag = some f then 1 else 0)) ∧
    ops = if o.left &&& ~~~m = 0 then Tab.del s.ops op else Tab.put s.ops op { o with left := o.left &&& ~~~m, counted := o.counted }

/-- An ordering operation has completed with all its lanes: its counter has fallen, it is gone, and a split held at its word goes on (R28, R80). -/
def finished (s : State) (op : Nat) (o : Op) : State :=
  let u := if o.counted then s.modWarp o.warp (fun w => w.lowerFlag o.flag) else s
  (State.unholdAll { u with ops := Tab.del u.ops op } op o.warp).settleWg (o.warp / 32)

/-! Accesses performed (R28, R132, R136). -/

/-- After access idx has been performed with a result: it is done, a split held for the word's accesses goes on when all are done, and the operation is gone when no result of it is still to come either. -/
def performed (t : State) (op idx : Nat) (o : Op) (res : List Byte) : State :=
  let o' := { o with accs := o.accs.mapIdx (fun j b => if j = idx then { b with done := true, res := res } else b) }
  let u : State := { t with ops := Tab.put t.ops op o' }
  let u := if o'.accs.all Access.done then u.unholdAll op o.warp else u
  let u := if o'.left = 0 ∧ o'.accs.all Access.done = true then { u with ops := Tab.del u.ops op } else u
  u.settleWg (o.warp / 32)

/-- Access idx of an operation may be performed now, in its space (R136, R154, R243). -/
def MayPerform (s : State) (op idx : Nat) (o : Op) (a : Access) : Prop :=
  Tab.look s.ops op = some o ∧ o.accs[idx]? = some a ∧ a.done = false ∧ s.mayPerform op o idx a = true

/-- With access idx performed, the operation's performed accesses cover every byte of the unit of n bytes that holds the access (R356). -/
def Covers (o : Op) (idx n : Nat) (a : Access) : Prop :=
  ∀ i, i < n → ∃ j b, o.accs[j]? = some b ∧ (b.done = true ∨ j = idx) ∧ b.pa ≤ a.pa / n * n + i ∧ a.pa / n * n + i < b.pa + b.size

/-- The state in which the core's L1 holds no copy of the sector and its cluster unit no byte of it, before an access of another level. -/
def settledFor (s : State) (core c key : Nat) : State := (s.settleUnit core c key).dropL1 core (· == tagOf c key)

/-! Quota transfers (R213, R214). -/

/-- Every live thread of a workgroup without sub-teams has arrived at barrier n and waits there, and nothing of the workgroup is still to be performed: one transfer is pending, of a warp with a live thread, and no counter of its two warps still has to fall (R158, R213, R214). -/
def TransferDue (s : State) (wg n warp : Nat) (q : Regq) : Prop :=
  (∃ (x : Wg) (cl : Cluster), Tab.look s.wgs wg = some x ∧ Tab.look s.clusters (wg / 8) = some cl ∧ ∀ e ∈ x.teams, e.2.st = .active ∧ e.2.parent = none) ∧
  (∀ j a l, Tab.look s.warps j = some a → j / 32 = wg → (a.thread l).live = true → (a.thread l).st = .parked (.bar n) ∧ (a.thread l).arrived = 1#32 <<< n) ∧
  (∃ a l, Tab.look s.warps warp = some a ∧ l < 32 ∧ (a.thread l).live = true) ∧ (s.warps.map (·.1)).Nodup ∧
  (∀ e ∈ s.ops, e.2.warp / 32 = wg → ∀ a ∈ e.2.accs, a.done = true) ∧
  warp / 32 = wg ∧ (∀ j a, Tab.look s.warps j = some a → j / 32 = wg → a.regq = if j = warp then some q else none) ∧
  q.w1 < 32 ∧ q.w2 < 32 ∧ q.w1 ≠ q.w2 ∧ s.idleFlags (32 * wg + q.w1) = true ∧ s.idleFlags (32 * wg + q.w2) = true ∧
  ∃ a b : Warp, Tab.look s.warps (32 * wg + q.w1) = some a ∧ Tab.look s.warps (32 * wg + q.w2) = some b ∧ 8 * q.k ≤ a.quota

/-- A warp of the workgroup after the barrier has completed with its transfer: its live threads have gone on and owe nothing, the first warp has lost its highest registers, and the second has gained as many, which read zero (R158, R159, R214). -/
def Transferred (a a' : Warp) (n : Nat) (first second : Bool) (k : Nat) : Prop :=
  a'.regq = none ∧ a'.quota = (if first then a.quota - k else if second then a.quota + k else a.quota) ∧
  (∀ r l, l < 32 → a'.vreg r l = if (first = true ∧ a.quota - k ≤ r ∧ r < a.quota) ∨ (second = true ∧ a.quota ≤ r ∧ r < a.quota + k) then 0 else a.vreg r l) ∧
  ∀ l, l < 32 → (a.thread l).live = true → a'.thread l = { (a.thread l).pass.wake with
    again := false, arrived := (a.thread l).arrived &&& ~~~(1#32 <<< n), owed := (a.thread l).owed &&& ~~~(1#32 <<< n) }

/-! The save (R165, R350-R352). -/

/-- A thread whose wait the save withdraws stands at its word, ready to issue it again; it keeps the arrivals it has made at a barrier, which its BAR then does not make again; arrivals at collectives, records and breakpoints stay (R131, R165). -/
def withdrawn (t : Thread) : Thread :=
  match t.st with
  | .parked .tbar => t
  | .parked .tcall => t
  | .parked .tret => t
  | .parked .rejoin => t
  | .parked .brk => t
  | .parked (.record _) => t
  | .parked (.bar n) => { t with st := .ready, again := t.arrived.getLsbD n && !t.owed.getLsbD n }
  | .parked _ => { t with st := .ready }
  | .ready => t
  | .exited => t
  | .absent => t

/-- Words of a warp that stand in flight and have raised a flag. -/
def raisedBy (s : State) (warp f : Nat) : Nat :=
  s.ops.countP (fun e => e.2.warp == warp && e.2.counted && e.2.flag == some f)

/-- Step 1 of R350 has been made: the waits of the cluster's warps are withdrawn with their monitors, but for those of a cluster that is swapped out, and their counters fall; each warp of the cluster has no pair and no result still to come, and is no longer marked; nothing else has changed. -/
def SaveBegun (t s : State) (cluster : Nat) (cl : Cluster) (swap : Bool) : Prop :=
  (∃ (ops : Tab Op) (mons : Tab Mon) (warps : Tab Warp) (cur : Option Issuer),
    t = { s with ops := ops, mons := mons, warps := warps, cur := cur,
                 clusters := Tab.put s.clusters cluster { cl with st := .saving, marked := false, swapped := swap } }) ∧
  t.ops = s.ops.filter (fun e => decide (e.2.warp / 256 ≠ cluster)) ∧
  t.mons = (if swap then s.mons else s.mons.filter (fun e => decide (e.2.warp / 256 ≠ cluster))) ∧
  ∀ j, Tab.look t.warps j = (Tab.look s.warps j).map (fun w => if j / 256 = cluster then
    { w with threads := w.threads.mapIdx (fun l x => if l < 32 then withdrawn x else x), flags := ((Tab.look t.warps j).map (·.flags)).getD []
             pair := none, coS := none, frozen := none, marked := false, saved := false, hazards := []
             watched := (s.mons.filter (fun m => m.2.warp == j && !m.2.scr)).map (fun m => m.2.key) } else w) ∧
  ∀ w w', j / 256 = cluster → Tab.look s.warps j = some w → Tab.look t.warps j = some w' → ∀ f, w'.flag f = w.flag f - raisedBy s j f

/-- Step 3 of R350 has been made: the cluster's cores hold no L1 copy of the context, its cluster unit no byte, and the die no T sector of it; what a sector had that its twin had not is in a packet on its way to its home. Memory, threads, workgroups and operations stand. -/
def SaveReleased (t s : State) (cluster : Nat) (cl : Cluster) (c : Nat) : Prop :=
  t.mem = s.mem ∧ t.warps = s.warps ∧ t.wgs = s.wgs ∧ t.ops = s.ops ∧ t.grids = s.grids ∧ t.copies = s.copies ∧
  t.clusters = Tab.put s.clusters cluster { cl with st := .releasing } ∧
  (∀ e ∈ s.wgs, e.1 / 8 = cluster → ∀ x ∈ (t.coreAt e.2.core).l1, tagCtx x.1 ≠ c) ∧
  (cl.group ≤ 2 → ∀ b ∈ Tab.get [] (t.dieAt cl.die).units cl.group, tagCtx b.1 ≠ c) ∧
  (∀ tag x, Tab.look (t.dieAt cl.die).l2 tag = some x → tagCtx tag = c → x.twin = none) ∧
  ((∀ b ∈ Tab.get [] (s.dieAt cl.die).units cl.group, tagCtx b.1 ≠ c) → cl.group ≤ 2 →
    ∀ tag x tw, Tab.look (s.dieAt cl.die).l2 tag = some x → tagCtx tag = c → x.twin = some tw → x.poison = false → diffRuns 0 x.data tw ≠ [] →
      ∃ id p, Tab.look t.pkts id = some p ∧ p.die = cl.die ∧ p.ctx = c ∧ p.sector = tagSector tag ∧ p.seq = (s.seqOf cl.die c).toNat ∧
        p.runs = diffRuns 0 x.data tw ∧ p.applied = false)

/-- What the save writes for a workgroup, as addresses and bytes (R351): scratch, accumulators by tile and row, tiles, the words of the queues, and each warp's registers below its live count, one register as 32 words in lane order. What R351 gives no layout holds free bytes, named by their place in the frame. -/
def imageOf (s : State) (g : Grid) (cl : Cluster) (free : Nat → Byte) (key : Nat) (wg : Wg) : List (Nat × List Byte) :=
  let base := cl.frame + 256 + wg.wgid * g.sectionBytes
  let acc := base + 512 + g.scrBytes
  let tiles := acc + 16384 * g.accn
  let teams := tiles + 32 * g.tilen
  let qs := teams + 64 * g.teamn
  let seq := qs + 18432
  let ws := seq + (if g.mstream = 0 then 0 else 26624)
  let any := fun a n => (a, (List.range n).map (fun i => free (a - cl.frame + i)))
  let words := fun (t : Tab W32) n => (List.range n).flatMap (fun i => natToBytes 4 (Tab.get 0 t i).toNat)
  let warpAt := fun wid => ws + (((s.warpsOf key).filter (fun e => decide (e.2.wid < wid))).map (fun e => 1024 + 128 * e.2.quota)).sum
  let state := fun (st : TileSt) => match st with | .empty => 0 | .filling => 1 | .ready => 2 | .draining => 3
  [any base 512, (base + 512, readBytes wg.scratch 0 g.scrBytes), (acc, words wg.acc (4096 * g.accn))] ++
    wg.tiles.map (fun t => (tiles + 32 * t.1, natToBytes 8 (t.2.count * 2 ^ 56 + state t.2.st * 2 ^ 54 + t.2.base) ++ natToBytes 8 0 ++ natToBytes 16 t.2.bits.toNat)) ++
    [any teams (64 * g.teamn), (qs, wg.qa.flatMap (fun q => words q.words 32)), (qs + 16384, wg.qm.flatMap (fun q => words q.words 32))] ++
    (if g.mstream = 0 then [] else [any seq 26624]) ++
    (s.warpsOf key).map (fun e => any (warpAt e.2.wid) 1024) ++
    (s.warpsOf key).map (fun e => (warpAt e.2.wid + 1024, words e.2.v (32 * min e.2.liveK e.2.quota)))

/-- The frame of a cluster written, workgroup by workgroup. -/
def frameWritten (s : State) (cluster : Nat) (cl : Cluster) (g : Grid) (free : Nat → Nat → Byte) : State :=
  ((s.wgs.filter (fun e => decide (e.1 / 8 = cluster))).flatMap (fun e => imageOf s g cl (free e.1) e.1 e.2)).foldl (fun u p => u.unitPut g.ctx p.1 p.2) s

/-- The remap entries that a saved cluster takes: one for each tile being filled, from its range of scratch to the image of it in the frame (R352). -/
def remapsOf (s : State) (cluster : Nat) (cl : Cluster) (g : Grid) : List Remap :=
  (s.wgs.filter (fun e => decide (e.1 / 8 = cluster))).flatMap (fun e =>
    (e.2.tiles.filter (fun t => t.2.st == .filling)).map (fun t =>
      let base := cl.frame + 256 + e.2.wgid * g.sectionBytes
      { cluster := cluster, wg := e.2.wgid, frame := base + 512 + t.2.base, img := base + 512 + g.scrBytes + 16384 * g.accn + 32 * t.1
        count := t.2.count, tile := t.1, scrb := t.2.base }))

/-- Steps 4 and 5 of R350 have been made: the frame is written, the remap entries are taken, the cluster's records have left the cores' queues and its cores are free of it; it is offered again, or kept until a monitor's word is written (R314). -/
def SaveEnded (t s : State) (cluster : Nat) (cl : Cluster) (g : Grid) : Prop :=
  (∃ free : Nat → Nat → Byte,
    let u := frameWritten s cluster cl g free
    let ours := fun id => s.recs.any (fun e => e.1 == id && decide (e.2.wgKey / 8 = cluster))
    t = { u.setCtx g.ctx { u.ctxAt g.ctx with remaps := (s.ctxAt g.ctx).remaps ++ remapsOf s cluster cl g } with
      recs := s.recs.map (fun e => if ours e.1 = true then (e.1, { e.2 with queued := false }) else e)
      cores := s.cores.map (fun e => (e.1, { e.2 with queue := e.2.queue.filter (fun i => !ours i) }))
      grids := Tab.mod s.grids cl.grid (fun g => { g with since := s.clock.toNat })
      clusters := Tab.put s.clusters cluster { cl with st := if cl.swapped then .saved else .offered, offeredAt := s.clock.toNat }
      dies := u.dies.map (fun e => (e.1, { e.2 with idle := [] })) }) ∧
  (∀ core slice, ∀ k ∈ t.onSlice core slice, k / 256 ≠ cluster) ∧
  ∀ core e, e ∈ t.wgs → e.1 / 8 = cluster → t.onCore core e = false

/-! Failures (R237, R355-R363). -/

/-- Every grid of a context ends with code 11 (R294). -/
def ctxEnded (s : State) (c : Nat) : State := (s.grids.filter (fun e => decide (e.2.ctx = c))).foldl (fun u e => State.endGrid u e.1 11 0) s

/-- Every context of a partition has been aborted, and what it had on the mesh is gone (R14, R359). -/
def partEnded (s : State) (n : Nat) : State :=
  let mine := (s.ctxs.filter (fun e => decide (e.2.part.toNat = n))).map (·.1)
  let t := mine.foldl ctxEnded s
  { t with pkts := t.pkts.filter (fun e => e.2.applied || !decide (e.2.ctx ∈ mine)) }

/-- A lost cluster of a restartable grid that has published nothing: it is gone from the die and offered again, as one that has never run (R361, R362). -/
def offeredAnew (s : State) (key : Nat) (cl : Cluster) : State :=
  let t := s.removeClusters (fun k => decide (k = key))
  { t with grids := Tab.mod t.grids cl.grid (fun g => { g with
      again := g.again ++ [cl.clid], since := s.clock.toNat, frames := g.frames.filter (fun f => decide (f.1 ≠ cl.frame)) }) }

/-- A die has been fenced (R361): nothing is left of what its cores, its L2 and its handoffs held, and Firefly counts it; copies out of its lost clusters' tiles go on from what the tiles held; a lost cluster runs again, or its context ends. -/
def dieLost (s : State) (d : Nat) : State :=
  if (s.dieAt d).fenced then s else
    let old := s.dieAt d
    let here := s.clusters.filter (fun e => e.2.die == d && e.2.st.onCore)
    let again := fun (c : Cluster) => !c.published && (match Tab.look s.grids c.grid with | some g => g.restart | none => false)
    let u : State := { s.setDie d { Die.reset with fenced := true, seqs := old.seqs, lastSeen := old.lastSeen } with
      dca := s.dca.filter (fun e => !old.pool.any (fun x => x.1 == e.1 && x.2.st == .m))
      cores := s.cores.map (fun e => if e.1 / 24 = d then (e.1, Core.reset) else e)
      handoffs := s.handoffs.filter (fun e => e.2.die != d)
      firefly := { s.firefly with cdlost := s.firefly.cdlost + 1, repl := true, overLoss := s.firefly.overLoss || decide (2 ≤ (s.firefly.cdlost + 1).toNat) } }
    let u : State := { u with copies := u.copies.map (fun e =>
      if here.any (fun x => x.1 == e.2.cluster) && e.2.srcTile.isSome && e.2.dstTile.isNone then (e.1, { e.2 with image := u.srcScratch e.2, srcTile := none }) else e) }
    let u := (here.filter (fun e => again e.2)).foldl (fun v e => offeredAnew v e.1 e.2) u
    (sortNats (here.filterMap (fun e => if again e.2 then none else (Tab.look s.grids e.2.grid).map Grid.ctx))).foldl ctxEnded u

/-- A participant's value as the root adds it: converted once at its source, with the flags of that conversion; a participant that has failed gives none (R237). -/
def given (f : Slot) : Contribution → Option (Int × Fl)
  | .wfx x => some (wfxOfBits x.toNat, 0)
  | .fp32 x => some (toWfx f.shift (fp32.decode x.toNat).exact)
  | .fp64 x => some (toWfx f.shift (fp64.decode x.toNat).exact)
  | .failed => none

/-- Every participant's status word of a reduction has been written (R363). -/
def told (s : State) (r : Reduction) (x : Nat) : State := r.status.foldl (fun u k => u.portWrite k (natToBytes 8 x)) s

/-- A reduction has completed: the root has converted the sum and written it, and then every status word: bit 0, SAT in bit 2, NV in bit 3 (R237, R363). -/
def reduced (s : State) (red : Nat) (r : Reduction) : State :=
  let f := { slotOf r.slot with fmt := r.fmt.toNat }
  let v := wfxOfBits r.sum.toNat
  let out := f.ofTriple (slotOf r.slot).shift v
  let isInt := (f.type.bind intType).isSome
  let sat := r.sat || (out.2 &&& flSAT) != 0 || (isInt && v != wfxInvalid && (out.2 &&& flNV) != 0)
  told { s.portWrite r.dst (natToBytes ((f.type.map typeBytes).getD 12) out.1) with reductions := Tab.put s.reductions red { r with res := 1, sat := sat } } r
    (1 + (if sat then 4 else 0) + (if v == wfxInvalid then 8 else 0))

end Sys2Proof.Claims
end

