-- ==== Sys2Proof/Certificates/Slice0/Obligations.lean ====
section
/-! DEFINITION. The statements about the model. -/

open Sys2Proof Sys2Proof.Machine Sys2Proof.Claims

/-! Results of words that write at once. -/

/-- The scalar operations, QSTAT and TSTAT write their result to the named scalar once for the split, and nothing else (R48, R98, R100, R128, R205). The scalar operations have the OPs that R100 lists. -/
def Obligations.ScalarResults : Prop :=
  (∀ (i : Instr) (h : Head) (d : BitVec 6) (x : W64) (s : State) (v : View),
    scalarRow v i = some (h, d, x) → Ready i h Pre.none s v → WroteScalar (exec i s) s v h d x) ∧
  (∀ (w : W64) (i : Instr) (op : Nat), decode w = some i → scalarOpcode i = some op → wOp w = op)

/-- The vector integer operations write their results to the enabled threads' registers or to qm, and nothing else (R98, R101, R204). -/
def Obligations.IntResults : Prop :=
  ∀ (i : Instr) (row : ValueRow) (s : State) (v : View), intRow i = some row → ValueReady i row s v → WroteValues (exec i s) s v row

/-- The FP32 operations (R103, R104). -/
def Obligations.Fp32Results : Prop :=
  ∀ (i : Instr) (row : ValueRow) (s : State) (v : View), fp32Row i = some row → ValueReady i row s v → WroteValues (exec i s) s v row

/-- The FP64 operations (R105). -/
def Obligations.Fp64Results : Prop :=
  ∀ (i : Instr) (row : ValueRow) (s : State) (v : View), fp64Row i = some row → ValueReady i row s v → WroteValues (exec i s) s v row

/-- The packed 16-bit operations (R106). -/
def Obligations.PackedResults : Prop :=
  ∀ (i : Instr) (row : ValueRow) (s : State) (v : View), packedRow i = some row → ValueReady i row s v → WroteValues (exec i s) s v row

/-- Compares and predicate combinations (R109-R111). -/
def Obligations.PredResults : Prop :=
  ∀ (i : Instr) (row : ValueRow) (s : State) (v : View), predRow i = some row → ValueReady i row s v → WroteValues (exec i s) s v row

/-- MFSR gives each enabled thread, or once a scalar, the value of an assigned special register; MTSR of fpflags sets them (R67, R211, R212). -/
def Obligations.SpecialRegisters : Prop :=
  (∀ (h : Head) (rd sel : BitVec 8) (s : State) (v : View),
    (Instr.mfsr h (.v rd) sel).wf = true → assigned sel →
    Ready (.mfsr h (.v rd) sel) h { Pre.none with regs := dstRegs (mfsrDst sel rd) } s v →
    Wrote (exec (.mfsr h (.v rd) sel) s) s v h 1 (mfsrDst sel rd) false (fun l => (specialOf s v h sel l, 0))) ∧
  (∀ (h : Head) (sd : BitVec 6) (sel : BitVec 8) (s : State) (v : View),
    assigned sel → Ready (.mfsr h (.s sd) sel) h Pre.none s v →
    WroteScalar (exec (.mfsr h (.s sd) sel) s) s v h sd (specialOf s v h sel (lowLane (enabled v h)))) ∧
  (∀ (h : Head) (a : Src) (s : State) (v : View),
    Ready (.mtsr h 0x0D#8 a) h { Pre.none with regs := opndRegs (.r32 a) } s v →
    (∀ r ∈ opndRegs (.r32 a), 32 * r + lowLane (enabled v h) ∉ v.w.vPoison) →
    exec (.mtsr h 0x0D#8 a) s = .next (after s v { passed v h with
      fpflags := BitVec.ofNat 6 (operand v (lowLane (enabled v h)) (.r32 a)).toNat }))

/-! Results in flight. -/

/-- The SFU operations, FRND and CVT are in flight with their results (R107, R108, R202, R203). -/
def Obligations.SfuResults : Prop :=
  ∀ (i : Instr) (row : LongRow) (s : State) (v : View),
    sfuRow v i = some row → Ready i row.head row.pre s v → row.clean → LaunchedResults (exec i s) s v row

/-- PACK4 and UNPACK4 (R200, R201). -/
def Obligations.BlockResults : Prop :=
  ∀ (i : Instr) (row : LongRow) (s : State) (v : View),
    blockRow v i = some row → Ready i row.head row.pre s v → row.clean → LaunchedResults (exec i s) s v row

/-- Shuffles, votes, scans, reductions over lanes and CTEST of a tile (R112-R116, R178). -/
def Obligations.ExchangeResults : Prop :=
  ∀ (i : Instr) (row : LongRow) (s : State) (v : View),
    exchangeRow v i = some row → Ready i row.head row.pre s v → row.clean → LaunchedResults (exec i s) s v row

/-- Loads, stores, atomics and reductions: one access for each enabled thread goes to the memory pipe (R51, R133, R138-R142, R147). Which fault a thread takes first where several hold is no part of it (log 18). -/
def Obligations.MemoryWords : Prop :=
  ∀ (i : Instr) (row : MemRow) (s : State) (v : View) (at_ : Nat → Nat × Nat),
    i.wf = true → memRow v i = some row → Ready i row.head (Pre.long row.fsel row.regs) s v → Clean v row.head row.reads → row.Passes s v at_ →
    LaunchedAccesses (exec i s) s v row.head row.fsel row.kind row.sc row.space (row.accs s v at_) s.wgs

/-- Private loads and stores go to the thread's own words (R335). -/
def Obligations.PrivateWords : Prop :=
  ∀ (h : Head) (fsel : Bool) (w : Width) (d : BitVec 8) (m : MemOp) (s : State) (v : View) (at_ : Nat → Nat → Nat × Nat),
    (Ready (.ldPrv h fsel w d m) h (Pre.long fsel (groupRegs d w.regs ++ indexRegs m.idx)) s v → Clean v h (indexRegs m.idx) →
      PrivatePasses s v h .read w m at_ →
      LaunchedAccesses (exec (.ldPrv h fsel w d m) s) s v h fsel (.load w d.toNat) .th .prv (privateAccs s v h w at_ (fun _ => [])) s.wgs) ∧
    ((Instr.stPrv h fsel w d m).wf = true →
      Ready (.stPrv h fsel w d m) h (Pre.long fsel (groupRegs d w.regs ++ indexRegs m.idx)) s v →
      Clean v h (groupRegs d w.regs ++ indexRegs m.idx) → PrivatePasses s v h .write w m at_ →
      LaunchedAccesses (exec (.stPrv h fsel w d m) s) s v h fsel .store .th .prv (privateAccs s v h w at_ (regBytes v d.toNat w.bytes)) s.wgs)

/-- LDS, CTEST of memory, PACKP and UNPACKP: accesses made once for the split (R133, R141, R178, R198, R199). -/
def Obligations.OnceWords : Prop :=
  (∀ (h : Head) (fsel : Bool) (sc : Scope) (sd base : BitVec 6) (off : BitVec 16) (s : State) (v : View) (key va : Nat),
    Ready (.lds h fsel sc sd base off) h (Pre.long fsel []) s v →
    (Run.of s v h).globalSite .read sc true (onceAddr v base off) 8 = .ok key va →
    LaunchedAccesses (exec (.lds h fsel sc sd base off) s) s v h fsel (.lds sd.toNat) sc .glob [access s v 32 va key 8 [] []] s.wgs) ∧
  (∀ (h : Head) (fsel : Bool) (sd ms base : BitVec 6) (off : BitVec 16) (s : State) (v : View) (key va : Nat),
    Ready (.ctest h fsel sd ms base off) h (Pre.long fsel []) s v →
    (Run.of s v h).monSite .dev (onceAddr v base off) 8 = .ok key va →
    LaunchedAccesses (exec (.ctest h fsel sd ms base off) s) s v h fsel (.ctest sd.toNat (scalarOf v ms)) .dev .glob [access s v 32 va key 8 [] []] s.wgs) ∧
  (∀ (h : Head) (fsel : Bool) (a : Src) (ss : BitVec 6) (fs : BitVec 3) (row : BitVec 8) (s : State) (v : View),
    let f := slotOf (v.g.slotWord fs.toNat)
    let b := (scalarOf v ss).toNat
    Ready (.packp h fsel a ss fs row) h { Pre.long fsel (opndRegs (.r32 a)) with pop := pops [.r32 a] } s v →
    Clean v h (opndRegs (.r32 a)) →
    PlanesReached v f b row.toNat (if f.isBlock then (planeSites f b row.toNat).take 1 else []) →
    LaunchedAccesses (exec (.packp h fsel a ss fs row) s) s v h fsel (.pack (v.g.slotWord fs.toNat) (elements v h a)) .wg .scr
      (planeAccs s v f b row.toNat) (queues s v (pops [.r32 a]) none)) ∧
  (∀ (h : Head) (fsel : Bool) (d : BitVec 8) (ss : BitVec 6) (fs : BitVec 3) (row : BitVec 8) (s : State) (v : View),
    let f := slotOf (v.g.slotWord fs.toNat)
    let b := (scalarOf v ss).toNat
    Ready (.unpackp h fsel d ss fs row) h (Pre.long fsel [d.toNat]) s v →
    PlanesReached v f b row.toNat (planeSites f b row.toNat) →
    LaunchedAccesses (exec (.unpackp h fsel d ss fs row) s) s v h fsel (.unpack (v.g.slotWord fs.toNat) d.toNat) .wg .scr
      (planeAccs s v f b row.toNat) s.wgs)

/-! Control. -/

/-- NOP and IPF only pass; BRA, BNZ and BZ move the enabled threads to their target where the condition holds; CALL and RET (R117, R118, R120, R210). -/
def Obligations.ControlWords : Prop :=
  (∀ (h : Head) (s : State) (v : View), Ready (.nop h) h Pre.none s v → exec (.nop h) s = .next (after s v (passed v h))) ∧
  (∀ (h : Head) (base : BitVec 6) (off : BitVec 16) (n : BitVec 8) (s : State) (v : View),
    Ready (.ipf h base off n) h Pre.none s v → exec (.ipf h base off n) s = .next (after s v (passed v h))) ∧
  (∀ (h : Head) (off : BitVec 32) (s : State) (v : View), Ready (.bra h off) h Pre.none s v →
    exec (.bra h off) s = .next (after s v (jumped v h (branchHazards v h) (fun _ => target v off)))) ∧
  (∀ (h : Head) (sc : BitVec 6) (off : BitVec 32) (s : State) (v : View), Ready (.bnz h sc off) h Pre.none s v →
    exec (.bnz h sc off) s = .next (after s v
      (if scalarOf v sc = 0 then passed v h else jumped v h (branchHazards v h) (fun _ => target v off)))) ∧
  (∀ (h : Head) (sc : BitVec 6) (off : BitVec 32) (s : State) (v : View), Ready (.bz h sc off) h Pre.none s v →
    exec (.bz h sc off) s = .next (after s v
      (if scalarOf v sc = 0 then jumped v h (branchHazards v h) (fun _ => target v off) else passed v h))) ∧
  (∀ (h : Head) (lv : BitVec 8) (off : BitVec 32) (s : State) (v : View),
    Ready (.call h lv off) h { Pre.none with regs := [lv.toNat, lv.toNat + 1] } s v → LastOfClause v →
    Called (exec (.call h lv off) s) s v h lv.toNat (fun _ => target v off)) ∧
  (∀ (h : Head) (lv : BitVec 8) (s : State) (v : View),
    Ready (.ret h lv) h { Pre.none with regs := [lv.toNat, lv.toNat + 1] } s v → Clean v h [lv.toNat, lv.toNat + 1] →
    exec (.ret h lv) s = .next (after s v (jumped v h (passed v h).hazards (fun l => (operand v l (.r64 (.v lv))).toNat))))

/-- EXIT ends the enabled threads; TBAR, TCALL and TCALL.W arrive at a collective; TRET parks for the rejoin; TQUIT sets the quit and cancel bits (R119, R122, R125-R127, R129). -/
def Obligations.TeamWords : Prop :=
  (∀ (h : Head) (s : State) (v : View), Ready (.exit h) h Pre.none s v →
    let w := parted v h (fun t => { t with st := .exited, cl := none })
    exec (.exit h) s = .next ((after s v { w with regq := if w.liveMask = 0 then none else w.regq }).settleWg v.wgKey)) ∧
  (∀ (h : Head) (s : State) (v : View), Ready (.tbar h) h Pre.none s v → MayArrive v h false →
    Arrived (exec (.tbar h) s) s v h false false []) ∧
  (∀ (h : Head) (off : BitVec 32) (s : State) (v : View) (table : List (Nat × Nat)), Ready (.tcall h off) h Pre.none s v → MayArrive v h true →
    TableAt (counted s v h) v (target v off) table → Arrived (exec (.tcall h off) s) s v h true false table) ∧
  (∀ (h : Head) (off : BitVec 32) (s : State) (v : View) (table : List (Nat × Nat)), Ready (.tcallW h off) h Pre.none s v → MayArrive v h true →
    TableAt (counted s v h) v (target v off) table → Arrived (exec (.tcallW h off) s) s v h true true table) ∧
  (∀ (h : Head) (s : State) (v : View), Ready (.tret h) h Pre.none s v →
    (∀ t x, teamHere v h t = true → Tab.look v.wg.teams t = some x → x.parent ≠ none ∧ x.pending = none) →
    ∃ t, WithTeams s v (parted v h (fun t => { t with st := .parked .tret })) (fun n x => if teamHere v h n then { x with st := .returning } else x) t ∧
      exec (.tret h) s = .next (t.settleWg v.wgKey)) ∧
  (∀ (h : Head) (s : State) (v : View), Ready (.tquit h) h Pre.none s v →
    ∃ t, WithTeams s v (passed v h)
        (fun n x => { x with
          quit := x.quit || (teamHere v h n && x.parent.isSome),
          cancel := x.cancel || (List.range 32).any (fun l => inMask (enabled v h) l &&
            (Tab.look v.wg.teams (v.w.thread l).team).any (fun y => decide (y.parent = some n))) }) t ∧
      exec (.tquit h) s = .next t)

/-! Order, barriers and waits. -/

/-- FENCE, ACQ and REL are in flight with their scope; REL.N holds its store's address and the lowest enabled thread's value (R152-R156). -/
def Obligations.OrderWords : Prop :=
  (∀ (h : Head) (fsel : Bool) (sc : Scope) (s : State) (v : View), Ready (.fence h fsel sc) h (Pre.long fsel []) s v →
    Launched (exec (.fence h fsel sc) s) s v h fsel (flight v fsel (.fence 0) sc .glob (enabled v h) []) s.wgs) ∧
  (∀ (h : Head) (fsel : Bool) (sc : Scope) (s : State) (v : View), Ready (.acq h fsel sc) h (Pre.long fsel []) s v →
    Launched (exec (.acq h fsel sc) s) s v h fsel (flight v fsel (.acq false) sc .glob (enabled v h) []) s.wgs) ∧
  (∀ (h : Head) (fsel : Bool) (sc : Scope) (s : State) (v : View), Ready (.rel h fsel sc) h (Pre.long fsel []) s v →
    Launched (exec (.rel h fsel sc) s) s v h fsel (flight v fsel (.rel false) sc .glob (enabled v h) []) s.wgs) ∧
  (∀ (h : Head) (fsel wide : Bool) (d : BitVec 8) (base : BitVec 6) (off : BitVec 16) (s : State) (v : View) (key va : Nat),
    let n := if wide then 2 else 1
    let a := access s v 32 va key (4 * n) [] []
    Ready (.relN h fsel wide d base off) h (Pre.long fsel (groupRegs d n)) s v →
    (∀ r ∈ groupRegs d n, 32 * r + lowLane (enabled v h) ∉ v.w.vPoison) →
    (Run.of s v h).globalSite .write .dev false (onceAddr v base off) (4 * n) = .ok key va →
    LaunchedOnce (exec (.relN h fsel wide d base off) s) s v h fsel
      (flight v fsel (.relN key (regBytes v d.toNat (4 * n) (lowLane (enabled v h))) [] [] false) .dev .glob (enabled v h) [a])
      (s.mayCancel a))

/-- CCTL acts on the caches its scope names, for the line of its address (R215). -/
def Obligations.CacheWords : Prop :=
  ∀ (h : Head) (sc : Scope) (base : BitVec 6) (off : BitVec 16) (s : State) (v : View) (key va : Nat),
    onceAddr v base off < 2 ^ 57 → (Run.of s v h).globalSite .read sc false (lineAddr v base off) 1 = .ok key va →
    (Ready (.cctlWb h sc base off) h Pre.none s v → CacheActed (exec (.cctlWb h sc base off) s) s v h sc key true false) ∧
    (Ready (.cctlInv h sc base off) h Pre.none s v → CacheActed (exec (.cctlInv h sc base off) s) s v h sc key false true) ∧
    (Ready (.cctlWbinv h sc base off) h Pre.none s v → CacheActed (exec (.cctlWbinv h sc base off) s) s v h sc key true true)

/-- BAR parks its threads as arrivals; BAR.ARRIVE arrives and goes on, owing its BAR.WAIT; BAR.WAIT waits until its barrier completes (R157-R159, R165, R311). That a thread owes its BAR.WAIT until that wait completes is the model's reading of R311 (log 7). -/
def Obligations.BarrierWords : Prop :=
  (∀ (h : Head) (fsel : Bool) (n : BitVec 5) (s : State) (v : View),
    let ends := fun (t : Thread) => t.again && !t.arrived.getLsbD n.toNat
    let wait := among v h (fun t => !ends t)
    Ready (.bar h fsel n) h (Pre.long fsel []) s v → WholeWarp v h →
    (∀ l, inMask (enabled v h) l = true → (v.w.thread l).again = true ∨
      ((v.w.thread l).arrived.getLsbD n.toNat = false ∧ (v.w.thread l).owed.getLsbD n.toNat = false)) →
    (wait = 0 → exec (.bar h fsel n) s = .next (after s v (parted v h (fun t => Thread.pass { t with owed := bit32 t.owed n.toNat false, again := false })))) ∧
    (wait ≠ 0 → ∃ t, Parked t s v h fsel wait (fun t =>
        if ends t then Thread.pass { t with owed := bit32 t.owed n.toNat false, again := false }
        else { t with arrived := bit32 t.arrived n.toNat true, owed := bit32 t.owed n.toNat false, again := false, st := .parked (.bar n.toNat) }) ∧
      exec (.bar h fsel n) s = .next (t.barCheck false v.wgKey n.toNat))) ∧
  (∀ (h : Head) (fsel : Bool) (n : BitVec 5) (s : State) (v : View),
    Ready (.barArrive h fsel n) h (Pre.long fsel []) s v → WholeWarp v h →
    (∀ l, inMask (enabled v h) l = true → (v.w.thread l).arrived.getLsbD n.toNat = false ∧ (v.w.thread l).owed.getLsbD n.toNat = false) →
    exec (.barArrive h fsel n) s = .next ((after s v (parted v h (fun t =>
      Thread.pass { t with arrived := bit32 t.arrived n.toNat true, owed := bit32 t.owed n.toNat true }))).barCheck false v.wgKey n.toNat)) ∧
  (∀ (h : Head) (fsel : Bool) (n : BitVec 5) (s : State) (v : View),
    let wait := among v h (fun t => t.arrived.getLsbD n.toNat)
    Ready (.barWait h fsel n) h (Pre.long fsel []) s v → WholeWarp v h →
    (∀ l, inMask (enabled v h) l = true → (v.w.thread l).owed.getLsbD n.toNat = true) →
    (wait = 0 → exec (.barWait h fsel n) s = .next (after s v (parted v h (fun t => Thread.pass { t with owed := bit32 t.owed n.toNat false })))) ∧
    (wait ≠ 0 → ∃ t, Parked t s v h fsel wait (fun t =>
        if t.arrived.getLsbD n.toNat then { t with st := .parked (.bar n.toNat) } else Thread.pass { t with owed := bit32 t.owed n.toNat false }) ∧
      exec (.barWait h fsel n) s = .next (t.barCheck false v.wgKey n.toNat)))

/-- PBAR.ARRIVE makes its step at once, or waits for its threads' earlier accesses; PBAR.WAIT parks the threads whose parity bit is the phase and flips the others' (R160, R161). -/
def Obligations.PhaseWords : Prop :=
  (∀ (h : Head) (fsel : Bool) (n : BitVec 5) (s : State) (v : View),
    Ready (.pbarArrive h fsel n) h { Pre.long fsel [] with res := [(n.toNat, .bar)] } s v →
    (s.pending v.key (enabled v h) = false → Takes v n.toNat (bitsSetIn (enabled v h)) →
      exec (.pbarArrive h fsel n) s = .next ((after s v (passed v h)).pbarApply v.wgKey n.toNat (phaseAfter v n.toNat (bitsSetIn (enabled v h))) v.g)) ∧
    (s.pending v.key (enabled v h) = true →
      ∃ t, Parked t s v h fsel (enabled v h) (fun t => { t with st := .parked (.arrive n.toNat) }) ∧ exec (.pbarArrive h fsel n) s = .next t)) ∧
  (∀ (h : Head) (fsel : Bool) (n : BitVec 5) (s : State) (v : View),
    let wait := among v h (fun t => t.parity.getLsbD n.toNat == phaseOf v n.toNat)
    let f := fun (t : Thread) => if t.parity.getLsbD n.toNat = phaseOf v n.toNat then { t with st := .parked (.pbar n.toNat) }
      else Thread.pass { t with parity := bit32 t.parity n.toNat (!t.parity.getLsbD n.toNat) }
    Ready (.pbarWait h fsel n) h { Pre.long fsel [] with res := [(n.toNat, .bar)] } s v →
    (wait = 0 → exec (.pbarWait h fsel n) s = .next (after s v (parted v h f))) ∧
    (wait ≠ 0 → ∃ t, Parked t s v h fsel wait f ∧ exec (.pbarWait h fsel n) s = .next t))

/-- MWAIT and CWAIT park the enabled threads at a monitor; CWAIT of no bit only passes; CWAIT and TWAIT of a tile park until it is as they want (R162, R163, R174, R176, R177). -/
def Obligations.WaitWords : Prop :=
  (∀ (h : Head) (fsel scr wide : Bool) (sc : Scope) (cc : Cmp) (base : BitVec 6) (off : BitVec 16) (x : MX) (s : State) (v : View) (key va : Nat),
    let size := if wide then 8 else 4
    Ready (.mwait h fsel scr wide sc cc base off x) h (Pre.long fsel []) s v →
    (if scr then (Run.of s v h).scratchSite true (onceAddr v base off) size else (Run.of s v h).monSite sc (onceAddr v base off) size) = .ok key va →
    Monitored (exec (.mwait h fsel scr wide sc cc base off x) s) s v h fsel scr sc key size cc (monOperand v x) false) ∧
  (∀ (h : Head) (fsel : Bool) (ms base : BitVec 6) (off : BitVec 16) (s : State) (v : View) (key va : Nat),
    Ready (.cwait h fsel ms base off) h (Pre.long fsel []) s v → (Run.of s v h).monSite .dev (onceAddr v base off) 8 = .ok key va →
    (scalarOf v ms ≠ 0 → Monitored (exec (.cwait h fsel ms base off) s) s v h fsel false .dev key 8 .eq (scalarOf v ms) true) ∧
    (scalarOf v ms = 0 → ∃ u, Warmed s u ∧ exec (.cwait h fsel ms base off) s = .next (after u v (passed v h)))) ∧
  (∀ (h : Head) (fsel : Bool) (ms tile : BitVec 6) (hi : Bool) (s : State) (v : View) (t : Tile),
    Ready (.cwaitTile h fsel ms tile hi) h { Pre.long fsel [] with res := [(tile.toNat, .tile)] } s v →
    Tab.look v.wg.tiles tile.toNat = some t → t.count ≠ 0 → (t.st = .filling ∨ t.st = .ready) →
    (tileHas t hi (scalarOf v ms) = true → exec (.cwaitTile h fsel ms tile hi) s = .next (after s v (passed v h))) ∧
    (tileHas t hi (scalarOf v ms) = false →
      ∃ u, Parked u s v h fsel (enabled v h) (fun t => { t with st := .parked (.cwaitTile tile.toNat hi (scalarOf v ms)) }) ∧
        exec (.cwaitTile h fsel ms tile hi) s = .next u)) ∧
  (∀ (h : Head) (fsel : Bool) (tile : BitVec 6) (s : State) (v : View) (t : Tile),
    Ready (.twait h fsel tile) h { Pre.long fsel [] with res := [(tile.toNat, .tile)] } s v → Tab.look v.wg.tiles tile.toNat = some t →
    ((t.st = .filling ∨ t.st = .draining) → ∃ u, Parked u s v h fsel (enabled v h) (fun t => { t with st := .parked (.twait tile.toNat) }) ∧
      exec (.twait h fsel tile) s = .next u) ∧
    (t.st ≠ .filling → t.st ≠ .draining → exec (.twait h fsel tile) s = .next (after s v (passed v h))))

/-- TDEF gives an idle tile its range, EMPTY and with no bit set; TFREE makes a READY tile EMPTY (R174-R176). -/
def Obligations.TileWords : Prop :=
  (∀ (h : Head) (fsel : Bool) (tile base : BitVec 6) (off : BitVec 16) (ms : BitVec 6) (s : State) (v : View) (t : Tile),
    let b := onceAddr v base off
    let n := (scalarOf v ms).toNat % 256
    Ready (.tdef h fsel tile base off ms) h { Pre.long fsel [] with res := [(tile.toNat, .tile)], tile := some tile.toNat } s v →
    Tab.look v.wg.tiles tile.toNat = some t → 1 ≤ n → n ≤ 128 → b % 512 = 0 → b + 512 * n ≤ v.g.scrBytes →
    TileSet (exec (.tdef h fsel tile base off ms) s) s v h tile.toNat { st := .empty, base := b, count := n, bits := 0 }) ∧
  (∀ (h : Head) (tile : BitVec 6) (s : State) (v : View) (t : Tile),
    Ready (.tfree h tile) h { Pre.none with res := [(tile.toNat, .tile)], tile := some tile.toNat } s v →
    Tab.look v.wg.tiles tile.toNat = some t → t.count ≠ 0 → t.st = .ready →
    TileSet (exec (.tfree h tile) s) s v h tile.toNat { t with st := .empty })

/-- A copy start whose page, words, template and tiles pass R167 starts its copy: number, tiles, shadow pages, release; PUBLISH parks its threads with its windows and closes their shadow pages (R35, R143, R166-R168, R171, R173, R174, R179). -/
def Obligations.CopyWords : Prop :=
  (∀ (h : Head) (fsel : Bool) (sn base : BitVec 6) (off : BitVec 16) (s : State) (v : View) (t : Template),
    let a := onceAddr v base off
    let w := fun (i : BitVec 6) => scalarOf v (sn + i)
    let cp := (Run.of s v h).copyOf t (w 0) (w 1) (w 2) (w 3) (a / 64 % 64)
    Ready (.copyStart h fsel sn base off) h (Pre.long fsel []) s v → a % 32 = 0 → ApertureAt s v h a →
    TemplateRead (counted s v h) v ((w 0).toNat % 4096) t → ScalarsPass v t (w 0) (w 1) (w 2) (w 3) → CopyPasses (counted s v h) v t cp →
    CopyStarted (exec (.copyStart h fsel sn base off) s) s v h fsel cp) ∧
  (∀ (h : Head) (fsel : Bool) (sc : Scope) (nm1 base : BitVec 6) (off : BitVec 16) (s : State) (v : View),
    Ready (.publish h fsel sc nm1 base off) h (Pre.long fsel []) s v → WindowsPass s v h (onceAddr v base off) (nm1.toNat + 1) →
    Publishing (exec (.publish h fsel sc nm1 base off) s) s v h fsel sc (onceAddr v base off) (nm1.toNat + 1))

/-! Scarab, YIELD and REGQ. -/

/-- SYSCALL parks its threads on a request record and the others go on; TRAP and BRK take a software trap; in a debug session BRK stops its warp, and its grid with STOPALL (R208, R209, R345, R347, R349). -/
def Obligations.ScarabWords : Prop :=
  (∀ (h : Head) (n : BitVec 16) (s : State) (v : View), Ready (.syscall h n) h Pre.none s v →
    ∃ t, Filed t s (recordOf s v (v.w.pcOf v.w.split) (enabled v h) [(43, enabled v h)] (n.setWidth 64) 3) ∧
      exec (.syscall h n) s = .next (after t v (parted v h (fun t => { t with st := .parked (.record s.nextId) })))) ∧
  (∀ (h : Head) (n : BitVec 16) (s : State) (v : View), Ready (.trap h n) h Pre.none s v →
    Trapped (exec (.trap h n) s) s v [(36, enabled v h)] (n.setWidth 64)) ∧
  (∀ (h : Head) (n : BitVec 16) (s : State) (v : View), Ready (.brk h n) h Pre.none s v →
    let ctl := (s.ctxAt v.g.ctx).dbgctl
    (ctl.getLsbD 0 = false → Trapped (exec (.brk h n) s) s v [(37, enabled v h)] (n.setWidth 64)) ∧
    (ctl.getLsbD 0 = true → ∃ t, Filed t s { recordOf s v (v.w.pcOf v.w.split) v.w.split [(37, enabled v h)] (n.setWidth 64) 0 with dbg := true } ∧
      exec (.brk h n) s = .next { after t v { v.w with budget := v.w.budget - 1, dbg := .stopped, threads := v.w.threads.mapIdx (fun l t =>
        if inMask v.w.split l then { t with st := .parked (.record s.nextId) } else if l < 32 ∧ t.st = .ready then { t with st := .parked .brk } else t) }
        with grids := if ctl.getLsbD 1 then Tab.mod s.grids v.gKey (fun g => { g with stopped := true }) else s.grids }))

/-- YIELD renews the budget, gives up the registers from its live count on, and holds a warp marked for pre-emption for its save; REGQ records its transfer as pending (R31, R207, R213). That a register above the live count holds its value or 0 is the model's choice (log 78). -/
def Obligations.QuotaWords : Prop :=
  (∀ (h : Head) (d k : BitVec 8) (s : State) (v : View), k.toNat ≤ v.w.quota → Ready (.yield h d k) h Pre.none s v →
    ∃ w : Warp, exec (.yield h d k) s = .next (after s v w) ∧
      w = { passed v h with v := w.v, liveK := k.toNat, budget := 16 * min d.toNat v.g.ceiling, threads := yielded v h, saved := v.w.marked || v.w.saved } ∧
      (∀ r l, r < k.toNat → l < 32 → w.vreg r l = v.w.vreg r l) ∧
      (∀ r l, k.toNat ≤ r → l < 32 → w.vreg r l = v.w.vreg r l ∨ w.vreg r l = 0)) ∧
  (∀ (h : Head) (w1 w2 : BitVec 5) (k : BitVec 36) (s : State) (v : View), Ready (.regq h w1 w2 k) h Pre.none s v →
    let q : Regq := { w1 := w1.toNat, w2 := w2.toNat, k := k.toNat }
    MayTransfer (counted s v h) v q → exec (.regq h w1 w2 k) s = .next (after s v { passed v h with regq := some q }))

/-! The matrix stream. -/

/-- MLDB fills the latch that is next with the B image and its scale bytes, and makes the other one next (R188, R233). -/
def Obligations.LatchWords : Prop :=
  ∀ (ta : BitVec 6) (fs : BitVec 3) (s : State) (r : SeqRun) (t : Tile), s.curSeq = some r → Named r ta t →
    let f := slotOf (r.g.slotWord fs.toNat)
    ImageReads r f t 64 → f.planes ≤ 12 →
    ∃ l : Latch, l.q = f.planes ∧
      (∀ j k, j < 64 → k < 128 → Tab.get 0 l.ints (128 * j + k) = planeElem r f t j k) ∧
      (∀ j b, j < 64 → b < 4 → Tab.get 0 l.scale (4 * j + b) = Tab.get 0 r.wg.scratch (scaleAt f t.base j b)) ∧
      WgSet (exec (.mldb ta fs) s) s r { r.wg with seq := some { seqPassed r.q with
        latch0 := if r.q.next1 then r.q.latch0 else some l, latch1 := if r.q.next1 then some l else r.q.latch1,
        next1 := !r.q.next1, last1 := some r.q.next1 } }

/-- MMA.P accumulates the products of its image and the latch, block by block, into FP32 tiles or into WFX96 triples (R189, R235). -/
def Obligations.MatrixWords : Prop :=
  ∀ (acc : BitVec 3) (ta : BitVec 6) (fs : BitVec 3) (rows : BitVec 2) (s : State) (r : SeqRun) (t : Tile) (l : Latch),
    let n := acc.toNat
    let nt := rows.toNat + 1
    let f := slotOf (r.g.slotWord fs.toNat)
    s.curSeq = some r → Named r ta t → ImageReads r f t (64 * nt) → r.q.latch = some l →
    ((∀ k, k < nt → n + k < r.g.accn ∧ (r.wg.mode (n + k)).isFp32 = true) → AccClean r (fun k => n ≤ k ∧ k < n + nt) →
      ∃ (wg : Wg) (fl : Fl), WgSetFlags (exec (.mmaP acc ta fs rows) s) s r wg fl ∧
        AccWritten wg r (fun k => n ≤ k ∧ k < n + nt) (fun k i j => BitVec.ofNat 32 (accumFp r f t l (r.wg.accAt k i j) (64 * (k - n) + i) j 4).1) ∧
        Union fl nt (fun k i j => (accumFp r f t l (r.wg.accAt (n + k) i j) (64 * k + i) j 4).2)) ∧
    ((r.wg.mode n).isFp32 = false → (nt = 1 ∨ nt = 2 ∧ n = 0) → (∀ k, k < nt → (r.wg.mode (n + 3 * k)).starts (n + 3 * k) = true) →
      n + 3 * nt ≤ r.g.accn → AccClean r (fun k => n ≤ k ∧ k < n + 3 * nt) →
      ∃ (wg : Wg) (fl : Fl), WgSetFlags (exec (.mmaP acc ta fs rows) s) s r wg fl ∧
        (let res := fun k i j => accumWfx r f t l (r.wg.mode (n + 3 * k)).lam (r.wg.tripleAt (n + 3 * k) i j) (64 * k + i) j 4
        AccWritten wg r (fun k => n ≤ k ∧ k < n + 3 * nt)
          (fun k i j => BitVec.ofNat 32 (wfxBits (res ((k - n) / 3) i j).1 / 2 ^ (32 * ((k - n) % 3)))) ∧
        Union fl nt (fun k i j => (res k i j).2)))

/-- MCLR, MSCL, ACCST and ACCLD of accumulators that are not poisoned (R191-R193, R236); threads that wait for a phase barrier see what ACCST has stored (R161). What a load leaves of the triples it breaks is the model's reading (log 77). -/
def Obligations.AccumulatorWords : Prop :=
  (∀ (acc km1 : BitVec 3) (s : State) (r : SeqRun), s.curSeq = some r → acc.toNat + km1.toNat < r.g.accn →
    (∀ i first lam, acc.toNat ≤ i → i ≤ acc.toNat + km1.toNat → r.wg.mode i = .wfx first lam → acc.toNat ≤ first ∧ first + 2 ≤ acc.toNat + km1.toNat) →
    ∃ wg : Wg, WgSet (exec (.mclr acc km1) s) s r wg ∧
      AccWritten wg r (fun k => acc.toNat ≤ k ∧ k ≤ acc.toNat + km1.toNat) (fun _ _ _ => 0)) ∧
  (∀ (acc : BitVec 3) (ss : BitVec 6) (s : State) (r : SeqRun),
    let a := (sregOf r.q.s ss.toNat).toNat
    s.curSeq = some r → acc.toNat < r.g.accn → (r.wg.mode acc.toNat).isFp32 = true → a % 4 = 0 → a + 256 ≤ r.g.scrBytes →
    AccClean r (fun k => k = acc.toNat) → (∀ i, i < 256 → (a + i) / 8 ∉ r.wg.scrPoison) →
    let res := fun i j => fp32.mul .rn false (r.wg.accAt acc.toNat i j).toNat (scrNat r (a + 4 * i) 4)
    ∃ (wg : Wg) (fl : Fl), WgSetFlags (exec (.mscl acc ss) s) s r wg fl ∧
      AccWritten wg r (fun k => k = acc.toNat) (fun _ i j => BitVec.ofNat 32 (res i j).1) ∧ Union fl 1 (fun _ i j => (res i j).2)) ∧
  (∀ (acc : BitVec 3) (ss : BitVec 6) (imm : BitVec 14) (fs : BitVec 3) (s : State) (r : SeqRun) (z : Nat),
    let n := acc.toNat
    let f := slotOf (r.g.slotWord fs.toNat)
    let a := accSite r ss imm
    let m := r.wg.mode n
    s.curSeq = some r → n < r.g.accn → f.accBytes = some z → a % min z 4 = 0 → a + 4096 * z ≤ r.g.scrBytes →
    (if m.isFp32 then f.isWfx = false else m.starts n = true) → AccClean r (accTiles m n) →
    let res := fun i j => if m.isFp32 then f.ofFp (r.wg.accAt n i j).toNat else f.ofTriple m.lam (r.wg.tripleAt n i j)
    ∃ (bytes : List Byte) (fl : Fl), bytes = (List.range 4096).flatMap (fun e => leBytes z (res (e / 64) (e % 64)).1) ∧ Union fl 1 (fun _ i j => (res i j).2) ∧
      exec (.accst acc ss imm fs) s = .next ((((s.writeScratch r.key a bytes).orFlagsAll r.key fl).pbarsCheck r.key).modSeq r.key seqPassed)) ∧
  (∀ (acc : BitVec 3) (ss : BitVec 6) (imm : BitVec 14) (fs : BitVec 3) (s : State) (r : SeqRun) (z : Nat),
    let n := acc.toNat
    let f := slotOf (r.g.slotWord fs.toNat)
    let a := accSite r ss imm
    let raw := fun i j => scrNat r (a + (64 * i + j) * z) z
    s.curSeq = some r → f.accBytes = some z → a % min z 4 = 0 → a + 4096 * z ≤ r.g.scrBytes →
    (∀ w ∈ r.wg.scrPoison, 8 * w + 8 ≤ a ∨ a + 4096 * z ≤ 8 * w) →
    (f.isWfx = true → n + 2 < r.g.accn → ∃ wg : Wg, WgSet (exec (.accld acc ss imm fs) s) s r wg ∧
      ModesAfter wg r (fun k => n ≤ k ∧ k < n + 3) (.wfx n f.shift) ∧
      AccWritten { wg with accMode := r.wg.accMode } r (fun k => n ≤ k ∧ k < n + 3)
        (fun k i j => BitVec.ofNat 32 (wfxBits (wfxOfBits (raw i j)) / 2 ^ (32 * (k - n))))) ∧
    (f.isWfx = false → n < r.g.accn →
      let res := fun i j => match f.type with | some .f32 => (raw i j, (0 : Fl)) | some t => convert .rn false .f32 t (raw i j) | none => (0, 0)
      ∃ (wg : Wg) (fl : Fl), WgSetFlags (exec (.accld acc ss imm fs) s) s r wg fl ∧ ModesAfter wg r (fun k => k = n) .fp32 ∧
        AccWritten { wg with accMode := r.wg.accMode } r (fun k => k = n) (fun _ i j => BitVec.ofNat 32 (res i j).1) ∧ Union fl 1 (fun _ i j => (res i j).2)))

/-- ACCQ pushes an entry on qa, MBAR.ARRIVE and MBAR.WAIT act on a phase barrier, MLOOP repeats, MEND ends the task (R194-R197). That ACCQ pushes one entry at a step is the model's reading (log 51). -/
def Obligations.StreamWords : Prop :=
  (∀ (acc : BitVec 3) (rm1 : BitVec 6) (s : State) (r : SeqRun),
    let n := acc.toNat
    let m := r.wg.mode n
    let count := 2 * (rm1.toNat + 1)
    s.curSeq = some r → n < r.g.accn → (m.isFp32 = true ∨ m.starts n = true) → AccClean r (accTiles m n) → r.wg.qa.length < 128 →
    ∃ (words : Tab W32) (fl : Fl) (t : State), (∀ l, l < 32 → Tab.get 0 words l = BitVec.ofNat 32 (queued r n r.q.accqPos l)) ∧
      (∀ b, fl.getLsbD b = true ↔ ∃ e l, e < count ∧ l < 32 ∧ (queuedFl r n e l).getLsbD b = true) ∧
      t = ((s.modWg r.key (fun wg => { wg with qa := wg.qa ++ [{ owner := none, words := words }] })).wakeAll r.key .qa) ∧
      (r.q.accqPos + 1 < count → exec (.accq acc rm1) s = .next (t.modSeq r.key (fun q => { q with accqPos := r.q.accqPos + 1 }))) ∧
      (count ≤ r.q.accqPos + 1 → exec (.accq acc rm1) s = .next (((t.modSeq r.key (fun q => { q with accqPos := 0 })).orFlagsAll r.key fl).modSeq r.key seqPassed))) ∧
  (∀ (n : BitVec 5) (s : State) (r : SeqRun), s.curSeq = some r → n.toNat < r.g.barn →
    let x := bytesToNat (readBytes r.wg.scratch (r.g.scrBytes - 8 * r.g.barn + 8 * n.toNat) 8)
    let limit := x / 2 ^ 16 % 2 ^ 16
    x / 2 ^ 33 = 0 → limit ≠ 0 → x % 2 ^ 16 < limit →
    exec (.mbarArrive n) s = .next ((s.pbarApply r.key n.toNat
      (if x % 2 ^ 16 + 1 = limit then limit * 2 ^ 16 + (1 - x / 2 ^ 32) * 2 ^ 32 else x + 1) r.g).modSeq r.key seqPassed)) ∧
  (∀ (n : BitVec 5) (s : State) (r : SeqRun), s.curSeq = some r → n.toNat < r.g.barn →
    let x := bytesToNat (readBytes r.wg.scratch (r.g.scrBytes - 8 * r.g.barn + 8 * n.toNat) 8)
    (r.q.parity.getLsbD n.toNat = decide (x / 2 ^ 32 % 2 = 1) → exec (.mbarWait n) s = .next s) ∧
    (r.q.parity.getLsbD n.toNat ≠ decide (x / 2 ^ 32 % 2 = 1) →
      WgSet (exec (.mbarWait n) s) s r { r.wg with seq := some { seqPassed r.q with parity := bit32 r.q.parity n.toNat (!r.q.parity.getLsbD n.toNat) } })) ∧
  (∀ (km1 : BitVec 8) (imm : BitVec 14) (s : State) (r : SeqRun), s.curSeq = some r →
    let taken := fun l => WgSet (exec (.mloop km1 imm) s) s r { r.wg with seq := some { r.q with pc := ((r.q.pc + 8 * imm.toInt) % 2 ^ 64).toNat, cl := none, loop := l } }
    let fallen := fun l => WgSet (exec (.mloop km1 imm) s) s r { r.wg with seq := some { seqPassed r.q with loop := l } }
    (∀ left rest, r.q.loop = (r.q.pc, left) :: rest → if left = 1 then fallen rest else taken ((r.q.pc, left - 1) :: rest)) ∧
    ((∀ left rest, r.q.loop ≠ (r.q.pc, left) :: rest) →
      (km1 = 0 → fallen r.q.loop) ∧ (km1 ≠ 0 → r.q.loop.length < 4 → taken ((r.q.pc, km1.toNat) :: r.q.loop)))) ∧
  (∀ (s : State) (r : SeqRun), s.curSeq = some r →
    WgSet (exec .mend s) s r { r.wg with seq := some { seqPassed r.q with st := .wantTask, loop := [] } })

/-! Events: issue and completion. -/

/-- A clause start gives the slice to the warp that R301 chooses, which starts its pair or resumes the one it has; an eligible warp not chosen counts the start, any other warp of the slice counts from zero; an instruction-cache fill brings the missed line; the watchdog ends its grid with cause 39; a deadlock raises cause 41 in the parked threads (R75, R300-R304, R315). The numbering of round robin (log 23), which pair a warp resumes (log 22) and what a cached line keeps (log 16) are the model's. -/
def Obligations.IssueEvents : Prop :=
  (∀ (core slice k : Nat) (s : State) (v : View),
    Standing s core slice → s.choose core slice ((s.onSlice core slice).filter s.eligible) = some k → s.view k = some v →
    ∃ (warps : Tab Warp) (cores : Tab Core), exec (.clauseStart core slice) s = .next { s with warps := warps, cores := cores } ∧
      (∀ c, Tab.get Core.reset cores c = if c = core then { s.coreAt core with
          rr := Tab.put (s.coreAt core).rr (4 * slice + s.effClass v.gKey v.g) k, holds := Tab.put (s.coreAt core).holds slice k } else s.coreAt c) ∧
      (∀ a b, v.w.resumed = none → s.pairOf v = some (a, b) → Tab.look warps k = some (started v.w a b)) ∧
      (∀ p, v.w.resumed = some p → Tab.look warps k = some { v.w with elig := 0, pair := some p }) ∧
      ∀ j, j ≠ k → Tab.look warps j = (Tab.look s.warps j).map (fun w =>
        if j ∈ s.onSlice core slice then { w with elig := if s.eligible j = true then w.elig + 1 else 0 } else w)) ∧
  (∀ (warp va : Nat) (x : W64) (t : Trans) (s : State) (v : View), s.view warp = some v → v.w.frozen = some va →
    s.fetch v.wg.core v.g.ctx va = .word x → s.lookup v.wg.core v.g.ctx va = .ok t → (s.coreAt v.wg.core).icache.length < 2048 →
    ∃ (warps : Tab Warp) (cores : Tab Core), exec (.icacheMissFill warp) s = .next { s with warps := warps, cores := cores } ∧
      (∀ j, Tab.look warps j = if j = warp then some { v.w with frozen := none } else Tab.look s.warps j) ∧
      (∀ c, Tab.get Core.reset cores c = if c = v.wg.core then { s.coreAt c with
        icache := Tab.put (s.coreAt c).icache (lineTag v.g.ctx (cellOf t.pa)) (s.portRead (cellOf t.pa / 128 * 128) 128) } else s.coreAt c)) ∧
  (∀ (warp : Nat) (s : State) (v : View), s.view warp = some v → (∃ e ∈ s.recs, e.2.warp = some warp ∧ e.2.cause 0 = 39) →
    exec (.watchdogFault warp) s = .next (s.endGrid v.gKey 10 39)) ∧
  (∀ (warp : Nat) (s : State) (v : View), s.view warp = some v → s.deadlocked v.wgKey = true → s.warpsOf v.wgKey = [(warp, v.w)] →
    exec (.workgroupDeadlock v.wgKey) s = .next (s.raiseParked v v.w.liveMask 41 (fun pc =>
      (((List.range 32).findSome? (fun l => if (v.w.thread l).live && (v.w.thread l).pc == pc then (v.w.thread l).hopeless else none)).getD 0))))

/-- Lanes of a word that computed its results at issue, and of a load whose accesses have been performed, complete (R28, R80, R107, R139). -/
def Obligations.ResultEvents : Prop :=
  (∀ (op d : Nat) (wide : Bool) (vals : Tab W64) (fl : Tab (BitVec 6)) (lanes : Mask) (s : State) (o : Op) (w : Warp),
    Tab.look s.ops op = some o → o.kind = .regs (.v d) wide vals fl → o.accs = [] → Tab.look s.warps o.warp = some w →
    lanes &&& o.left ≠ 0 → (∀ l, l < 32 → (w.thread l).st ≠ .parked (.held op)) →
    LanesDone (exec (.longLatencyCompletion op lanes) s) s op o w (lanes &&& o.left) d (if wide then 2 else 1)
      (fun k l => ((Tab.get 0 vals l) >>> (32 * k)).setWidth 32) (fun l => Tab.get 0 fl l)) ∧
  (∀ (op d : Nat) (width : Width) (lanes : Mask) (s : State) (o : Op) (w : Warp),
    Tab.look s.ops op = some o → o.kind = .load width d → width ≠ .w256 → (∀ a ∈ o.accs, a.done = true) → Tab.look s.warps o.warp = some w →
    lanes &&& o.left ≠ 0 → (∀ l, l < 32 → (w.thread l).st ≠ .parked (.held op)) →
    LanesDone (exec (.longLatencyCompletion op lanes) s) s op o w (lanes &&& o.left) d width.regs
      (fun k l => loadedWord width (o.bytesOf l) k) (fun _ => 0))

/-- Ordering operations in flight complete: a release whose packets are acknowledged, and an acquire at .cl or .die once the loads before it have completed, which drops every L1 copy of its core (R80, R153, R154). -/
def Obligations.OrderEvents : Prop :=
  ∀ (op : Nat) (lanes : Mask) (s : State) (o : Op), Tab.look s.ops op = some o → o.accs = [] → o.left = o.lanes →
    (o.kind = .rel true → (∀ p ∈ o.acks, Tab.look s.pkts p = none) → exec (.longLatencyCompletion op lanes) s = .next (finished s op o)) ∧
    (o.kind = .acq false → (o.sc = .cl ∨ o.sc = .die) → s.mayAcquire op o.warp = true →
      exec (.longLatencyCompletion op lanes) s = .next (finished (s.dropL1 (s.coreOfWarp o.warp) (fun _ => true)) op o))

/-- Accesses are performed: to scratch at its banks; to global memory in the core's L1, and at the home, where an atomic is one step; a store word that covers a whole sector, or a word of scratch, clears its mark; an access in flight to a stack that has retired writes nothing (R28, R132, R139-R149, R356, R365). That a wider access drops the core's own L1 copy and waits for the die's own diff (log 35), that the accesses of a store word count together (log 88) and what an access to a retired stack reads (log 75) are the model's readings. -/
def Obligations.AccessEvents : Prop :=
  (∀ (op idx : Nat) (s : State) (o : Op) (a : Access) (wg : Wg), MayPerform s op idx o a → o.space = .scr → Tab.look s.wgs (o.warp / 32) = some wg →
    (o.kind = .store → let u := s.writeScratch (o.warp / 32) a.pa a.data
      (¬ Covers o idx 8 a → exec (.accessPerform op idx) s = .next (performed u op idx o [])) ∧
      (Covers o idx 8 a → exec (.accessPerform op idx) s = .next (performed (u.modWg (o.warp / 32) (fun w => { w with scrPoison := w.scrPoison.filter (· != a.pa / 8) })) op idx o []))) ∧
    (∀ w d, o.kind = .load w d → exec (.accessPerform op idx) s = .next (performed s op idx o (readBytes wg.scratch a.pa a.size))) ∧
    (∀ f d, o.kind = .atom f (some d) → exec (.accessPerform op idx) s = .next (performed
      (s.writeScratch (o.warp / 32) a.pa (leBytes a.size (atomNew f a.size (bytesToNat (readBytes wg.scratch a.pa a.size)) (bytesToNat a.data) (bytesToNat a.swp))))
      op idx o (readBytes wg.scratch a.pa a.size)))) ∧
  (∀ (op idx : Nat) (s : State) (o : Op) (a : Access), MayPerform s op idx o a → (o.space = .glob ∨ o.space = .con ∨ o.space = .prv) →
    let core := s.coreOfWarp o.warp
    let t := settledFor s core o.ctx a.pa
    (s.isRetired a.pa = true → (o.kind = .store ∨ (∃ w d, o.kind = .load w d) ∨ ∃ f d, o.kind = .atom f (some d)) →
      ∃ bytes : List Byte, bytes.length = a.size ∧ exec (.accessPerform op idx) s = .next (performed { s with draws := s.draws + 1 } op idx o bytes)) ∧
    (s.isRetired a.pa = false →
    (o.kind = .store → s.levelOf o.sc false a.pa = .home → s.unacked (core / 24) o.ctx a.pa = false →
      let u := (t.writeHome a.pa a.data).mirror (core / 24) o.ctx a.pa a.data
      (¬ Covers o idx 64 a → exec (.accessPerform op idx) s = .next (performed u op idx o [])) ∧
      (Covers o idx 64 a → exec (.accessPerform op idx) s = .next (performed (u.cleanse (core / 24) o.ctx a.pa true) op idx o []))) ∧
    (o.kind = .store → s.levelOf o.sc false a.pa = .l1 → let u := (s.settleUnit core o.ctx a.pa).writeL1 core o.ctx a.pa a.data
      (¬ Covers o idx 64 a → exec (.accessPerform op idx) s = .next (performed u op idx o [])) ∧
      (Covers o idx 64 a → exec (.accessPerform op idx) s = .next (performed (u.cleanse (core / 24) o.ctx a.pa false) op idx o []))) ∧
    (∀ w d, o.kind = .load w d → s.levelOf o.sc false a.pa = .home → a.pkt = none → t.isTwinned (core / 24) o.ctx a.pa = false →
      s.unacked (core / 24) o.ctx a.pa = false → t.unacked (core / 24) o.ctx a.pa = false →
      exec (.accessPerform op idx) s = .next (performed (t.refresh (core / 24) o.ctx a.pa) op idx o (readBytes t.mem a.pa a.size))) ∧
    (∀ w d, o.kind = .load w d → s.levelOf o.sc false a.pa = .l1 →
      exec (.accessPerform op idx) s = .next (performed ((s.settleUnit core o.ctx a.pa).readL1 core o.ctx a.pa a.size).1 op idx o
        ((s.settleUnit core o.ctx a.pa).readL1 core o.ctx a.pa a.size).2)) ∧
    (∀ f d, o.kind = .atom f (some d) → s.levelOf o.sc true a.pa = .home → a.pkt = none → t.unsent (core / 24) o.ctx a.pa a.size = false →
      s.unacked (core / 24) o.ctx a.pa = false →
      let old := readBytes t.mem a.pa a.size
      let new := leBytes a.size (atomNew f a.size (bytesToNat old) (bytesToNat a.data) (bytesToNat a.swp))
      exec (.accessPerform op idx) s = .next (performed ((t.writeHome a.pa new).mirror (core / 24) o.ctx a.pa new) op idx o old))))

/-- A collective with a pending transfer of quota completes: everything of the workgroup that waits is looked at with its transfers allowed; at a barrier whose last thread has arrived, its threads go on together and the transfer takes the first warp's highest registers and gives the second as many, which read zero (R158, R214). That this event completes the collective is the model's choice (log 25). -/
def Obligations.QuotaEvents : Prop :=
  (∀ (wg : Nat) (s : State), exec (.quotaTransferApply wg) s = .next (s.settle true wg)) ∧
  (∀ (wg n warp : Nat) (q : Regq) (s : State), n < 32 → TransferDue s wg n warp q →
    ∃ t : State, exec (.quotaTransferApply wg) s = .next t ∧ t.mem = s.mem ∧ t.wgs = s.wgs ∧
      ∀ j a, Tab.look s.warps j = some a → ∃ a', Tab.look t.warps j = some a' ∧
        if j / 32 = wg then Transferred a a' n (decide (j = 32 * wg + q.w1)) (decide (j = 32 * wg + q.w2)) (8 * q.k) else a' = a) ∧
  (∀ (wg warp j : Nat) (q : Regq) (s : State) (a : Warp), q.w1 ≠ q.w2 → Tab.look s.warps j = some a →
    (j = 32 * wg + q.w1 → 8 * q.k ≤ a.quota) →
    ∃ a' : Warp, Tab.look (s.applyTransfer wg warp q).warps j = some a' ∧ a'.regq = (if j = warp then none else a.regq) ∧
      a'.quota = (if j = 32 * wg + q.w1 then a.quota - 8 * q.k else if j = 32 * wg + q.w2 then a.quota + 8 * q.k else a.quota) ∧
      ∀ r l, l < 32 → a'.vreg r l = if (j = 32 * wg + q.w1 ∧ a.quota - 8 * q.k ≤ r ∧ r < a.quota) ∨ (j = 32 * wg + q.w2 ∧ a.quota ≤ r ∧ r < a.quota + 8 * q.k)
        then 0 else a.vreg r l)

/-- A task load pops the entry at the head of qm into s32 to s47: the stream starts at the launch record's stream, or stops for good if s32 is all ones (R182, R204). -/
def Obligations.TaskEvents : Prop :=
  ∀ (wg : Nat) (s : State) (w : Wg) (g : Grid) (q : Seq) (e : QEntry) (rest : List QEntry),
    Tab.look s.wgs wg = some w → s.gridOf wg = some g → w.seq = some q → w.qm = e :: rest → q.st = .wantTask → e.owner = none →
    ∃ q' : Seq, exec (.sequencerTaskLoad wg) s = .next ((s.setWg wg { w with qm := rest, seq := some q' }).wakeAll wg .qm) ∧
      q' = { q with s := q'.s, st := if sregOf q'.s 32 = BitVec.allOnes 64 then .stopped else .running, pc := g.mstream, cl := none, accqPos := 0 } ∧
      ∀ r, sregOf q'.s r = if 32 ≤ r ∧ r < 48 then BitVec.ofNat 64 ((Tab.get 0 e.words (2 * (r - 32)) : W32).toNat + 2 ^ 32 * (Tab.get 0 e.words (2 * (r - 32) + 1) : W32).toNat) else sregOf q.s r

/-! Events: monitors, diffs and handoffs. -/

/-- A value that satisfies a monitor of a warp on its core releases the monitor's threads, and any other is passed over; an armed monitor has read its word; a cluster whose threads all wait long enough begins its save, and a write that satisfies one of its monitors offers it again (R163, R164, R314). -/
def Obligations.MonitorEvents : Prop :=
  (∀ (mon : Nat) (x : W64) (rest : List W64) (s : State) (m : Mon) (c : Cluster) (w : Warp), Tab.look s.mons mon = some m → m.seen = x :: rest →
    Tab.look s.clusters (m.warp / 256) = some c → c.st = .resident → Tab.look s.warps m.warp = some w →
    (m.holds x = true → exec (.monitorWake mon) s = .next ((State.release { s with mons := Tab.del s.mons mon, clusters := Tab.put s.clusters (m.warp / 256) { c with wokeAt := s.clock.toNat } } m.warp
      (maskOf (fun l => decide ((w.thread l).st = .parked (.monitor mon))))).settleWg (m.warp / 32))) ∧
    (m.holds x = false → exec (.monitorWake mon) s = .next { s with mons := Tab.put s.mons mon { m with seen := rest } })) ∧
  (∀ (mon : Nat) (s : State) (m : Mon) (wg : Wg), Tab.look s.mons mon = some m → m.armed = false → s.monFree mon m = true → m.scr = true →
    Tab.look s.wgs (m.warp / 32) = some wg → (∀ i, i < m.size → (m.key + i) / 8 ∉ wg.scrPoison) →
    exec (.monitorEntryArm mon) s = .next { s with mons := Tab.put s.mons mon { m with armed := true, seen := m.seen ++ [BitVec.ofNat 64 (bytesToNat (readBytes wg.scratch m.key m.size))] } }) ∧
  (∀ (mon : Nat) (s : State) (m : Mon), Tab.look s.mons mon = some m → m.armed = false → s.monFree mon m = true → m.scr = false → m.sc = .dev →
    isHbm m.key = true → s.swapping m.key = false → s.monPoisoned m = false → s.biasState m.key = 0 → (s.homeEntries (homeOf m.key)).length < 4096 →
    ((s.homeEntries (homeOf m.key)).filter (fun e => e.1 == m.ctx)).length < (s.ctxAt m.ctx).monmax.toNat → s.sendWord m = none →
    exec (.monitorEntryArm mon) s = .next { s with mons := Tab.put s.mons mon { m with armed := true, seen := m.seen ++ [BitVec.ofNat 64 (bytesToNat (readBytes s.mem m.key m.size))] } }) ∧
  (∀ (cluster since : Nat) (s : State) (cl : Cluster) (g : Grid), Tab.look s.clusters cluster = some cl → Tab.look s.grids cl.grid = some g →
    s.allAtMwait cluster = some since → cl.st = .resident → g.swapthr ≠ 0 → since + 1024 * g.swapthr ≤ s.clock.toNat → s.saveReady cluster (fun _ => true) = true →
    ∃ t, SaveBegun t s cluster cl true ∧ exec (.monitorSwapOut cluster) s = .next t) ∧
  (∀ (cluster : Nat) (s : State) (cl : Cluster), Tab.look s.clusters cluster = some cl → cl.st = .saved →
    (∃ e ∈ s.mons, e.2.warp / 256 = cluster ∧ ∃ x ∈ e.2.seen, e.2.holds x = true) →
    ∃ (grids : Tab Grid) (clusters : Tab Cluster), exec (.clusterRequeue cluster) s = .next (State.wakeGroups { s with grids := grids, clusters := clusters }) ∧
      (∀ j, Tab.look clusters j = if j = cluster then some { cl with st := .offered, offeredAt := s.clock.toNat } else Tab.look s.clusters j) ∧
      (∀ j, Tab.look grids j = (Tab.look s.grids j).map (fun g => if j = cl.grid then { g with since := s.clock.toNat } else g)))

/-- A packet that is first of its die at its home is applied there in one step and noted, and does nothing at a stack that has retired; its acknowledgement ends it; a die that receives a handoff applies the list, its next acquire skips the list's notices and takes out what the list could not patch, and its monitors receive the value (R153, R156, R256, R259, R261, R365). Which clean copies a handoff patches (log 36) is the model's reading. -/
def Obligations.DiffEvents : Prop :=
  (∀ (pkt : Nat) (s : State) (p : Packet), Tab.look s.pkts pkt = some p → p.applied = false → s.packetFirst pkt p = true → p.pz = false →
    let key := s.packetCell p
    (s.isRetired key = true → exec (.diffApply pkt) s = .next { s with pkts := Tab.put s.pkts pkt { p with applied := true } }) ∧
    (s.isRetired key = false → exec (.diffApply pkt) s = .next { ((s.writeRuns (p.runs.map (fun r => (key + r.1, r.2)))).notice key p.ctx (if p.kind = 0 then 0 else 1) p.die p.seq)
      with pkts := Tab.put s.pkts pkt { p with applied := true } })) ∧
  (∀ (pkt : Nat) (s : State) (p : Packet), Tab.look s.pkts pkt = some p → p.applied = true → p.drop = false →
    exec (.diffAck pkt) s = .next { s with pkts := Tab.del s.pkts pkt }) ∧
  (∀ (msg : Nat) (s : State) (h : Handoff) (l : List Packet), Tab.look s.handoffs msg = some h → h.list = some l →
    let mons := s.mons.map (fun e => if h.mons.contains e.1 then (e.1, { e.2 with seen := e.2.seen ++ [h.value] }) else e)
    ∃ (dies : Tab Die) (d : Die), exec (.lockHandoffReceive msg) s = .next { s with handoffs := Tab.del s.handoffs msg, dies := dies, mons := mons } ∧
      (∀ j, Tab.get Die.reset dies j = if j = h.die then d else s.dieAt j) ∧
      d = { s.dieAt h.die with l2 := d.l2, left := d.left, skips := (s.dieAt h.die).skips ++ l.map (fun p => (p.ctx, p.die, p.seq)) } ∧
      (∀ tag, Tab.look (s.dieAt h.die).l2 tag = none → Tab.look d.l2 tag = none) ∧
      ∀ tag x, Tab.look (s.dieAt h.die).l2 tag = some x →
        (x.twin.isSome = true ∨ h.stamp ≤ x.fresh → Tab.look d.l2 tag = some x ∧ ((∃ p ∈ l, p.ctx * 2 ^ 52 + p.sector = tag) → tag ∈ d.left)) ∧
        (x.twin = none → x.fresh < h.stamp → Tab.look d.l2 tag = some { x with
          data := (l.filter (fun p => p.ctx * 2 ^ 52 + p.sector == tag && !p.pz)).foldl (fun b p => p.runs.foldl (fun b r => patch b r.1 r.2) b) x.data }))

/-! Events: copies, tiles and PUBLISH. -/

/-- A chunk starts once its copy's release and those of earlier copies on its channel have completed, under the map and the marks of that moment; it completes with everything it writes; one that cannot ends its copy, with a record, which waits for the core that restores a saved workgroup, or with the grid; a copy out of a tile that has read all of it makes the tile EMPTY (R168, R171, R172, R174, R345, R352). That a chunk reads and writes in one step (log 48), the record's empty masks (log 19) and the end of a grid whose saved tile cannot be written (log 54) are the model's. -/
def Obligations.CopyEvents : Prop :=
  (∀ (copy chunk : Nat) (s : State) (c : Copy), Tab.look s.copies copy = some c → c.before = [] → (∀ p ∈ c.acks, Tab.look s.pkts p = none) →
    (∀ e ∈ s.copies, e.1 < copy → e.2.ctx = c.ctx → e.2.chan = c.chan → e.2.before = [] ∧ ∀ p ∈ e.2.acks, Tab.look s.pkts p = none) →
    c.failed = false → chunk ∉ c.started → chunk ∈ c.chunks →
    let c' := { c with started := insertNat chunk c.started, begun := Tab.put c.begun chunk (s.mapGen.toNat, s.marked (s.coreOfWarp c.warp)) }
    exec (.bteChunkStart copy chunk) s = .next (State.countDrops { s with copies := Tab.put s.copies copy c' } (s.chunkKeys c' chunk))) ∧
  (∀ (copy chunk : Nat) (s t : State) (c : Copy), Tab.look s.copies copy = some c → c.openChunk chunk = true → s.runChunk c chunk = .ok t →
    t.snoops = s.snoops → Tab.look t.copies copy = some c →
    let ks := (c.bitsWith chunk).foldl (fun l j => insertNat j l) c.doneChunks
    let copies := if ks.length = c.chunks.length ∧ c.srcTile = none then Tab.del t.copies copy else Tab.put t.copies copy { c with doneChunks := ks }
    exec (.chunkComplete copy chunk) s = .next (State.settleWg { t with copies := copies } c.wg)) ∧
  (∀ (copy chunk : Nat) (s : State) (c : Copy) (wg : Wg) (cl : Cluster), Tab.look s.copies copy = some c → c.openChunk chunk = true →
    s.runChunk c chunk = .error .fault → Tab.look s.wgs c.wg = some wg → Tab.look s.clusters c.cluster = some cl →
    let u := s.dropCopy copy c
    let rec_ : TrapRec := {
        core := wg.core, warp := none, wgKey := c.wg, pc := c.pc, exec := 0, live := 0, causes := [(40, 0)], ctx := c.ctx, origin := 2,
        splitB := false, fetch := false, wid := c.warp % 32, wgid := wg.wgid, clid := cl.clid, detail := BitVec.ofNat 64 (c.chunkVa chunk),
        clock := s.clockAt wg.core, dbg := false, queued := false }
    (cl.st.onCore = true → ∃ t, Filed t u rec_ ∧ exec (.copyFault copy chunk) s = .next t) ∧
    (cl.st.onCore = false → c.dstTile = none → exec (.copyFault copy chunk) s = .next { u with nextId := u.nextId + 1, recs := Tab.put u.recs u.nextId rec_ }) ∧
    (cl.st.onCore = false → c.dstTile ≠ none → exec (.copyFault copy chunk) s = .next (u.endGrid c.grid 10 40))) ∧
  (∀ (copy chunk : Nat) (s : State) (c : Copy), Tab.look s.copies copy = some c → c.openChunk chunk = true →
    s.runChunk c chunk = .error .fault → Tab.look s.wgs c.wg = none →
    exec (.copyFault copy chunk) s = .next ((s.dropCopy copy c).endGrid c.grid 10 40)) ∧
  (∀ (copy n : Nat) (s : State) (c : Copy) (wg : Wg) (t : Tile), Tab.look s.copies copy = some c → c.srcTile = some n → c.doneChunks.length = c.chunks.length →
    Tab.look s.wgs c.wg = some wg → Tab.look wg.tiles n = some t → t.st = .draining →
    let wg' := { wg with tiles := Tab.put wg.tiles n { t with st := .empty, bits := 0 } }
    exec (.tileDrainDone copy) s = .next ((State.tileWake { s with copies := Tab.del s.copies copy, wgs := Tab.put s.wgs c.wg wg' } c.wg n).settleWg c.wg))

/-- A PUBLISH whose release and shadow copies are done switches its windows in one step: each moves to the shadow page closed when it issued, bytes no copy wrote take their live value, no core and no die translates it the old way any more, MAPGEN advances by one, and the threads go on; sets opened since stay; a retired page of which nothing is left on the dies rejoins the pool (R179, R180, R251, R263, R334). That an override table holds the switched window is the model's (log 32). -/
def Obligations.PublishEvents : Prop :=
  (∀ (op va n : Nat) (copies : List Nat) (s : State) (o : Op), Tab.look s.ops op = some o → o.kind = .publish va n copies true →
    (∀ p ∈ o.acks, Tab.look s.pkts p = none) → (∀ i ∈ copies, Tab.look s.copies i = none) → s.hostDir = [] → s.snoops = [] →
    let x := s.ctxAt o.ctx
    let due := fun (e : Shadow) => decide (va / 65536 ≤ e.va ∧ e.va < va / 65536 + n) && (match e.closed with | some k => decide (k ≤ op) | none => false)
    ∃ u : State, exec (.publishSwitch op) s = .next ((u.release o.warp o.lanes).settleWg (o.warp / 32)) ∧
      let y := u.ctxAt o.ctx
      u.warps = s.warps ∧ u.ops = s.ops ∧ u.wgs = s.wgs ∧ y.mapgen = x.mapgen + 1 ∧
      (∀ e, e ∈ y.shadows ↔ e ∈ x.shadows ∧ due e = false) ∧
      (∀ v, Tab.look y.published v = match (x.shadows.filter (fun e => due e && e.va == v)).getLast? with | some sh => some sh.page | none => Tab.look x.published v) ∧
      (∀ e ∈ x.shadows, due e = true → (∀ k ∈ u.cores, ∀ t ∈ k.2.tlb, ¬ (t.ctx = o.ctx ∧ t.page / 16 = e.va)) ∧
        ∀ k ∈ u.dies, ∀ t ∈ k.2.tlb, ¬ (t.ctx = o.ctx ∧ t.page / 16 = e.va)) ∧
      (∀ cl, Tab.look s.clusters (o.warp / 256) = some cl → Tab.look u.clusters (o.warp / 256) = some { cl with published := true }) ∧
      ∀ sh old, x.shadows.filter due = [sh] → old = s.windowPages o.ctx sh.va → sh.page.length = 16 → (old ++ sh.page).Nodup → Memory.wf s.mem = true →
        ∀ i, i < 65536 → Tab.get 0 u.mem (4096 * sh.page.getD (i / 4096) 0 + i % 4096) =
          if i ∈ sh.written then Tab.get 0 s.mem (4096 * sh.page.getD (i / 4096) 0 + i % 4096) else Tab.get 0 s.mem (4096 * old.getD (i / 4096) 0 + i % 4096)) ∧
  (∀ (ctx page : Nat) (s : State) (r : Retired), (s.ctxAt ctx).retired.find? (fun r => r.page.headD 0 == page) = some r → s.oldDone ctx r.gen = true →
    (∀ e ∈ s.dies, ∀ x ∈ e.2.l2, ¬ (tagCtx x.1 = ctx ∧ tagSector x.1 / 64 ∈ r.page)) → (∀ k u, ∀ b ∈ Tab.get [] (s.dieAt k).units u, tagCtx b.1 ≠ ctx) →
    (∀ e ∈ s.pkts, ¬ (e.2.ctx = ctx ∧ e.2.sector / 64 ∈ r.page)) →
    ∃ (cores : Tab Core) (dies : Tab Die), exec (.pageRetire ctx page) s = .next { s.setCtx ctx { s.ctxAt ctx with
        retired := (s.ctxAt ctx).retired.filter (· != r), freePages := (s.ctxAt ctx).freePages ++ [r.page] } with cores := cores, dies := dies } ∧
      ∀ e ∈ cores, ∀ x ∈ e.2.l1, ¬ (tagCtx x.1 = ctx ∧ tagSector x.1 / 64 ∈ r.page))

/-! Events: rings, grids and clusters. -/

/-- A ring's tail and HALT are written; the entry at RHEAD is admitted, or refused with HALT and a status word, and one that waits for a counter arms a device-scope monitor on it; a grid becomes eligible when a value that the monitor has read reaches its own (R292-R295, R370). A ring whose next entry leads to a page of the capacity tier waits for it (R338) and is none of these. That an entry's failures come before its record's is the model's reading (log 30). -/
def Obligations.RingEvents : Prop :=
  (∀ (ctx : BitVec 6) (ring : BitVec 3) (x : BitVec 32) (s : State), s.mgmt.recov = false → (x - (s.ringAt ctx.toNat ring.toNat).rhead).toNat ≤ 2 ^ (s.ringAt ctx.toNat ring.toNat).log2n.toNat →
    exec (.rtailWrite ctx ring x) s = .next (s.setRing ctx.toNat ring.toNat { s.ringAt ctx.toNat ring.toNat with rtail := x })) ∧
  (∀ (ctx : BitVec 6) (ring : BitVec 3) (s : State), s.mgmt.recov = false →
    exec (.haltClear ctx ring) s = .next (s.setRing ctx.toNat ring.toNat { s.ringAt ctx.toNat ring.toNat with halt := false })) ∧
  (∀ (ctx : BitVec 6) (ring : BitVec 3) (s : State) (e0 e1 : W64) (ws : List W64),
    let c := ctx.toNat
    let r := s.ringAt c ring.toNat
    let stat := e1.toNat % 2 ^ 57
    let g := { Grid.ofWords ws with ctx := c, ring := ring.toNat, ridx := r.rhead.toNat, stat := stat }
    (s.ctxAt c).en = true → r.en = true → r.halt = false → r.rhead ≠ r.rtail →
    (∀ e ∈ s.grids, ¬ (e.2.ctx = c ∧ e.2.ring = ring.toNat ∧ e.2.st = .waiting)) → s.ringFar c ring.toNat = none →
    s.unitWords c (r.rbase.toNat + 16 * (r.rhead.toNat % 2 ^ r.log2n.toNat)) 2 = .ok [e0, e1] → s.unitWords c (e0.toNat % 2 ^ 57) 32 = .ok ws →
    (∀ code detail, g.refusal e0 e1 r.pmax.toNat = some (code, detail) →
      exec (.ringEntryAdmit ctx ring) s = .next ((s.setRing c ring.toNat { r with halt := true }).writeStatus c stat code detail)) ∧
    (g.refusal e0 e1 r.pmax.toNat = none → (s.onChip c g.prio).length < 32 → s.spilledOf c g.prio = [] →
      let u := State.setRing { s with nextId := s.nextId + 1, grids := Tab.put s.grids s.nextId g } c ring.toNat { r with rhead := r.rhead + 1 }
      (g.waitctr = 0 → exec (.ringEntryAdmit ctx ring) s = .next (u.makeEligible s.nextId)) ∧
      (∀ key, g.waitctr ≠ 0 → s.unitSite c .read g.waitctr = .ok key →
        exec (.ringEntryAdmit ctx ring) s = .next (State.armMon { u with nextId := s.nextId + 2, mons := Tab.put s.mons (s.nextId + 1) {
          ctx := c, warp := unitWarp s.nextId, lanes := 0, pc := 0, flag := none, sc := .dev, scr := false, key := key, size := 8, cc := .geu
          x := BitVec.ofNat 64 g.waitval, maskForm := false, armed := false, seen := [], since := s.clock.toNat } } (s.nextId + 1))))) ∧
  (∀ (grid : Nat) (s : State) (g : Grid) (m : Nat × Mon) (x : W64), Tab.look s.grids grid = some g → g.st = .waiting →
    m ∈ s.mons → m.2.warp = unitWarp grid → m.2.size = 8 → m.2.maskForm = false → m.2.cc = .geu → m.2.x = BitVec.ofNat 64 g.waitval → g.waitval < 2 ^ 64 →
    x ∈ m.2.seen → g.waitval ≤ x.toNat →
    let cores := s.cores.map (fun e => (e.1, { e.2 with icache := e.2.icache.filter (fun l => l.1 / 2 ^ 52 != g.ctx) }))
    exec (.gridEligible grid) s = .next (State.wakeGroups { s with
      grids := Tab.put s.grids grid { g with st := .eligible, since := s.clock.toNat }, cores := cores, mons := s.mons.filter (fun e => e.2.warp != unitWarp grid) }))

/-- A group's request is answered by a placement, by a hold for a starving grid, or by nothing, and then it makes none until what the queues offer changes; starvation marks lower clusters of a held group; a grid whose threads have all exited makes its release, and then its completion; PRE marks a context's clusters, whose warps at yield points issue nothing more (R69, R295, R297, R298, R304). Which free cores, frame and slot a cluster gets is the model's (log 81). -/
def Obligations.GridEvents : Prop :=
  (∀ (die : BitVec 3) (group : Nat) (cores : List Nat) (s : State), (s.dieAt die.toNat).fenced = false → group ≤ 2 → s.mgmt.ready = true → group ∉ (s.dieAt die.toNat).idle →
    (s.pull die.toNat group = .nothing → exec (.clusterPull die group cores) s = .next (s.setDie die.toNat { s.dieAt die.toNat with
      idle := group :: (s.dieAt die.toNat).idle })) ∧
    (∀ k g clid, s.pull die.toNat group = .place (k, g, .fresh clid) → exec (.clusterPull die group cores) s = .next (s.place k g clid die.toNat group cores)) ∧
    (∀ k, s.pull die.toNat group = .hold k → exec (.clusterPull die group cores) s = .next (s.setDie die.toNat { s.dieAt die.toNat with
      holds := Tab.put (s.dieAt die.toNat).holds group k })) ∧
    (∀ k g c cl, s.pull die.toNat group = .place (k, g, .saved c) → Tab.look s.clusters c = some cl →
      exec (.clusterRestore c die group cores) s = .next (s.restore c cl g die.toNat group cores))) ∧
  (∀ (grid : Nat) (s : State) (g : Grid) (d : Nat × Nat), Tab.look s.grids grid = some g → s.starving grid g = true → (11 - g.prio) * s.ageOf g ≤ s.waited g →
    grid ∉ s.preempts → (s.heldFor grid).find? (s.wouldFit grid g) = some d →
    exec (.starvationPreempt grid) s = .next { s.markClusters (fun _ c => s.lowerOn g.prio d.1 d.2 c) with preempts := insertNat grid s.preempts }) ∧
  (∀ (grid : Nat) (s : State) (g : Grid), Tab.look s.grids grid = some g →
    (g.st = .eligible → g.exited = g.nclus → s.gridQuiet grid = true →
      exec (.gridComplete grid) s = .next ((s.setGrid grid { g with st := .complete }).releaseAll g.ctx)) ∧
    (g.st = .complete → (∀ e ∈ s.pkts, e.2.ctx ≠ g.ctx) → g.donectr = 0 →
      exec (.gridComplete grid) s = .next ((s.dropGrid grid g).writeStatus g.ctx g.stat 1 0)) ∧
    (g.st = .complete → (∀ e ∈ s.pkts, e.2.ctx ≠ g.ctx) → g.donectr ≠ 0 → s.unitFar g.ctx g.donectr 1 = none →
      (∀ key, s.unitSite g.ctx .both g.donectr = .ok key → isHbm key = true → s.biasState key = 0 →
        (∀ e ∈ s.ops, ∀ a ∈ e.2.accs, a.done = true ∨ a.res = [] ∨ a.pa + a.size ≤ key ∨ key + 8 ≤ a.pa) →
        exec (.gridComplete grid) s = .next (((s.writeHome key (leBytes 8 (bytesToNat (readBytes s.mem key 8) + 1))).dropGrid grid g).writeStatus g.ctx g.stat 1 0)) ∧
      (∀ cause, s.unitSite g.ctx .both g.donectr = .error cause →
        exec (.gridComplete grid) s = .next (((s.dropGrid grid g).halt g.ctx g.ring).writeStatus g.ctx g.stat 10 cause)))) ∧
  (∀ (ctx : BitVec 6) (s : State), s.mgmt.recov = false → ∃ (clusters : Tab Cluster) (warps : Tab Warp), exec (.preRequest ctx) s = .next { s with clusters := clusters, warps := warps } ∧
    (∀ k c g, Tab.look s.clusters k = some c → c.st = .resident → Tab.look s.grids c.grid = some g → g.ctx = ctx.toNat →
      Tab.look clusters k = some { c with marked := true } ∧
      ∀ j w, j / 256 = k → Tab.look s.warps j = some w → Tab.look warps j = some { w with
        marked := true, saved := w.saved || (List.range 32).all (fun l => s.atYield (w.thread l)) }))

/-- A marked cluster whose warps are all held at yield points begins its save: its waits are withdrawn (R165, R304, R313); once no tile of it is DRAINING, it releases its context on its die; once no packet of that release is on its way and the remap table has room, its frame holds the image of each workgroup, the tiles being filled have remap entries, and its cores, registers and tables are free (R350-R352). Where the spec gives the image no layout its bytes are free (log 31). -/
def Obligations.SaveEvents : Prop :=
  ∀ (cluster : Nat) (s : State) (cl : Cluster) (g : Grid), Tab.look s.clusters cluster = some cl → Tab.look s.grids cl.grid = some g →
    let held := fun (w : Warp) => w.saved = true ∨ (w.marked = true ∧ ∀ l, l < 32 → s.atYield (w.thread l) = true)
    (cl.st = .resident → cl.marked = true → (∀ e ∈ s.warps, e.1 / 256 = cluster → held e.2 ∧ ∀ l, l < 32 → (e.2.thread l).st = .ready ∨ s.atYield (e.2.thread l) = true) →
      (∀ e ∈ s.ops, e.2.warp / 256 = cluster → e.2.isWait = true) → (∀ e ∈ s.wgs, e.1 / 8 = cluster → e.2.seqReady = true) →
      ∃ t, SaveBegun t s cluster cl false ∧ exec (.clusterSave cluster) s = .next t) ∧
    (cl.st = .resident → (cl.marked = false ∨ ∃ e ∈ s.warps, e.1 / 256 = cluster ∧ ¬ held e.2) → ∃ warps : Tab Warp, exec (.clusterSave cluster) s = .next { s with warps := warps } ∧
      ∀ j, Tab.look warps j = (Tab.look s.warps j).map (fun w =>
        if j / 256 = cluster then { w with saved := w.saved || (w.marked && (List.range 32).all (fun l => s.atYield (w.thread l))) } else w)) ∧
    (cl.st = .saving → (∀ e ∈ s.wgs, e.1 / 8 = cluster → ∀ t ∈ e.2.tiles, t.2.st ≠ .draining) →
      ∃ t, SaveReleased t s cluster cl g.ctx ∧ exec (.clusterSave cluster) s = .next t) ∧
    (cl.st = .saving → (∃ e ∈ s.wgs, e.1 / 8 = cluster ∧ ∃ t ∈ e.2.tiles, t.2.st = .draining) → exec (.clusterSave cluster) s = .next s) ∧
    (cl.st = .releasing → (∀ e ∈ s.pkts, ¬ (e.2.die = cl.die ∧ e.2.ctx = g.ctx)) → (s.ctxAt g.ctx).remaps.length + (remapsOf s cluster cl g).length ≤ 256 →
      ∃ t, SaveEnded t s cluster cl g ∧ exec (.clusterSave cluster) s = .next t) ∧
    (cl.st = .releasing → ((∃ e ∈ s.pkts, e.2.die = cl.die ∧ e.2.ctx = g.ctx) ∨ 256 < (s.ctxAt g.ctx).remaps.length + (remapsOf s cluster cl g).length) →
      exec (.clusterSave cluster) s = .next s)

/-! Events: Scarab. -/

/-- The oldest waiting record of a core enters its queue; REPLAY, SKIP, JUMP and the answer to a system call end the record at the head and its threads go on at the word, past it or at the target; END ends the grid; Scarab writes the state of what a record in a queue parks (R342, R345, R346, R349). That an action is taken on the head of the queue is the model's reading (log 57). -/
def Obligations.ScarabEvents : Prop :=
  (∀ (core id : Nat) (s : State) (r : TrapRec), s.recs.find? (fun e => e.2.core == core && !e.2.queued && s.recOnCore e.2) = some (id, r) →
    (s.coreAt core).queue.length < 64 →
    let cores := Tab.put s.cores core { s.coreAt core with queue := (s.coreAt core).queue ++ [id] }
    exec (.trapRecordEnqueue core) s = .next { s with cores := cores, recs := Tab.put s.recs id { r with queued := true } }) ∧
  (∀ (core id k : Nat) (a : W64) (s : State) (r : TrapRec) (w : Warp), s.headRec core = some (id, r) → r.warp = some k → r.dbg = false → Tab.look s.warps k = some w →
    let onRec := maskOf (fun l => decide ((w.thread l).st = .parked (.record id)))
    let cores := Tab.put s.cores core { s.coreAt core with queue := (s.coreAt core).queue.filter (· != id) }
    let ended := fun (f : Thread → Thread) => { s with warps := Tab.put s.warps k (w.modThreads onRec (fun t => { f t with st := .ready })), recs := Tab.del s.recs id, cores := cores }
    (r.cause 0 ∉ [39, 40, 41, 43] →
      exec (.replay core) s = .next ((ended (fun t => t)).settleWg r.wgKey) ∧
      exec (.skip core) s = .next ((ended Thread.pass).settleWg r.wgKey) ∧
      exec (.jump core a) s = .next ((ended (fun t => { t with pc := a.toNat, cl := none })).settleWg r.wgKey)) ∧
    (r.cause 0 = 43 → exec (.answer core) s = .next ((ended Thread.pass).acquireWarp r.ctx k .dev))) ∧
  (∀ (core id : Nat) (s : State) (r : TrapRec) (c : Cluster), s.headRec core = some (id, r) → Tab.look s.clusters (r.wgKey / 8) = some c →
    exec (.endRecord core) s = .next (s.endGrid c.grid 10 (r.cause 0))) ∧
  (∀ (id k : Nat) (n : BitVec 6) (x : W64) (s : State) (r : TrapRec) (w : Warp), Tab.look s.recs id = some r → r.queued = true → r.warp = some k → Tab.look s.warps k = some w →
    w.onRecord id ≠ 0 → ∃ w' : Warp, exec (.scarabWrite id (.scalar n x)) s = .next { s with warps := Tab.put s.warps k w' } ∧
      w' = { w with s := w'.s, hazards := w.hazards.filter (fun z => n == 0 || z.reg != .s n.toNat) } ∧ ∀ q, w'.sreg q = if q = n.toNat ∧ q ≠ 0 then x else w.sreg q)

/-- A single step starts the named split of a stopped warp and gives it the issue; the driver's answer to a grow fault lets every waiting warp of the context make its access again (R335, R348). What a step does with its split's record, and that a grow parks the whole warp, are the model's readings (log 56, log 39). -/
def Obligations.StepEvents : Prop :=
  (∀ (warp : Nat) (s : State) (v : View) (g : Group) (rest : List Group) (c : ClauseCtx) (n : Nat) (enter : Bool), s.view warp = some v → v.w.dbg = .stopped → v.w.pair = none →
    v.cl.st = .resident → (v.w.modThreads (v.w.those s.heldByDebug) Thread.wake).ordered = g :: rest → s.startOf v.wg.core v.g.ctx g = .go c n enter →
    v.w.mayStart c n enter = true → s.recs = [] →
    let w : Warp := { ((v.w.modThreads g.mask Thread.wake).enter g c enter) with dbg := .step, pair := some { a := g.mask, b := 0, turnB := false } }
    exec (.singleStep warp false) s = .next { s with warps := Tab.put s.warps warp w, cur := some (.warp warp), agenda := .issue (.warp warp) :: s.agenda }) ∧
  (∀ (warp p : Nat) (x : BitVec 20) (s : State) (v : View), s.view warp = some v → v.w.growPage = some p →
    ∃ warps, exec (.growFaultService warp (.mapped x)) s = .next { s.setCtx v.g.ctx { s.ctxAt v.g.ctx with phwm := x } with warps := warps } ∧
      ∀ k u, s.view k = some u → u.g.ctx = v.g.ctx →
        Tab.look warps k = some (u.w.modThreads (maskOf (fun l => decide ((u.w.thread l).st = .parked (.grow p)))) (fun t => { t with st := .ready })))

/-! Events: the capacity tier. -/

/-- A far page starts to come near into a free frame, or in exchange for a cold page; the completed swap moves the lines, rewrites the entries and wakes the threads (R338, R339); a write of CTMIG is ignored while MBUSY is 1, sets MERR where it has a reserved bit or its command fails, and else starts its command (R328, R340). Which frame and cold page are taken, and that lines move at completion, are the model's (log 58, log 59). -/
def Obligations.CapacityEvents : Prop :=
  (∀ (warp cold c page e a f : Nat) (rest : List Nat) (s : State), s.farWanted warp = some (c, page) → s.tierEntry c page = some (e, a) →
    entryKind e = 1 → e.testBit 11 = false → s.moving c page = false → ((s.ctxAt c).mdst = 0 ∨ (s.ctxAt c).mdstUsed = true) →
    (s.partAt (s.ctxAt c).part.toNat).free = f :: rest →
    exec (.farPageFault warp cold) s = .next { s.setPart (s.ctxAt c).part.toNat { s.partAt (s.ctxAt c).part.toNat with free := rest } with
      nextId := s.nextId + 1
      swaps := Tab.put s.swaps s.nextId { ctx := c, page := page, src := entryFrame e, dst := f, out := none, far := false, cmd := false } }) ∧
  (∀ (warp cold c page e a e' a' : Nat) (s : State), s.farWanted warp = some (c, page) → s.tierEntry c page = some (e, a) →
    entryKind e = 1 → e.testBit 11 = false → s.moving c page = false → ((s.ctxAt c).mdst = 0 ∨ (s.ctxAt c).mdstUsed = true) →
    (s.partAt (s.ctxAt c).part.toNat).free = [] → cold ≠ page → s.mayGoFar c cold = true → s.tierEntry c cold = some (e', a') →
    exec (.farPageFault warp cold) s = .next { s with
      nextId := s.nextId + 1
      swaps := Tab.put s.swaps s.nextId { ctx := c, page := page, src := entryFrame e, dst := entryFrame e', out := some cold, far := false, cmd := false } }) ∧
  (∀ (swap : Nat) (s : State) (x : Swap), Tab.look s.swaps swap = some x → x.dst ≠ 0 → x.lost = false → (s.flushFrame x.dst).frameBusy x.dst = false →
    let u := (s.flushFrame x.dst).moveFrame x.src x.dst x.out.isSome
    let t := u.setTier x.ctx x.page (if x.far then 1 else 0) x.dst false
    let t := match x.out with | some n => (t.setTier x.ctx n 1 x.src false).moveKeys x.dst x.src | none => t
    exec (.swapComplete swap) s = .next (State.wakeFar (State.endCmd { t with swaps := Tab.del t.swaps swap } x.ctx x.cmd) x.ctx x.page)) ∧
  (∀ (ctx : BitVec 6) (x : W64) (s : State),
    let c := ctx.toNat
    let y := s.ctxAt c
    let page := x.toNat % 2 ^ 57 / 65536
    let g := x.toNat / 2 ^ 58 % 16
    (y.mbusy = true → exec (.ctmigBringNear ctx x) s = .next s ∧ exec (.ctmigMoveFar ctx x) s = .next s ∧
      exec (.ctmigOffline ctx x) s = .next s ∧ exec (.ctmigReserved ctx x) s = .next s) ∧
    (y.mbusy = false → s.mgmt.recov = false →
      exec (.ctmigReserved ctx x) s = .next (s.setCtx c { y with merr := true }) ∧
      ((bitsSet x 57 57 = true ∨ bitsSet x 15 0 = true) →
        exec (.ctmigBringNear ctx x) s = .next (s.setCtx c { y with merr := true }) ∧ exec (.ctmigMoveFar ctx x) s = .next (s.setCtx c { y with merr := true }) ∧
        exec (.ctmigOffline ctx x) s = .next (s.setCtx c { y with merr := true })) ∧
      (bitsSet x 57 57 = false → bitsSet x 15 0 = false → s.tierEntry c page = none →
        exec (.ctmigBringNear ctx x) s = .next (s.setCtx c { y with merr := true }) ∧ exec (.ctmigMoveFar ctx x) s = .next (s.setCtx c { y with merr := true })) ∧
      (∀ e a, bitsSet x 57 57 = false → bitsSet x 15 0 = false → s.tierEntry c page = some (e, a) → s.moving c page = false →
        (entryKind e = 1 → e.testBit 11 = true → exec (.ctmigBringNear ctx x) s = .next s) ∧
        (entryKind e = 1 → e.testBit 11 = false →
          (y.mdst ≠ 0 → exec (.ctmigBringNear ctx x) s = .next (State.addSwap (s.setCtx c { y with mbusy := true, mdstUsed := true })
            { ctx := c, page := page, src := entryFrame e, dst := y.mdst.toNat * 65536, out := none, far := false, cmd := true })) ∧
          ((s.ogAt g).isPool = true → (s.ogAt g).st = .active → (s.partAt y.part.toNat).ogs.getLsbD g = true →
            (y.mdst.toNat * 65536 / 2 ^ 40 = 0x10 + g →
              exec (.ctmigMoveFar ctx x) s = .next (State.addSwap { s.setCtx c { y with mbusy := true, mdstUsed := true } with draws := s.draws + 1 }
                { ctx := c, page := page, src := entryFrame e, dst := y.mdst.toNat * 65536, out := none, far := true, cmd := true })) ∧
            (y.mdst = 0 → s.poolUsed.length < 2 ^ 24 → ∃ dst, dst % 65536 = 0 ∧ dst / 2 ^ 40 = 0x10 + g ∧ dst ∉ s.poolUsed ∧
              exec (.ctmigMoveFar ctx x) s = .next (State.addSwap { s.setCtx c { y with mbusy := true } with draws := s.draws + 1 }
                { ctx := c, page := page, src := entryFrame e, dst := dst, out := none, far := true, cmd := true })))) ∧
        (entryKind e = 1 → e.testBit 11 = false →
          exec (.ctmigOffline ctx x) s = .next ((s.setTier c page 1 (entryFrame e) true).wakeFar c page)) ∧
        (entryKind e = 0 → e.testBit 11 = false → let t := s.setTier c page 0 (entryFrame e) true
          let p := t.partAt (t.ctxAt c).part.toNat
          exec (.ctmigOffline ctx x) s = .next ((t.setPart (t.ctxAt c).part.toNat { p with free := p.free ++ [entryFrame e] }).wakeFar c page)))))

/-! Events: contexts and translation. -/

/-- TLBINV starts an invalidation, ignored while one runs or with a reserved bit; once the accesses to its range have been performed, the range leaves every TLB and walk cache and IBUSY clears. EN starts a context with its counters at zero, its last-seen positions at the present ends of the notice logs, and nothing left of an earlier enablement; its fall ends the admitted grids with code 11 and their rings halt; the fields of a context's block take what is written while EN is 0 and hold still while it is 1 (R6, R292, R294-R296, R326, R328, R329, R334, R347). What an enable and a disable do with what is still on its way (log 62) and that reserved bits are not stored (log 63) are the model's readings. -/
def Obligations.TranslationEvents : Prop :=
  (∀ (ctx : BitVec 6) (x : W64) (s : State), s.mgmt.recov = false →
    let c := ctx.toNat
    let y := s.ctxAt c
    ((y.ibusy = true ∨ bitsSet x 62 57 = true) → exec (.tlbinv ctx x) s = .next s) ∧
    (y.ibusy = false → bitsSet x 62 57 = false → x.getLsbD 63 = false →
      exec (.tlbinv ctx x) s = .next (s.setCtx c { y with ibusy := true, inv := some (x.toNat / 2 ^ 12 % 2 ^ 45, x.toNat % 2 ^ 12 + 1) })) ∧
    (y.ibusy = false → bitsSet x 62 57 = false → x.getLsbD 63 = true →
      exec (.tlbinv ctx x) s = .next (s.setCtx c { y with ibusy := true, inv := some (0, 2 ^ 45) }))) ∧
  (∀ (ctx : BitVec 6) (s : State) (lo n : Nat),
    let c := ctx.toNat
    let y := s.ctxAt c
    let busy := ∃ e ∈ s.ops, e.2.ctx = c ∧ e.2.inScratch = false ∧ ∃ a ∈ e.2.accs, a.done = false ∧ lo ≤ a.va / 4096 ∧ a.va / 4096 < lo + n
    let stays := fun (t : TlbEntry) => !(t.ctx == c && decide (lo ≤ t.page ∧ t.page < lo + n))
    y.ibusy = true → y.inv = some (lo, n) →
    (busy → exec (.tlbinvComplete ctx) s = .next s) ∧
    (¬ busy → ∃ (cores : Tab Core) (dies : Tab Die), exec (.tlbinvComplete ctx) s = .next { s.setCtx c { y with
        ibusy := false, inv := none
        walks := y.walks.filter (fun e => !decide (e.prefix_ * 2 ^ (9 * e.level) < lo + n ∧ lo < (e.prefix_ + 1) * 2 ^ (9 * e.level))) } with cores := cores, dies := dies } ∧
      (∀ k, Tab.get Core.reset cores k = { s.coreAt k with tlb := (s.coreAt k).tlb.filter stays }) ∧
      ∀ k, Tab.get Die.reset dies k = { s.dieAt k with tlb := (s.dieAt k).tlb.filter stays })) ∧
  (∀ (ctx : BitVec 6) (x : W64) (s : State), x.getLsbD 0 = true → s.mgmt.recov = false →
    let c := ctx.toNat
    let y := s.ctxAt c
    (y.en = true → exec (.contextEnable ctx x) s = .next s) ∧
    (y.en = false → ∃ t : State, exec (.contextEnable ctx x) s = .next t ∧
      t.ctxAt c = { y with
        part := BitVec.ofNat 2 (x.toNat / 64), en := true, mapgen := 0, copyNo := 0, shadows := [], retired := [], published := [], pubLeaf := []
        walks := [], remaps := [], freePages := (List.range y.shn.toNat).map (fun i => framePages ((y.shb.toNat + i) * 65536)) } ∧
      (∀ k, k ≠ c → t.ctxAt k = s.ctxAt k) ∧
      t.wgs = s.wgs ∧ t.warps = s.warps ∧ t.grids = s.grids ∧ t.clusters = s.clusters ∧ t.ops = s.ops ∧ t.parts = s.parts ∧ t.ogs = s.ogs ∧
      (∀ d < 8, t.seqOf d c = 0 ∧ (∀ m < 16, Tab.get 0 (t.dieAt d).lastSeen (16 * c + m) = (t.homeAt m).pos) ∧
        (∀ e ∈ (t.dieAt d).l2, tagCtx e.1 ≠ c) ∧ (∀ k ∈ (t.dieAt d).tlb, k.ctx ≠ c) ∧ (∀ u, ∀ b ∈ Tab.get [] (t.dieAt d).units u, tagCtx b.1 ≠ c) ∧
        (∀ k ∈ (t.dieAt d).skips, k.1 ≠ c) ∧ ∀ tag, tagCtx tag ≠ c → Tab.look (t.dieAt d).l2 tag = Tab.look (s.dieAt d).l2 tag) ∧
      (∀ e ∈ t.cores, (∀ k ∈ e.2.tlb, k.ctx ≠ c) ∧ ∀ k ∈ e.2.l1, tagCtx k.1 ≠ c) ∧
      (∀ m ∈ t.mons, m.2.ctx ≠ c) ∧ (∀ e ∈ t.copies, e.2.ctx ≠ c) ∧
      ((∀ e ∈ s.pkts, e.2.ctx ≠ c) → t.mem = s.mem ∧ t.homes = s.homes ∧ t.pkts = s.pkts))) ∧
  (∀ (ctx : BitVec 6) (x : W64) (s : State), x.getLsbD 0 = false → s.mgmt.recov = false →
    let c := ctx.toNat
    ((s.ctxAt c).en = true →
      let t := ((s.grids.filter (fun e => e.2.ctx == c)).foldl (fun u e => State.endGrid u e.1 11 0) s).releaseAll c
      exec (.contextDisable ctx x) s = .next (t.setCtx c { t.ctxAt c with en := false })) ∧
    ((s.ctxAt c).en = false → exec (.contextDisable ctx x) s = .next (s.setCtx c { s.ctxAt c with part := BitVec.ofNat 2 (x.toNat / 64) }))) ∧
  (∀ (key code detail : Nat) (s : State) (g : Grid), Tab.look s.grids key = some g →
    ∃ u : State, s.endGrid key code detail = ((u.halt g.ctx g.ring).writeStatus g.ctx g.stat code detail).unspill g.ctx g.prio ∧
      u.mem = s.mem ∧ u.pkts = s.pkts ∧ Tab.look u.grids key = none ∧ (∀ k, k ≠ key → Tab.look u.grids k = Tab.look s.grids k) ∧
      (∀ e ∈ u.clusters, e ∈ s.clusters ∧ ∀ x, Tab.look s.clusters e.1 = some x → x.grid ≠ key) ∧
      (∀ e ∈ u.wgs, ∀ x, Tab.look s.clusters (e.1 / 8) = some x → x.grid ≠ key) ∧ (∀ e ∈ u.warps, ∀ x, Tab.look s.clusters (e.1 / 256) = some x → x.grid ≠ key) ∧
      ((u.halt g.ctx g.ring).ringAt g.ctx g.ring).halt = true) ∧
  (∀ (c : Nat) (x : W64) (s : State), c < 64 → s.mgmt.recov = false →
    let y := s.ctxAt c
    let f := fun (hi lo : Nat) => x.toNat / 2 ^ lo % 2 ^ (hi + 1 - lo)
    let to_ := fun (k : Nat) (z : Ctx) => exec (.registerWrite (0xB000 + 0x80 * c + k) x) s = .next (s.setCtx c z)
    (y.en = false →
      to_ 0x08 { y with ptb := BitVec.ofNat 40 (f 51 12) } ∧ to_ 0x10 { y with skey := BitVec.ofNat 16 (f 15 0) } ∧
      to_ 0x18 { y with saveb := BitVec.ofNat 45 (f 56 12), saven := BitVec.ofNat 12 (f 11 0) } ∧
      to_ 0x20 { y with shb := BitVec.ofNat 36 (f 51 16), shn := BitVec.ofNat 16 (f 15 0) } ∧
      to_ 0x28 { y with conb := BitVec.ofNat 45 (f 56 12) } ∧ to_ 0x30 { y with conn := BitVec.ofNat 15 (f 14 0) } ∧
      to_ 0x38 { y with prvb := BitVec.ofNat 41 (f 56 16), prvg := BitVec.ofNat 16 (f 15 0) } ∧
      to_ 0x40 { y with phwm := BitVec.ofNat 20 (f 51 32), psz := BitVec.ofNat 20 (f 31 12), prvng := BitVec.ofNat 6 (f 5 0) } ∧
      to_ 0x48 { y with tplb := BitVec.ofNat 45 (f 56 12), tpln := BitVec.ofNat 12 (f 11 0) } ∧
      to_ 0x50 (if f 12 0 = 0 ∨ 4096 < f 12 0 then y else { y with monmax := BitVec.ofNat 13 (f 12 0) })) ∧
    (y.en = true → ∀ k ∈ [0x08, 0x10, 0x18, 0x20, 0x28, 0x30, 0x38, 0x40, 0x48, 0x50], to_ k y) ∧
    to_ 0x58 { y with dbgctl := BitVec.ofNat 64 (f 1 0) } ∧
    (let z := if x.getLsbD 1 then { y with merr := false } else y;
      to_ 0x78 (if y.mbusy then z else { z with mdst := BitVec.ofNat 36 (f 51 16), mdstUsed := false })) ∧
    (let u := s.setCtx c { y with wquota := BitVec.ofNat 16 (f 47 32) };
      exec (.registerWrite (0x8000 + 0x10 * c) x) s = if x.getLsbD 0 then exec (.preRequest (BitVec.ofNat 6 c)) u else .next u)) ∧
  (∀ (n : Nat) (x : W64) (s : State), s.mgmt.recov = false →
    (∀ c < 64, n < 8 → let r := s.ringAt c n
      exec (.registerWrite (0x4000 + 0x100 * c + 0x20 * n + 0x08) x) s = .next (s.setRing c n { r with
        en := x.getLsbD 31, halt := r.halt && !x.getLsbD 30
        pmax := BitVec.ofNat 2 (x.toNat / 2 ^ 28), log2n := if r.en = true ∨ x.toNat % 32 < 4 ∨ 16 < x.toNat % 32 then r.log2n else BitVec.ofNat 5 x.toNat }) ∧
      exec (.registerWrite (0x4000 + 0x100 * c + 0x20 * n) x) s =
        .next (s.setRing c n (if r.en then r else { r with rbase := BitVec.ofNat 57 (x.toNat / 2 ^ 12 % 2 ^ 45 * 4096) }))) ∧
    (n < 4 → exec (.registerWrite (0x9000 + 8 * n) x) s = .next (if x.toNat % 256 = 0 then s else s.setPart n { s.partAt n with age := BitVec.ofNat 8 x.toNat }) ∧
      exec (.registerWrite (0xD010 + 8 * n) x) s = .next (if x.toNat % 65536 = 0 then s else s.setPart n { s.partAt n with rtmo := BitVec.ofNat 16 x.toNat })) ∧
    (n < 6 → exec (.registerWrite (0xA040 + 8 * n) x) s = .next { s with mgmt := { s.mgmt with nonce := Tab.set 0 s.mgmt.nonce n x } }) ∧
    exec (.registerWrite 0xA028 x) s = .next { s with mgmt := { s.mgmt with qrej := s.mgmt.qrej && !x.getLsbD 1 } } ∧
    exec (.registerWrite 0x2008 x) s = .next { s with bfErr := s.bfErr && !x.getLsbD 2, bfRej := s.bfRej && !x.getLsbD 1 } ∧
    (n < 12 → exec (.registerWrite (0x3000 + 0x20 * n + 8) x) s = .next (s.setOg n { s.ogAt n with ref := (s.ogAt n).ref && !x.getLsbD 1 }))) ∧
  (∀ (off : Nat) (x : W64) (s : State), off % 8 ≠ 0 ∨ 0xD030 ≤ off → exec (.registerWrite off x) s = .next s)

/-! Events: Obper groups. -/

/-- A GO is refused with the reason of the first check that fails, or starts a switch: quiesce, drain, dark, train, map; entry to DARK takes the windows off the map and the mapping puts those of links that are up on it, each time with a new generation; a target's transmit filter is loaded from the policy at TRAINING, and a peer is answered only if its ID is in it; a pool link that is down has failed the second time (R279, R280, R282-R290, R324, R358, R364). The notice of a peer's write (log 65), the two stages of a link's failure (log 67) and which lanes count as narrow (log 76) are the model's readings. -/
def Obligations.ObperEvents : Prop :=
  (∀ (g : Nat) (x : W64) (s : State), x.getLsbD 7 = true → g < 12 → s.mgmt.recov = false →
    let o := s.ogAt g
    let no := fun (r : BitVec 4) => (Host.Outcome.next (s.setOg g { o with ref := true, reason := r }) : Host.Outcome State Fault Refusal)
    let p := x.toNat % 16
    (o.busy = true → exec (.ogctlGo g x) s = no 1) ∧
    (o.busy = false →
      ((bitsSet x 63 8 = true ∨ bitsSet x 6 4 = true ∨ 6 ≤ p) → exec (.ogctlGo g x) s = no 2) ∧
      (bitsSet x 63 8 = false → bitsSet x 6 4 = false → p < 6 →
        (o.pin = true → exec (.ogctlGo g x) s = no 3) ∧
        (o.pin = false → p = 1 → exec (.ogctlGo g x) s = no 4) ∧
        (o.pin = false → p ≠ 1 → o.allowed.getLsbD p = false → exec (.ogctlGo g x) s = no 5) ∧
        (o.pin = false → p ≠ 1 → o.allowed.getLsbD p = true → s.tierBehind g = true → exec (.ogctlGo g x) s = no 6) ∧
        (o.pin = false → p ≠ 1 → o.allowed.getLsbD p = true → s.tierBehind g = false →
          (o.st = .active → o.pers.toNat = p → exec (.ogctlGo g x) s = no 7) ∧
          (o.st = .active → o.pers.toNat ≠ p →
            exec (.ogctlGo g x) s = .next (s.setOg g { o with st := .quiescing, tgt := BitVec.ofNat 4 x.toNat, busy := true, acks := [] })) ∧
          ((o.st = .dark ∨ o.st = .failed) → p ≠ 0 →
            exec (.ogctlGo g x) s = .next (s.setOg g { o with st := .dark, tgt := BitVec.ofNat 4 x.toNat, busy := true })))))) ∧
  (∀ (g core : Nat) (s : State), (s.ogAt g).st = .quiescing → core < 192 →
    let o := s.ogAt g
    let acks := insertNat core o.acks
    ((∃ k < 192, (s.dieAt (k / 24)).fenced = false ∧ k ∉ acks) → exec (.drainingMarkAck g core) s = .next (s.setOg g { o with acks := acks })) ∧
    ((∀ k < 192, (s.dieAt (k / 24)).fenced = false → k ∈ acks) → (∀ e ∈ s.reductions, e.2.group ≠ some g) →
      exec (.drainingMarkAck g core) s = .next (s.setOg g { o with st := .draining, acks := acks }))) ∧
  (∀ (g : Nat) (s : State), (s.ogAt g).st = .draining →
    (s.inFlight g = false → exec (.ogDrainDone g) s = .next (s.enterDark g)) ∧
    exec (.ogDrainTimeout g) s = .next (((s.resend g).cancelTo (s.ogAt g).carries).enterDark g) ∧ ((s.ogAt g).pers ≠ 5 → s.resend g = s) ∧
    (s.dies = [] → s.dca = [] → ∃ warps, s.enterDark g = { s.setOg g { s.ogAt g with
        st := .dark, pers := 0, lanes := 0, windows := [], acks := [], downLinks := [], filter := Filter.none, busy := (s.ogAt g).tgt != 0 } with
      warps := warps, mapGen := s.mapGen + 1, firefly := { s.firefly with narrow := s.firefly.narrow &&& ~~~(1#12 <<< g) } })) ∧
  (∀ (g : Nat) (lanes : BitVec 16) (s : State),
    let o := s.ogAt g
    (o.st = .dark → o.tgt ≠ 0 → o.busy = true → s.mgmt.recov = false → exec (.ogDarkTimer g) s = .next (s.setOg g { o with
      st := .training, failedLinks := [], filter := Tab.get Filter.none o.filters o.tgt.toNat })) ∧
    (o.st = .training → exec (.ogTrainTimeout g) s = .next { s.setOg g { o with
      st := .failed, reason := 8, busy := false, tgt := 0, lanes := 0, filter := Filter.none } with firefly := { s.firefly with narrow := s.firefly.narrow &&& ~~~(1#12 <<< g) } }) ∧
    (o.st = .training → o.tgt = 2 → lanes = BitVec.allOnes 16 → exec (.ogTrainUp g lanes) s = .next
      { s.setOg g { o with st := .mapping, pers := 2, lanes := BitVec.allOnes 16, downLinks := [] } with
        firefly := { s.firefly with narrow := s.firefly.narrow &&& ~~~(1#12 <<< g), repl := s.firefly.repl || (s.firefly.narrow &&& ~~~(1#12 <<< g)) != 0 } }) ∧
    (o.st = .training → o.tgt = 3 → lanes = 0xFF#16 → exec (.ogTrainUp g lanes) s = .next
      { s.setOg g { o with st := .mapping, pers := 3, lanes := 0xFF#16, downLinks := [1] } with
        firefly := { s.firefly with narrow := s.firefly.narrow ||| 1#12 <<< g, repl := s.firefly.repl || (s.firefly.narrow ||| 1#12 <<< g) != 0 } }) ∧
    (o.st = .training → o.tgt = 2 → lanes = 0xFFF0#16 → exec (.ogTrainUp g lanes) s = .next
      { s.setOg g { o with st := .mapping, pers := 2, lanes := 0x0FF0#16, downLinks := [] } with
        firefly := { s.firefly with narrow := s.firefly.narrow ||| 1#12 <<< g, repl := s.firefly.repl || (s.firefly.narrow ||| 1#12 <<< g) != 0 } }) ∧
    (o.st = .training → o.tgt = 2 → lanes = 0x7#16 → exec (.ogTrainUp g lanes) s = .next s) ∧
    (o.st = .mapping → exec (.ogMappingDone g) s = .next { s.setOg g { o with
      st := .active, windows := o.plan.filter (fun w => decide (w.pers = o.pers.toNat) && !o.downLinks.contains w.link), busy := false, joined := (s.mapGen + 1).toNat } with mapGen := s.mapGen + 1 })) ∧
  (∀ (g link : Nat) (s : State),
    let o := s.ogAt g
    o.st = .active → o.isPool = true → link < (if o.pers = 3 then 2 else 1) → link ∉ o.failedLinks →
    (link ∉ o.downLinks → exec (.linkDown g link) s = .next (s.setOg g { o with downLinks := insertNat link o.downLinks })) ∧
    (link ∈ o.downLinks → exec (.linkDown g link) s = .next (s.failLink g link)) ∧
    exec (.linkRetrain g link) s = .next (s.setOg g { o with downLinks := o.downLinks.filter (· != link) })) ∧
  (∀ (g port who pa : Nat) (op : PeerOp) (s : State), who ∉ (s.ogAt g).filter.accels → exec (.peerTransaction g port pa ⟨who, op⟩) s = .next s) ∧
  (∀ (g port who pa n : Nat) (d : List Byte) (f : AtomOp) (wide : Bool) (x swp : W64) (s : State),
    let o := s.ogAt g
    let key := cellOf pa
    let z := if wide then 8 else 4
    o.st = .active → o.pers = 4 → port < 4 → laneField o.lanes (4 * port) 4 ≠ 0 → who ∈ o.filter.accels → isHbm key = true → isCarveOut key = false → s.isRetired key = false →
    s.biasState key = 0 →
    (pa % 64 + n ≤ 64 → exec (.peerTransaction g port pa ⟨who, .read n⟩) s = .next { s with peerResp := s.peerResp ++ [(pa, readBytes s.mem key n)] }) ∧
    (pa % 64 + d.length ≤ 64 → exec (.peerTransaction g port pa ⟨who, .write d⟩) s = .next ((s.writeHome key d).notice key (s.biasCtx key) 2 0 0)) ∧
    (pa % z = 0 → exec (.peerTransaction g port pa ⟨who, .atomic f wide x swp⟩) s = .next
      { (s.writeHome key (leBytes z (atomNew f z (bytesToNat (readBytes s.mem key z)) x.toNat swp.toNat))).notice key (s.biasCtx key) 2 0 0 with
        peerResp := s.peerResp ++ [(pa, readBytes s.mem key z)] }))

/-! Events: the host. -/

/-- BFLIP is rejected while a command runs and sets ERR on an error condition; OP 00 writes CTX to each entry and leaves its state; a page flips to host bias when the dies have given it up and to device bias when every snoop is answered; a snoop of a flip that is not answered leaves the page in host bias with ERR set (R269, R271). -/
def Obligations.BiasEvents : Prop :=
  (∀ (x : W64) (s : State), s.flip.isSome = true → s.mgmt.recov = false →
    exec (.bflipSetCtx x) s = .next { s with bfRej := true } ∧ exec (.bflipToHost x) s = .next { s with bfRej := true } ∧
    exec (.bflipToDev x) s = .next { s with bfRej := true } ∧ exec (.bflipReserved x) s = .next { s with bfRej := true }) ∧
  (∀ (x : W64) (s : State), s.flip = none → s.mgmt.recov = false → exec (.bflipReserved x) s = .next { s with bfErr := true } ∧
    (flipBad x = true → exec (.bflipSetCtx x) s = .next { s with bfErr := true } ∧ exec (.bflipToHost x) s = .next { s with bfErr := true } ∧
      exec (.bflipToDev x) s = .next { s with bfErr := true })) ∧
  (∀ (x : W64) (s : State), s.flip = none → s.mgmt.recov = false → flipBad x = false → ∃ t : State,
    exec (.bflipSetCtx x) s = .next t ∧ t = { s with bias := t.bias } ∧
    (∀ key ∈ (flipPages x).map cellOf, t.biasCtx key = x.toNat / 2 ^ 56 % 64 ∧ t.biasState key = s.biasState key) ∧
    exec (.bflipToHost x) s = .next (t.startFlip { toHost := true, pages := ((flipPages x).map (fun a => cellOf a / 4096)).filter (fun p => t.biasState (4096 * p) != 1) }) ∧
    exec (.bflipToDev x) s = .next (t.startFlip { toHost := false, pages := ((flipPages x).map (fun a => cellOf a / 4096)).filter (fun p => t.biasState (4096 * p) != 0) })) ∧
  (∀ (page : Nat) (s : State) (f : Flip), s.flip = some f → f.pages.head? = some page →
    (f.toHost = true → (s.flushPage page).pageBusy page = false →
      exec (.d2hDrainComplete page) s = .next ((((s.flushPage page).setBiasState page 1).retryHeld (fun r => r.line / 64 == page)).startFlip { f with pages := f.pages.tail })) ∧
    (f.toHost = false → (∀ x ∈ s.snoops, x.line / 64 ≠ page) → s.pageBusy page = false →
      exec (.h2dDrainComplete page) s = .next (((s.setBiasState page 0).retryHeld (fun r => r.line / 64 == page)).startFlip { f with pages := f.pages.tail }))) ∧
  (∀ (line page : Nat) (rest : List Nat) (s : State), s.flip = some { toHost := false, pages := page :: rest } → (∃ x ∈ s.snoops, x.line = line ∧ x.flip = true) → s.held = [] →
    exec (.biasSnoopTimeout line) s = .next { s.setBiasState page 1 with
      flip := none, bfErr := true, snoops := s.snoops.map (fun (x : Snoop) => { x with flip := false }) })

/-- The host reads and writes HBM lines at their homes, a write in device bias with its notice; what must wait is held, in order; the answer to a snoop applies its writeback first; an access outside the host's window gets a poisoned or aborted answer; lines of a shared pool window are given up, or shared, on a snoop of the pool (R267, R270-R275). What the host sees of a line that a PUBLISH has moved (log 89) and in recovery (log 72) is the model's reading. -/
def Obligations.HostEvents : Prop :=
  (∀ (pa : Nat) (cache : Bool) (s : State),
    let asked := cellOf pa / 64
    let line := s.hostLine asked
    (s.hostSees pa = false → exec (.memrd pa cache) s = .next { s with hostResp := s.hostResp ++ [(asked, none)] }) ∧
    (s.hostSees pa = true →
      ((s.biasState (64 * line) = 2 ∨ (∃ x ∈ s.snoops, x.line = line ∧ x.inv = true ∧ x.applied = false)) →
        exec (.memrd pa cache) s = .next { s with held := s.held ++ [.rd line cache asked] }) ∧
      (s.biasState (64 * line) = 0 → s.snoops = [] → s.held = [] →
        exec (.memrd pa cache) s = .next { s with hostResp := s.hostResp ++ [(asked, if line ∈ s.memPoison then none else some (readBytes s.mem (64 * line) 64))] }))) ∧
  (∀ (pa : Nat) (data : List Byte) (s : State),
    let line := s.hostLine (cellOf pa / 64)
    let key := 64 * line + cellOf pa % 64
    let applied := s.snoops.map (fun x => if x.line = line then { x with applied := true } else x)
    (64 < pa % 64 + data.length → exec (.memwr pa data) s = .next s) ∧
    (pa % 64 + data.length ≤ 64 → s.hostSees pa = false → exec (.memwr pa data) s = .next { s with hostResp := s.hostResp ++ [(cellOf pa / 64, none)] }) ∧
    (s.hostSees pa = true → pa % 64 + data.length ≤ 64 →
      (s.biasState (64 * line) = 2 → (∀ x ∈ s.snoops, x.line ≠ line) → exec (.memwr pa data) s = .next { s with held := s.held ++ [.wr key data] }) ∧
      (s.biasState (64 * line) = 0 → s.biasState key = 0 → s.held = [] →
        exec (.memwr pa data) s = .next (State.notice { s.writeHome key data with snoops := applied } key (s.biasCtx key) 2 0 0)) ∧
      (s.biasState (64 * line) = 1 → s.biasState key = 1 → s.held = [] → exec (.memwr pa data) s = .next { s.writeHome key data with snoops := applied }))) ∧
  (∀ (line : Nat) (s : State) (x : Snoop), s.snoops.find? (fun x => x.line == line) = some x → s.held = [] →
    (x.inv = true → ∀ d, exec (.birsp line true d) s = .next s) ∧
    exec (.birsp line false none) s = .next { s with snoops := s.snoops.erase x, hostDir := Tab.del s.hostDir line } ∧
    (∀ d : List Byte, exec (.birsp line false (some d)) s = .next { s.writeHome (64 * line) (d.take 64) with snoops := s.snoops.erase x, hostDir := Tab.del s.hostDir line }) ∧
    (x.inv = false → exec (.birsp line true none) s = .next { s with
      snoops := s.snoops.erase x, hostDir := Tab.mod s.hostDir line (fun _ => { excl := false }) })) ∧
  (∀ (line : Nat) (s : State) (m : Nat × Mon), Tab.look s.hostDir line = some { excl := true } → m ∈ s.mons → m.2.armed = true → m.2.scr = false →
    s.monLevel m.2 = 3 → m.2.key / 64 = line → s.biasState (64 * line) = 1 → s.snooped line = false →
    exec (.bisnpdataMonitor line) s = .next { s with snoops := s.snoops ++ [{ line := line, inv := false, flip := false }] }) ∧
  (∀ (line : Nat) (s : State), s.isPoolLine line = true →
    ∃ t : State, exec (.poolBisnpinv line) s = .next t ∧ Tab.look t.dca line = none ∧ (∀ e ∈ t.dies, ∀ x ∈ e.2.pool, x.1 ≠ line) ∧
      (s.poolDirty line = false → t.mem = s.mem) ∧ (s.poolDirty line = true → t.mem = (s.writeHome (64 * line) (s.poolData line)).mem) ∧
      t = { s with mem := t.mem, memPoison := t.memPoison, mons := t.mons, dies := t.dies, dca := t.dca }) ∧
  (∀ (line : Nat) (l : DcaLine) (s : State), s.isPoolLine line = true → Tab.look s.dca line = some l →
    ∃ t : State, exec (.poolBisnpdata line) s = .next t ∧ Tab.look t.dca line = some { l with st := .s, data := none, poison := false } ∧
      (∀ e ∈ t.dies, ∀ x ∈ e.2.pool, x.1 = line → x.2.st = .s) ∧
      (s.poolDirty line = false → t.mem = s.mem) ∧ (s.poolDirty line = true → t.mem = (s.writeHome (64 * line) (s.poolData line)).mem))

/-! Events: failures and management. -/

/-- An error marks its site and nothing else; a dirty sector lost at eviction is charged to its context and its diff sent as PZ, one whose twin alone is bad is sent whole; a lost mesh link aborts the partitions that use it or that it cuts, and fences a die left without a link; a fenced die's clusters are offered again or end their contexts; a reduction completes with its last contribution, fails with a participant, or times out, and what comes late or twice is discarded (R14, R237, R355-R363). The numbers of the mesh links (log 70), what a fenced die loses (log 68), ERRCNT of a twin (log 69) and late contributions (log 66) are the model's. -/
def Obligations.FailureEvents : Prop :=
  (∀ (s : State),
    (∀ pa, ∃ l : List Nat, exec (.uncorrectableError (.memory pa)) s = .next { s with memPoison := l } ∧ ∀ k, k ∈ l ↔ k = cellOf pa / 64 ∨ k ∈ s.memPoison) ∧
    (∀ warp reg lane (w : Warp), Tab.look s.warps warp = some w → reg < 254 → lane < 32 →
      ∃ l : List Nat, exec (.uncorrectableError (.register warp reg lane)) s = .next { s with warps := Tab.put s.warps warp { w with vPoison := l } } ∧
        ∀ k, k ∈ l ↔ k = 32 * reg + lane ∨ k ∈ w.vPoison) ∧
    (∀ wg a (w : Wg), Tab.look s.wgs wg = some w →
      ∃ l : List Nat, exec (.uncorrectableError (.scratch wg a)) s = .next { s with wgs := Tab.put s.wgs wg { w with scrPoison := l } } ∧ ∀ k, k ∈ l ↔ k = a / 8 ∨ k ∈ w.scrPoison) ∧
    (∀ wg tile idx (w : Wg), Tab.look s.wgs wg = some w → idx < 4096 →
      ∃ l : List Nat, exec (.uncorrectableError (.accumulator wg tile idx)) s = .next { s with wgs := Tab.put s.wgs wg { w with accPoison := l } } ∧
        ∀ k, k ∈ l ↔ k = 4096 * tile + idx ∨ k ∈ w.accPoison) ∧
    (∀ die ctx pa, (∀ x, Tab.look (s.dieAt die).l2 (tagOf ctx (cellOf pa)) = some x →
        exec (.uncorrectableError (.dieCopy die ctx pa)) s = .next (s.setL2 die (tagOf ctx (cellOf pa)) { x with poison := true })) ∧
      (Tab.look (s.dieAt die).l2 (tagOf ctx (cellOf pa)) = none → exec (.uncorrectableError (.dieCopy die ctx pa)) s = .next s))) ∧
  (∀ (die : BitVec 3) (ctx pa : Nat) (twin : Bool) (s : State),
    let d := die.toNat
    let tag := tagOf ctx (cellOf pa)
    ((∀ x, Tab.look (s.dieAt d).l2 tag = some x → x.twin = none) → exec (.poisonErrorEvict die ctx pa twin) s = .next s) ∧
    (∀ x, Tab.look (s.dieAt d).l2 tag = some x → x.twin ≠ none → cellOf pa < 2 ^ 58 →
      ∃ (dies : Tab Die) (e : Die), exec (.poisonErrorEvict die ctx pa twin) s = .next { s.setCtx ctx { s.ctxAt ctx with errcnt := (s.ctxAt ctx).errcnt + 1 } with
          firefly := { s.firefly with repl := true }, nextId := s.nextId + 1, dies := dies
          pkts := Tab.put s.pkts s.nextId {
            die := d, ctx := ctx, kind := 2, seq := (s.seqOf d ctx).toNat, sector := tagSector tag
            runs := if twin && !x.poison then [(0, x.data)] else [], pz := !(twin && !x.poison), drop := true, applied := false } } ∧
        (∀ j, Tab.get Die.reset dies j = if j = d then e else s.dieAt j) ∧ e = { s.dieAt d with l2 := e.l2, early := e.early } ∧
        ∀ k, Tab.look e.l2 k = if k = tag then some { x with twin := none, age := s.nextId, poison := !(twin && !x.poison) } else Tab.look (s.dieAt d).l2 k)) ∧
  (∀ (link : Nat) (parts : BitVec 4) (s : State),
    ((60 ≤ link ∨ link ∈ s.meshDown) → exec (.meshLinkFail link parts) s = .next s) ∧
    (link < 60 → link ∉ s.meshDown →
      let down := insertNat link s.meshDown
      let t := { s with meshDown := down, firefly := { s.firefly with linkdn := s.firefly.linkdn + 1, repl := true } }
      let hit := (s.parts.filter (fun e => parts.getLsbD e.1 || (cutDies down).any e.2.holdsDie)).map (·.1)
      exec (.meshLinkFail link parts) s = .next ((lonelyDies down).foldl dieLost (hit.foldl partEnded t)))) ∧
  (∀ (die : BitVec 3) (s : State), exec (.cdieFence die) s = .next (dieLost s die.toNat)) ∧
  (∀ (red who : Nat) (x : Contribution) (s : State) (r : Reduction), Tab.look s.reductions red = some r →
    ((r.res ≠ 0 ∨ who ∈ r.got ∨ who ∉ r.need) → exec (.reductionContribution red who x) s = .next s) ∧
    (r.res = 0 → who ∈ r.need → who ∉ r.got →
      (x = .failed → exec (.reductionContribution red who x) s = .next (told { s with reductions := Tab.put s.reductions red { r with res := 2, sum := 0 } } r 2)) ∧
      (∀ v fl, given (slotOf r.slot) x = some (v, fl) →
        let y := if r.got = [] then (v, 0) else addWfx (wfxOfBits r.sum.toNat) v
        let r' := { r with
          sum := BitVec.ofNat 96 (wfxBits y.1), sat := r.sat || ((fl ||| y.2) &&& flSAT) != 0, got := insertNat who r.got, first := if r.got = [] then s.clock else r.first }
        ((∃ w ∈ r.need, w ∉ r'.got) → exec (.reductionContribution red who x) s = .next { s with reductions := Tab.put s.reductions red r' }) ∧
        ((∀ w ∈ r.need, w ∈ r'.got) → exec (.reductionContribution red who x) s = .next (reduced s red r'))))) ∧
  (∀ (red : Nat) (s : State) (r : Reduction), Tab.look s.reductions red = some r →
    (r.res = 0 → r.got ≠ [] → (s.partAt r.part).rtmo.toNat * 2700000 ≤ (s.clock - r.first).toNat →
      exec (.reductionTimeout red) s = .next (told { s with reductions := Tab.put s.reductions red { r with res := 3, sum := 0 } } r 3)) ∧
    ((r.res ≠ 0 ∨ r.got = [] ∨ (s.clock - r.first).toNat < (s.partAt r.part).rtmo.toNat * 2700000) → exec (.reductionTimeout red) s = .next s))

/-- Module reset leaves everything as after reset but memory and the policy in flash, and the boot ends ready under the policy or in recovery, where every group is dark and no register answers but the management controller's; measurements, quotes, the power request, Firefly's beacon and the retirement of a stack (R322, R324-R326, R364, R365). That module reset keeps memory (log 71), the policy it installs (log 5) and the bit that throttling toggles (log 73) are the model's choices. -/
def Obligations.ManagementEvents : Prop :=
  (∀ (s : State) (bad : Option (BitVec 3)),
    let z := { State.reset with mem := s.mem, memPoison := s.memPoison, draws := s.draws, nextId := s.nextId, policy := s.policy }
    let recovery := fun (n : Nat) => { z with
      mgmt := { Mgmt.reset.boot s.policy.serial n with stage := BitVec.ofNat 4 n, recov := true, idok := true }
      ogs := (List.range 12).map (fun g => (g, { Og.ofPolicy (s.policy.group g) with st := .dark, pers := 0, tgt := 0, lanes := 0, windows := [], filter := Filter.none })) }
    (bad = none → s.policy.valid = true → exec (.moduleReset bad) s = .next { z with
      ogs := s.policy.groups.map (fun e => (e.1, Og.ofPolicy e.2)), parts := s.policy.parts
      mgmt := { Mgmt.reset.boot s.policy.serial 4 with stage := 5, polok := true, idok := true, ready := true, limit := BitVec.ofNat 13 s.policy.limit } }) ∧
    (bad = none → s.policy.valid = false → exec (.moduleReset bad) s = .next (recovery 3)) ∧
    (∀ k, bad = some k → 1 ≤ k.toNat → k.toNat ≤ 4 → exec (.moduleReset bad) s = .next (recovery (k.toNat - 1))) ∧
    (∀ k, bad = some k → (k = 0 ∨ 4 < k.toNat) → exec (.moduleReset bad) s = .next s)) ∧
  (∀ (serial k n : Nat), k ≤ 4 → Tab.get 0 (Mgmt.reset.boot serial k).meas n =
    if n < k then digestOf (sha384 (digestBytes 0 ++ digestBytes (if n = 3 then Config.policyDigest serial else Config.imageDigest n))) else 0) ∧
  (∀ p : Policy, p.valid = true → p.limit ≤ 4000 ∧ p.parts.length ≤ 4 ∧
    ∃ g < 12, (p.group g).pin = true ∧ (p.group g).pers = 1 ∧ ∀ h < 12, (p.group h).pin = true → h = g) ∧
  (∀ (s : State) (c : BitVec 6) (r : BitVec 3) (t : BitVec 32) (x : W64) (g : Nat), s.mgmt.recov = true →
    ∀ i ∈ ([.rtailWrite c r t, .haltClear c r, .preRequest c, .contextEnable c x, .contextDisable c x, .tlbinv c x, .ctmigBringNear c x, .ctmigMoveFar c x
            , .ctmigOffline c x, .ctmigReserved c x, .bflipSetCtx x, .bflipToHost x, .bflipToDev x, .bflipReserved x, .ogctlGo g x, .retm x
            , .ogDarkTimer g] : List Instr), exec i s = .next s) ∧
  (∀ (x : W64) (s : State),
    let m := s.mgmt
    (m.ext.length < 5 → exec (.measext x) s = .next { s with mgmt := { m with ext := m.ext ++ [x] } }) ∧
    (m.ext.length = 5 → exec (.measext x) s = .next { s with mgmt := { m with
      meas := Tab.set 0 m.meas m.sel.toNat (digestOf (sha384 (digestBytes (Tab.get 0 m.meas m.sel.toNat) ++ (m.ext ++ [x]).flatMap (fun w => natToBytes 8 w.toNat)))), ext := [] } }) ∧
    (x.toNat % 8 < 4 → exec (.meassel x) s = .next { s with mgmt := { m with ext := [] } }) ∧
    (4 ≤ x.toNat % 8 → exec (.meassel x) s = .next { s with mgmt := { m with ext := [], sel := BitVec.ofNat 3 x.toNat } }) ∧
    (x.getLsbD 0 = true → m.qbusy = true → exec (.attcmdGo x) s = .next { s with mgmt := { m with qrej := true } }) ∧
    (x.getLsbD 0 = true → m.qbusy = false → exec (.attcmdGo x) s = .next { s with mgmt := { m with
      qbusy := true, qdst := x.toNat % 2 ^ 57 / 128 * 128, qnonce := digestOf m.nonceBytes, quote := (List.range 8).map (fun i => Tab.get 0 m.meas i) } }) ∧
    (m.qbusy = true → m.recov = false → exec .quoteDone s = .next { s.writeHome (hostCell m.qdst) (m.quoteBytes s.policy.serial) with mgmt := { m with qbusy := false } }) ∧
    (m.qbusy = true → m.recov = true → exec .quoteDone s = .next { s with mgmt := { m with qbusy := false } }) ∧
    (x.toNat % 2 ^ 13 < 1000 → exec (.pwrreq x) s = .next s) ∧
    (1000 ≤ x.toNat % 2 ^ 13 → exec (.pwrreq x) s = .next { s with mgmt := { m with pwrreq := BitVec.ofNat 13 x.toNat } }) ∧
    exec .powerCapThrottle s = .next { s with mgmt := { m with throttled := !m.throttled } } ∧
    exec .fireflyBeacon s = .next { s with firefly := { s.firefly with beacons := s.firefly.beacons + 1 } } ∧
    (m.recov = false → (s.homeAt (x.toNat % 16)).fenced = false → exec (.retm x) s = .next { s.setHome (x.toNat % 16) { s.homeAt (x.toNat % 16) with fenced := true, ring := [] } with
      firefly := { s.firefly with
        retired := s.firefly.retired ||| 1#16 <<< (x.toNat % 16), repl := true
        overLoss := s.firefly.overLoss || decide (3 ≤ laneCount (s.firefly.retired ||| 1#16 <<< (x.toNat % 16))) } }))

/-! Words and their encodings. -/

/-- Decoding the word of a well-formed instruction gives that instruction back; what a word decodes to is a well-formed instruction word that encodes it, so no two words mean one instruction; clause headers likewise (R74, R75, R81, R84-R93). -/
def Obligations.DecodeEncode : Prop :=
  (∀ i : Instr, i.isWord = true → i.wf = true → decode (encode i) = some i) ∧
  (∀ (w : W64) (i : Instr), decode w = some i → i.isWord = true ∧ i.wf = true ∧ encode i = w) ∧
  (∀ x : Header, isHeader (encodeHeader x) = true ∧ parseHeader (encodeHeader x) = x) ∧
  (∀ w : W64, isHeader w = true → headerOk w = true → encodeHeader (parseHeader w) = w)

/-- Words written out from the encoding tables decode to the instructions they stand for, and words that break a check decode to none (R81, R84, R86, R91, R93). -/
def Obligations.DecodeWords : Prop :=
  decode 0x000E000000000000#64 = some (.nop ⟨0, 7⟩) ∧
  decode 0x001E000000000000#64 = none ∧
  decode 0x320E060A08000000#64 = some (.iadd ⟨0, 7⟩ 3 (.v 5) (.v 4)) ∧
  decode 0x320FFE0A08000000#64 = some (.iadd ⟨0, 7⟩ 255 (.v 5) (.v 4)) ∧
  decode 0x320FFC0A08000000#64 = none ∧
  decode 0xE12E8A0000300000#64 = none ∧
  decode 0xE90E000000000000#64 = some .mend ∧
  decode 0xE92E000000000000#64 = none ∧
  decode 0x3D0E000000000000#64 = none

/-- A turn issues what the decoder reads: the fetched word of the split that holds the issue, when it belongs to the clause's class and decodes, runs as its instruction, after which the pair goes on and a cycle passes; a word that a sequencer fetches likewise; and an event at the head of the agenda happens (R95, R98, R183, R300). The agenda, and the cycle that passes with a word, are the model's (log 4, log 26). -/
def Obligations.StepRunsDecoded : Prop :=
  (∀ (s : State) (v : View) (w : W64) (i : Instr) (c : ClauseCtx), s.agenda = [] → s.cur = some (.warp v.key) → s.view v.key = some v → s.mayIssue v = true →
    s.fetchCode v.wg.core v.g.ctx (v.w.pcOf v.w.split) = .word w → (v.w.thread (lowLane v.w.split)).cl = some c → opClass (wOp w) = some c.cls → decode w = some i →
    step s = mapNext (exec i { s.beforeWord v with cur := some (.warp v.key) }) (fun t => t.issued v)) ∧
  (∀ (s : State) (r : SeqRun) (w : W64) (i : Instr) (c : ClauseCtx), s.agenda = [] → s.cur = some (.seq r.key) → s.curSeq = some r → s.seqReady r = true →
    r.q.cl = some c → s.fetchCode r.wg.core r.g.ctx r.q.pc = .word w → opClass (wOp w) = some c.cls → decode w = some i →
    step s = mapNext (exec i (s.modSeq r.key (fun _ => r.q))) (fun t => { t with cur := none })) ∧
  (∀ (s : State) (i : Instr) (rest : List Turn), s.agenda = .event i :: rest → step s = exec i { s with agenda := rest })

/-! The whole machine. -/

/-- The memory of the reset state is in its canonical form. What an unlisted byte reads as is the model's choice (log 2). -/
def Obligations.MemWfReset : Prop := Memory.wf State.reset.mem = true

/-- Every step keeps memory in its canonical form: addresses strictly rising, and no entry that reads as an unlisted address does. What an unlisted byte reads as is the model's choice (log 2). -/
def Obligations.StepKeepsMemWf : Prop := ∀ s t : State, Memory.wf s.mem = true → step s = .next t → Memory.wf t.mem = true

/-- After module reset no context is enabled and no ring runs; the registers to which the spec gives a reset value hold it; the homes' logs and the dies' positions stand at zero; no grid, warp or copy exists; the clock counts from zero (R67, R259, R260, R292, R296, R322, R326, R328, R364). That a home's position starts at 0 is the model's choice (log 3). -/
def Obligations.ResetState : Prop :=
  (∀ c, (State.reset.ctxAt c).en = false ∧ (State.reset.ctxAt c).monmax = 1024 ∧ (State.reset.ctxAt c).mapgen = 0 ∧ (State.reset.ctxAt c).slips = 0) ∧
  (∀ c r, (State.reset.ringAt c r).en = false ∧ (State.reset.ringAt c r).halt = false ∧ (State.reset.ringAt c r).rhead = 0 ∧ (State.reset.ringAt c r).rtail = 0) ∧
  (∀ m, (State.reset.homeAt m).pos = 0 ∧ (State.reset.homeAt m).fenced = false) ∧
  (∀ d c m, (State.reset.dieAt d).fenced = false ∧ Tab.get 0 (State.reset.dieAt d).lastSeen (16 * c + m) = 0) ∧
  (∀ n, Tab.get 0 State.reset.mgmt.meas n = 0) ∧ State.reset.mgmt.ready = false ∧ State.reset.mgmt.stage = 0 ∧ State.reset.mgmt.pwrreq = 4000 ∧ State.reset.mgmt.sel = 4 ∧
  State.reset.firefly.retired = 0 ∧ State.reset.firefly.cdlost = 0 ∧ State.reset.firefly.linkdn = 0 ∧ State.reset.firefly.repl = false ∧
  State.reset.clock = 0 ∧ State.reset.grids = [] ∧ State.reset.warps = [] ∧ State.reset.copies = []

/-- A fault is taken precisely: a word of class 1, 2 or 3 that fails a check before it issues has no effect; its split parks on a record with the cause, the split, the threads that raised it, the word's address, its DETAIL and the clock. A fetched word that does not decode does the same with illegal-instruction; where its guard is false in every thread, it passes; a word past the budget raises the watchdog fault (R95-R97, R304, R343-R345). What is counted towards the budget is the model's reading (log 10, log 38). -/
def Obligations.TrapTaken : Prop :=
  (∀ (i : Instr) (row : ValueRow) (s : State) (v : View) (c : Nat) (d : W64),
    (intRow i = some row ∨ fp32Row i = some row ∨ fp64Row i = some row ∨ packedRow i = some row ∨ predRow i = some row) →
    s.curView = some v → Settled row.head.dist.toNat v.w.split v.w.hazards →
    (enabled v row.head ≠ 0 → (valuePre none row.dst row.os).check v v.w.split (encode i) = some (c, d) →
      ∃ t, Filed t s (recordOf s v (v.w.pcOf v.w.split) v.w.split [(c, enabled v row.head)] d 0) ∧
        exec i s = .next (t.modWarp v.key (fun w => w.park v.w.split (.record s.nextId)))) ∧
    (enabled v row.head = 0 → v.w.cost ≤ v.w.budget → exec i s = .next (after s v (passed v row.head))) ∧
    (v.w.budget = 0 → enabled v row.head = 0 → v.w.cost = 1 → v.w.split ≠ 0 →
      ∃ t, Filed t s (recordOf s v (v.w.pcOf v.w.split) v.w.split [(causeWatchdog, v.w.split)] (BitVec.ofNat 64 v.g.ceiling) 0) ∧
        exec i s = .next (t.modWarp v.key (fun w => w.park v.w.split (.record s.nextId))))) ∧
  (∀ (s : State) (v : View) (w : W64) (c : ClauseCtx) (en : Mask), s.agenda = [] → s.cur = some (.warp v.key) → s.view v.key = some v → s.mayIssue v = true →
    s.fetchCode v.wg.core v.g.ctx (v.w.pcOf v.w.split) = .word w → (v.w.thread (lowLane v.w.split)).cl = some c →
    ({ v.w with hazards := age (wHead w).dist.toNat v.w.split v.w.hazards } : Warp).enabled s.draws (wHead w) v.w.split = en → (wHead w).guard ≠ 0xF#4 → en ≠ 0 →
    (v.w.pair.map Pair.b = some 0) →
    ((opClass (wOp w) = none ∨ (opClass (wOp w) = some c.cls ∧ decode w = none)) →
      step s = .next ((s.raise v v.w.split [(causeIllegal, en)] w).issued v)) ∧
    (∀ k, opClass (wOp w) = some k → k ≠ c.cls → step s = .next ((s.raise v v.w.split [(causeClass, en)] w).issued v)))

/-- A warp of a placed cluster starts with its threads at the kernel's entry in the root team, s1 to s8 holding the arguments, no flag raised and its budget full; a workgroup starts with its tiles empty, its queues empty, and one root team of its threads (R66, R121, R304). -/
def Obligations.LaunchState : Prop :=
  ∀ (g : Grid) (cluster wgid core wid : Nat),
    let w := launchWarp g cluster wgid wid
    let u := launchWg g cluster wgid core
    (∀ n, w.sreg n = if 1 ≤ n ∧ n ≤ 8 then g.arg (n - 1) else 0) ∧ (∀ r l, w.vreg r l = 0) ∧ (∀ f, w.flag f = 0) ∧ w.fpflags = 0 ∧ w.budget = 16 * g.ceiling ∧
    w.quota = 8 * g.regq ∧
    (∀ l, l < 32 → (w.thread l).live = true → (w.thread l).st = .ready ∧ (w.thread l).team = 0 ∧ (w.thread l).cl = none) ∧
    (∀ n t, Tab.look u.tiles n = some t → t.st = .empty) ∧ u.qa = [] ∧ u.qm = [] ∧ u.acc = [] ∧
    Tab.look u.teams 0 = some (Team.root (32 * (g.nwarps - 1) + g.lastw)) ∧ (∀ k, k ≠ 0 → Tab.look u.teams k = none) ∧
    (u.seq = none ↔ g.mstream = 0)

/-- NOP has no effect beyond its DIST: on any guard, the word passes, counted and its distance honoured, and nothing else changes; every other field of a word that decodes to it is zero. -/
def Obligations.NopPasses : Prop :=
  (∀ (h : Head) (s : State) (v : View), s.curView = some v → v.w.cost ≤ v.w.budget → exec (.nop h) s = .next (after s v (passed v h))) ∧
  (∀ (w : W64) (h : Head), decode w = some (.nop h) → w.toNat / 2 ^ 56 = 0 ∧ w.toNat % 2 ^ 49 = 0)

/-- QSTAT, OP 0xF9 of class 9, writes sd once for the split with the number of entries in qa or qm; its other bits are zero, and a CMP field above 1 decodes to no instruction, which raises illegal-instruction. -/
def Obligations.QstatCounts : Prop :=
  opClass 0xF9 = some 9 ∧
  (∀ (h : Head) (sd : BitVec 6) (qm : Bool) (s : State) (v : View), Ready (.qstat h sd qm) h Pre.none s v →
    WroteScalar (exec (.qstat h sd qm) s) s v h sd (BitVec.ofNat 64 (if qm then v.wg.qm.length else v.wg.qa.length))) ∧
  (∀ (w : W64), wOp w = 0xF9 →
    (∀ i, decode w = some i → ∃ h sd qm, i = .qstat h sd qm ∧ w.toNat / 2 ^ 26 % 2 ^ 4 = (if qm then 1 else 0) ∧ w.toNat / 2 ^ 30 % 2 ^ 13 = 0 ∧ w.toNat % 2 ^ 26 = 0) ∧
    (1 < w.toNat / 2 ^ 26 % 2 ^ 4 → decode w = none ∧
      ∀ (x : Warp) (n : Nat) (sp : Mask) (c : ClauseCtx), (x.thread (lowLane sp)).cl = some c → c.cls = 9 → (wHead w).guard ≠ 0xF#4 →
        let en := ({ x with hazards := age (wHead w).dist.toNat sp x.hazards } : Warp).enabled n (wHead w) sp
        en ≠ 0 → x.checkWord n sp w = .bad causeIllegal en w))
end

