-- ==== Sys2Proof/Laws/Dispatch.lean ====
section
/-! SUPPORT. What exec calls for each instruction. -/

namespace Sys2Proof.Machine

variable (s : State)

@[simp] theorem exec_nop (h : Head) : exec (.nop h) s = execNop h s := rfl
@[simp] theorem exec_bra (h : Head) (off : BitVec 32) : exec (.bra h off) s = execBra h off s := rfl
@[simp] theorem exec_bnz (h : Head) (sc : BitVec 6) (off : BitVec 32) : exec (.bnz h sc off) s = execBnz h sc off s := rfl
@[simp] theorem exec_bz (h : Head) (sc : BitVec 6) (off : BitVec 32) : exec (.bz h sc off) s = execBz h sc off s := rfl
@[simp] theorem exec_call (h : Head) (lv : BitVec 8) (off : BitVec 32) : exec (.call h lv off) s = execCall h lv off s := rfl
@[simp] theorem exec_ret (h : Head) (lv : BitVec 8) : exec (.ret h lv) s = execRet h lv s := rfl
@[simp] theorem exec_exit (h : Head) : exec (.exit h) s = execExit h s := rfl
@[simp] theorem exec_tcall (h : Head) (off : BitVec 32) : exec (.tcall h off) s = execTcall h off s := rfl
@[simp] theorem exec_tcallW (h : Head) (off : BitVec 32) : exec (.tcallW h off) s = execTcallW h off s := rfl
@[simp] theorem exec_tret (h : Head) : exec (.tret h) s = execTret h s := rfl
@[simp] theorem exec_tquit (h : Head) : exec (.tquit h) s = execTquit h s := rfl
@[simp] theorem exec_tstat (h : Head) (sd : BitVec 6) (n : BitVec 3) : exec (.tstat h sd n) s = execTstat h sd n s := rfl
@[simp] theorem exec_tstatCancel (h : Head) (sd : BitVec 6) : exec (.tstatCancel h sd) s = execTstatCancel h sd s := rfl
@[simp] theorem exec_tbar (h : Head) : exec (.tbar h) s = execTbar h s := rfl
@[simp] theorem exec_sMov (h : Head) (sd : BitVec 6) (y : SSrc) : exec (.sMov h sd y) s = execSMov h sd y s := rfl
@[simp] theorem exec_movh (h : Head) (sd : BitVec 6) (imm : BitVec 32) : exec (.movh h sd imm) s = execMovh h sd imm s := rfl
@[simp] theorem exec_sIadd (h : Head) (sd sa : BitVec 6) (y : SSrc) : exec (.sIadd h sd sa y) s = execSIadd h sd sa y s := rfl
@[simp] theorem exec_sIsub (h : Head) (sd sa : BitVec 6) (y : SSrc) : exec (.sIsub h sd sa y) s = execSIsub h sd sa y s := rfl
@[simp] theorem exec_sMul (h : Head) (sd sa : BitVec 6) (y : SSrc) : exec (.sMul h sd sa y) s = execSMul h sd sa y s := rfl
@[simp] theorem exec_sMulhu (h : Head) (sd sa : BitVec 6) (y : SSrc) : exec (.sMulhu h sd sa y) s = execSMulhu h sd sa y s := rfl
@[simp] theorem exec_sAnd (h : Head) (sd sa : BitVec 6) (y : SSrc) : exec (.sAnd h sd sa y) s = execSAnd h sd sa y s := rfl
@[simp] theorem exec_sOr (h : Head) (sd sa : BitVec 6) (y : SSrc) : exec (.sOr h sd sa y) s = execSOr h sd sa y s := rfl
@[simp] theorem exec_sXor (h : Head) (sd sa : BitVec 6) (y : SSrc) : exec (.sXor h sd sa y) s = execSXor h sd sa y s := rfl
@[simp] theorem exec_sShl (h : Head) (sd sa : BitVec 6) (y : SSrc) : exec (.sShl h sd sa y) s = execSShl h sd sa y s := rfl
@[simp] theorem exec_sShr (h : Head) (sd sa : BitVec 6) (y : SSrc) : exec (.sShr h sd sa y) s = execSShr h sd sa y s := rfl
@[simp] theorem exec_sSar (h : Head) (sd sa : BitVec 6) (y : SSrc) : exec (.sSar h sd sa y) s = execSSar h sd sa y s := rfl
@[simp] theorem exec_sMin (h : Head) (sd sa : BitVec 6) (y : SSrc) : exec (.sMin h sd sa y) s = execSMin h sd sa y s := rfl
@[simp] theorem exec_sMax (h : Head) (sd sa : BitVec 6) (y : SSrc) : exec (.sMax h sd sa y) s = execSMax h sd sa y s := rfl
@[simp] theorem exec_sset (h : Head) (cc : Cmp) (sd sa sb : BitVec 6) : exec (.sset h cc sd sa sb) s = execSset h cc sd sa sb s := rfl
@[simp] theorem exec_sPopc (h : Head) (sd sa : BitVec 6) : exec (.sPopc h sd sa) s = execSPopc h sd sa s := rfl
@[simp] theorem exec_sClz (h : Head) (sd sa : BitVec 6) : exec (.sClz h sd sa) s = execSClz h sd sa s := rfl
@[simp] theorem exec_mov (h : Head) (d : BitVec 8) (a : Src) : exec (.mov h d a) s = execMov h d a s := rfl
@[simp] theorem exec_movImm (h : Head) (d : BitVec 8) (imm : W32) : exec (.movImm h d imm) s = execMovImm h d imm s := rfl
@[simp] theorem exec_iadd (h : Head) (d : BitVec 8) (a b : Src) : exec (.iadd h d a b) s = execIadd h d a b s := rfl
@[simp] theorem exec_iaddImm (h : Head) (d : BitVec 8) (a : Src) (imm : W32) : exec (.iaddImm h d a imm) s = execIaddImm h d a imm s := rfl
@[simp] theorem exec_isub (h : Head) (d : BitVec 8) (a b : Src) : exec (.isub h d a b) s = execIsub h d a b s := rfl
@[simp] theorem exec_isubImm (h : Head) (d : BitVec 8) (a : Src) (imm : W32) : exec (.isubImm h d a imm) s = execIsubImm h d a imm s := rfl
@[simp] theorem exec_mul (h : Head) (d : BitVec 8) (a b : Src) : exec (.mul h d a b) s = execMul h d a b s := rfl
@[simp] theorem exec_mulImm (h : Head) (d : BitVec 8) (a : Src) (imm : W32) : exec (.mulImm h d a imm) s = execMulImm h d a imm s := rfl
@[simp] theorem exec_mulhu (h : Head) (d : BitVec 8) (a b : Src) : exec (.mulhu h d a b) s = execMulhu h d a b s := rfl
@[simp] theorem exec_mulhuImm (h : Head) (d : BitVec 8) (a : Src) (imm : W32) : exec (.mulhuImm h d a imm) s = execMulhuImm h d a imm s := rfl
@[simp] theorem exec_mulhi (h : Head) (d : BitVec 8) (a b : Src) : exec (.mulhi h d a b) s = execMulhi h d a b s := rfl
@[simp] theorem exec_mulhiImm (h : Head) (d : BitVec 8) (a : Src) (imm : W32) : exec (.mulhiImm h d a imm) s = execMulhiImm h d a imm s := rfl
@[simp] theorem exec_imad (h : Head) (d : BitVec 8) (a b c : Src) : exec (.imad h d a b c) s = execImad h d a b c s := rfl
@[simp] theorem exec_and (h : Head) (d : BitVec 8) (a b : Src) : exec (.and h d a b) s = execAnd h d a b s := rfl
@[simp] theorem exec_andImm (h : Head) (d : BitVec 8) (a : Src) (imm : W32) : exec (.andImm h d a imm) s = execAndImm h d a imm s := rfl
@[simp] theorem exec_or (h : Head) (d : BitVec 8) (a b : Src) : exec (.or h d a b) s = execOr h d a b s := rfl
@[simp] theorem exec_orImm (h : Head) (d : BitVec 8) (a : Src) (imm : W32) : exec (.orImm h d a imm) s = execOrImm h d a imm s := rfl
@[simp] theorem exec_xor (h : Head) (d : BitVec 8) (a b : Src) : exec (.xor h d a b) s = execXor h d a b s := rfl
@[simp] theorem exec_xorImm (h : Head) (d : BitVec 8) (a : Src) (imm : W32) : exec (.xorImm h d a imm) s = execXorImm h d a imm s := rfl
@[simp] theorem exec_shl (h : Head) (d : BitVec 8) (a b : Src) : exec (.shl h d a b) s = execShl h d a b s := rfl
@[simp] theorem exec_shlImm (h : Head) (d : BitVec 8) (a : Src) (imm : W32) : exec (.shlImm h d a imm) s = execShlImm h d a imm s := rfl
@[simp] theorem exec_shr (h : Head) (d : BitVec 8) (a b : Src) : exec (.shr h d a b) s = execShr h d a b s := rfl
@[simp] theorem exec_shrImm (h : Head) (d : BitVec 8) (a : Src) (imm : W32) : exec (.shrImm h d a imm) s = execShrImm h d a imm s := rfl
@[simp] theorem exec_sar (h : Head) (d : BitVec 8) (a b : Src) : exec (.sar h d a b) s = execSar h d a b s := rfl
@[simp] theorem exec_sarImm (h : Head) (d : BitVec 8) (a : Src) (imm : W32) : exec (.sarImm h d a imm) s = execSarImm h d a imm s := rfl
@[simp] theorem exec_min (h : Head) (uns : Bool) (d : BitVec 8) (a b : Src) : exec (.min h uns d a b) s = execMin h uns d a b s := rfl
@[simp] theorem exec_max (h : Head) (uns : Bool) (d : BitVec 8) (a b : Src) : exec (.max h uns d a b) s = execMax h uns d a b s := rfl
@[simp] theorem exec_sel (h : Head) (d : BitVec 8) (a b : Src) (pc : BitVec 3) : exec (.sel h d a b pc) s = execSel h d a b pc s := rfl
@[simp] theorem exec_popc (h : Head) (d : BitVec 8) (a : Src) : exec (.popc h d a) s = execPopc h d a s := rfl
@[simp] theorem exec_clz (h : Head) (d : BitVec 8) (a : Src) : exec (.clz h d a) s = execClz h d a s := rfl
@[simp] theorem exec_brev (h : Head) (d : BitVec 8) (a : Src) : exec (.brev h d a) s = execBrev h d a s := rfl
@[simp] theorem exec_fadd (h : Head) (rnd : Rnd) (sat : Bool) (d : BitVec 8) (a b : Src) : exec (.fadd h rnd sat d a b) s = execFadd h rnd sat d a b s := rfl
@[simp] theorem exec_fsub (h : Head) (rnd : Rnd) (sat : Bool) (d : BitVec 8) (a b : Src) : exec (.fsub h rnd sat d a b) s = execFsub h rnd sat d a b s := rfl
@[simp] theorem exec_fmul (h : Head) (rnd : Rnd) (sat : Bool) (d : BitVec 8) (a b : Src) : exec (.fmul h rnd sat d a b) s = execFmul h rnd sat d a b s := rfl
@[simp] theorem exec_ffma (h : Head) (rnd : Rnd) (sat : Bool) (d : BitVec 8) (a b c : Src) : exec (.ffma h rnd sat d a b c) s = execFfma h rnd sat d a b c s := rfl
@[simp] theorem exec_fmin (h : Head) (d : BitVec 8) (a b : Src) : exec (.fmin h d a b) s = execFmin h d a b s := rfl
@[simp] theorem exec_fmax (h : Head) (d : BitVec 8) (a b : Src) : exec (.fmax h d a b) s = execFmax h d a b s := rfl
@[simp] theorem exec_faddF64 (h : Head) (rnd : Rnd) (sat : Bool) (d : BitVec 8) (a b : Src) : exec (.faddF64 h rnd sat d a b) s = execFaddF64 h rnd sat d a b s := rfl
@[simp] theorem exec_fsubF64 (h : Head) (rnd : Rnd) (sat : Bool) (d : BitVec 8) (a b : Src) : exec (.fsubF64 h rnd sat d a b) s = execFsubF64 h rnd sat d a b s := rfl
@[simp] theorem exec_fmulF64 (h : Head) (rnd : Rnd) (sat : Bool) (d : BitVec 8) (a b : Src) : exec (.fmulF64 h rnd sat d a b) s = execFmulF64 h rnd sat d a b s := rfl
@[simp] theorem exec_ffmaF64 (h : Head) (rnd : Rnd) (sat : Bool) (d : BitVec 8) (a b c : Src) : exec (.ffmaF64 h rnd sat d a b c) s = execFfmaF64 h rnd sat d a b c s := rfl
@[simp] theorem exec_fminF64 (h : Head) (d : BitVec 8) (a b : Src) : exec (.fminF64 h d a b) s = execFminF64 h d a b s := rfl
@[simp] theorem exec_fmaxF64 (h : Head) (d : BitVec 8) (a b : Src) : exec (.fmaxF64 h d a b) s = execFmaxF64 h d a b s := rfl
@[simp] theorem exec_hadd2 (h : Head) (bf : Bool) (rnd : Rnd) (sat : Bool) (d : BitVec 8) (a b : Src) : exec (.hadd2 h bf rnd sat d a b) s = execHadd2 h bf rnd sat d a b s := rfl
@[simp] theorem exec_hsub2 (h : Head) (bf : Bool) (rnd : Rnd) (sat : Bool) (d : BitVec 8) (a b : Src) : exec (.hsub2 h bf rnd sat d a b) s = execHsub2 h bf rnd sat d a b s := rfl
@[simp] theorem exec_hmul2 (h : Head) (bf : Bool) (rnd : Rnd) (sat : Bool) (d : BitVec 8) (a b : Src) : exec (.hmul2 h bf rnd sat d a b) s = execHmul2 h bf rnd sat d a b s := rfl
@[simp] theorem exec_hfma2 (h : Head) (bf : Bool) (rnd : Rnd) (sat : Bool) (d : BitVec 8) (a b c : Src) : exec (.hfma2 h bf rnd sat d a b c) s = execHfma2 h bf rnd sat d a b c s := rfl
@[simp] theorem exec_hmin2 (h : Head) (bf : Bool) (d : BitVec 8) (a b : Src) : exec (.hmin2 h bf d a b) s = execHmin2 h bf d a b s := rfl
@[simp] theorem exec_hmax2 (h : Head) (bf : Bool) (d : BitVec 8) (a b : Src) : exec (.hmax2 h bf d a b) s = execHmax2 h bf d a b s := rfl
@[simp] theorem exec_rcp (h : Head) (fsel : Bool) (d : BitVec 8) (a : Src) : exec (.rcp h fsel d a) s = execRcp h fsel d a s := rfl
@[simp] theorem exec_rsqrt (h : Head) (fsel : Bool) (d : BitVec 8) (a : Src) : exec (.rsqrt h fsel d a) s = execRsqrt h fsel d a s := rfl
@[simp] theorem exec_sqrt (h : Head) (fsel : Bool) (d : BitVec 8) (a : Src) : exec (.sqrt h fsel d a) s = execSqrt h fsel d a s := rfl
@[simp] theorem exec_ex2 (h : Head) (fsel : Bool) (d : BitVec 8) (a : Src) : exec (.ex2 h fsel d a) s = execEx2 h fsel d a s := rfl
@[simp] theorem exec_lg2 (h : Head) (fsel : Bool) (d : BitVec 8) (a : Src) : exec (.lg2 h fsel d a) s = execLg2 h fsel d a s := rfl
@[simp] theorem exec_sin (h : Head) (fsel : Bool) (d : BitVec 8) (a : Src) : exec (.sin h fsel d a) s = execSin h fsel d a s := rfl
@[simp] theorem exec_cos (h : Head) (fsel : Bool) (d : BitVec 8) (a : Src) : exec (.cos h fsel d a) s = execCos h fsel d a s := rfl
@[simp] theorem exec_frnd (h : Head) (fsel : Bool) (rnd : Rnd) (d : BitVec 8) (a : Src) : exec (.frnd h fsel rnd d a) s = execFrnd h fsel rnd d a s := rfl
@[simp] theorem exec_cvt (h : Head) (fsel : Bool) (rnd : Rnd) (sat : Bool) (dt st : TypeCode) (fs : BitVec 3) (d : BitVec 8) (a : Src) : exec (.cvt h fsel rnd sat dt st fs d a) s = execCvt h fsel rnd sat dt st fs d a s := rfl
@[simp] theorem exec_pack4 (h : Head) (fsel : Bool) (d : BitVec 8) (a : Src) (fs : BitVec 3) : exec (.pack4 h fsel d a fs) s = execPack4 h fsel d a fs s := rfl
@[simp] theorem exec_unpack4 (h : Head) (fsel : Bool) (d : BitVec 8) (a : Src) (fs : BitVec 3) : exec (.unpack4 h fsel d a fs) s = execUnpack4 h fsel d a fs s := rfl
@[simp] theorem exec_icmp (h : Head) (cc : Cmp) (pd : BitVec 3) (a b : Src) : exec (.icmp h cc pd a b) s = execIcmp h cc pd a b s := rfl
@[simp] theorem exec_icmpImm (h : Head) (cc : Cmp) (pd : BitVec 3) (a : Src) (imm : W32) : exec (.icmpImm h cc pd a imm) s = execIcmpImm h cc pd a imm s := rfl
@[simp] theorem exec_fcmp (h : Head) (cc : Cmp) (pd : BitVec 3) (a b : Src) : exec (.fcmp h cc pd a b) s = execFcmp h cc pd a b s := rfl
@[simp] theorem exec_fcmpF64 (h : Head) (cc : Cmp) (pd : BitVec 3) (a b : Src) : exec (.fcmpF64 h cc pd a b) s = execFcmpF64 h cc pd a b s := rfl
@[simp] theorem exec_pcomb (h : Head) (op : PredOp) (pd pa pb : BitVec 3) : exec (.pcomb h op pd pa pb) s = execPcomb h op pd pa pb s := rfl
@[simp] theorem exec_shflXor (h : Head) (fsel : Bool) (d a : BitVec 8) (n : BitVec 5) : exec (.shflXor h fsel d a n) s = execShflXor h fsel d a n s := rfl
@[simp] theorem exec_shflUp (h : Head) (fsel : Bool) (d a : BitVec 8) (n : BitVec 5) : exec (.shflUp h fsel d a n) s = execShflUp h fsel d a n s := rfl
@[simp] theorem exec_shflDown (h : Head) (fsel : Bool) (d a : BitVec 8) (n : BitVec 5) : exec (.shflDown h fsel d a n) s = execShflDown h fsel d a n s := rfl
@[simp] theorem exec_shflIdx (h : Head) (fsel : Bool) (d a : BitVec 8) (n : BitVec 5) : exec (.shflIdx h fsel d a n) s = execShflIdx h fsel d a n s := rfl
@[simp] theorem exec_shflIdxReg (h : Head) (fsel : Bool) (d a b : BitVec 8) : exec (.shflIdxReg h fsel d a b) s = execShflIdxReg h fsel d a b s := rfl
@[simp] theorem exec_voteAll (h : Head) (fsel : Bool) (pd pa : BitVec 3) : exec (.voteAll h fsel pd pa) s = execVoteAll h fsel pd pa s := rfl
@[simp] theorem exec_voteAny (h : Head) (fsel : Bool) (pd pa : BitVec 3) : exec (.voteAny h fsel pd pa) s = execVoteAny h fsel pd pa s := rfl
@[simp] theorem exec_voteBallot (h : Head) (fsel : Bool) (sd : BitVec 6) (pa : BitVec 3) : exec (.voteBallot h fsel sd pa) s = execVoteBallot h fsel sd pa s := rfl
@[simp] theorem exec_scan (h : Head) (fsel : Bool) (op : FoldOp) (incl : Bool) (d a : BitVec 8) : exec (.scan h fsel op incl d a) s = execScan h fsel op incl d a s := rfl
@[simp] theorem exec_redux (h : Head) (fsel : Bool) (op : FoldOp) (sd : BitVec 6) (a : BitVec 8) : exec (.redux h fsel op sd a) s = execRedux h fsel op sd a s := rfl
@[simp] theorem exec_ld (h : Head) (fsel : Bool) (w : Width) (sc : Scope) (d : BitVec 8) (m : MemOp) : exec (.ld h fsel w sc d m) s = execLd h fsel w sc d m s := rfl
@[simp] theorem exec_ldScr (h : Head) (fsel : Bool) (w : Width) (sc : Scope) (d : BitVec 8) (m : MemOp) : exec (.ldScr h fsel w sc d m) s = execLdScr h fsel w sc d m s := rfl
@[simp] theorem exec_ldCon (h : Head) (fsel : Bool) (w : Width) (d : BitVec 8) (m : MemOp) : exec (.ldCon h fsel w d m) s = execLdCon h fsel w d m s := rfl
@[simp] theorem exec_ldPrv (h : Head) (fsel : Bool) (w : Width) (d : BitVec 8) (m : MemOp) : exec (.ldPrv h fsel w d m) s = execLdPrv h fsel w d m s := rfl
@[simp] theorem exec_st (h : Head) (fsel : Bool) (w : Width) (sc : Scope) (d : BitVec 8) (m : MemOp) : exec (.st h fsel w sc d m) s = execSt h fsel w sc d m s := rfl
@[simp] theorem exec_copyStart (h : Head) (fsel : Bool) (sN : BitVec 6) (base : BitVec 6) (off : BitVec 16) : exec (.copyStart h fsel sN base off) s = execCopyStart h fsel sN base off s := rfl
@[simp] theorem exec_stScr (h : Head) (fsel : Bool) (w : Width) (sc : Scope) (d : BitVec 8) (m : MemOp) : exec (.stScr h fsel w sc d m) s = execStScr h fsel w sc d m s := rfl
@[simp] theorem exec_stPrv (h : Head) (fsel : Bool) (w : Width) (d : BitVec 8) (m : MemOp) : exec (.stPrv h fsel w d m) s = execStPrv h fsel w d m s := rfl
@[simp] theorem exec_lds (h : Head) (fsel : Bool) (sc : Scope) (sd : BitVec 6) (base : BitVec 6) (off : BitVec 16) : exec (.lds h fsel sc sd base off) s = execLds h fsel sc sd base off s := rfl
@[simp] theorem exec_atomAdd (h : Head) (fsel : Bool) (m : AMem) (d b : BitVec 8) : exec (.atomAdd h fsel m d b) s = execAtomAdd h fsel m d b s := rfl
@[simp] theorem exec_atomMin (h : Head) (fsel : Bool) (m : AMem) (d b : BitVec 8) : exec (.atomMin h fsel m d b) s = execAtomMin h fsel m d b s := rfl
@[simp] theorem exec_atomMax (h : Head) (fsel : Bool) (m : AMem) (d b : BitVec 8) : exec (.atomMax h fsel m d b) s = execAtomMax h fsel m d b s := rfl
@[simp] theorem exec_atomMinu (h : Head) (fsel : Bool) (m : AMem) (d b : BitVec 8) : exec (.atomMinu h fsel m d b) s = execAtomMinu h fsel m d b s := rfl
@[simp] theorem exec_atomMaxu (h : Head) (fsel : Bool) (m : AMem) (d b : BitVec 8) : exec (.atomMaxu h fsel m d b) s = execAtomMaxu h fsel m d b s := rfl
@[simp] theorem exec_atomAnd (h : Head) (fsel : Bool) (m : AMem) (d b : BitVec 8) : exec (.atomAnd h fsel m d b) s = execAtomAnd h fsel m d b s := rfl
@[simp] theorem exec_atomOr (h : Head) (fsel : Bool) (m : AMem) (d b : BitVec 8) : exec (.atomOr h fsel m d b) s = execAtomOr h fsel m d b s := rfl
@[simp] theorem exec_atomXor (h : Head) (fsel : Bool) (m : AMem) (d b : BitVec 8) : exec (.atomXor h fsel m d b) s = execAtomXor h fsel m d b s := rfl
@[simp] theorem exec_atomExch (h : Head) (fsel : Bool) (m : AMem) (d b : BitVec 8) : exec (.atomExch h fsel m d b) s = execAtomExch h fsel m d b s := rfl
@[simp] theorem exec_atomCas (h : Head) (fsel : Bool) (m : AMem) (d b c : BitVec 8) : exec (.atomCas h fsel m d b c) s = execAtomCas h fsel m d b c s := rfl
@[simp] theorem exec_atomFadd (h : Head) (fsel : Bool) (m : AMem) (d b : BitVec 8) : exec (.atomFadd h fsel m d b) s = execAtomFadd h fsel m d b s := rfl
@[simp] theorem exec_redAdd (h : Head) (fsel : Bool) (m : AMem) (d : BitVec 8) : exec (.redAdd h fsel m d) s = execRedAdd h fsel m d s := rfl
@[simp] theorem exec_redMin (h : Head) (fsel : Bool) (m : AMem) (d : BitVec 8) : exec (.redMin h fsel m d) s = execRedMin h fsel m d s := rfl
@[simp] theorem exec_redMax (h : Head) (fsel : Bool) (m : AMem) (d : BitVec 8) : exec (.redMax h fsel m d) s = execRedMax h fsel m d s := rfl
@[simp] theorem exec_redFadd (h : Head) (fsel : Bool) (m : AMem) (d : BitVec 8) : exec (.redFadd h fsel m d) s = execRedFadd h fsel m d s := rfl
@[simp] theorem exec_redOr (h : Head) (fsel : Bool) (m : AMem) (d : BitVec 8) : exec (.redOr h fsel m d) s = execRedOr h fsel m d s := rfl
@[simp] theorem exec_fence (h : Head) (fsel : Bool) (sc : Scope) : exec (.fence h fsel sc) s = execFence h fsel sc s := rfl
@[simp] theorem exec_acq (h : Head) (fsel : Bool) (sc : Scope) : exec (.acq h fsel sc) s = execAcq h fsel sc s := rfl
@[simp] theorem exec_rel (h : Head) (fsel : Bool) (sc : Scope) : exec (.rel h fsel sc) s = execRel h fsel sc s := rfl
@[simp] theorem exec_relN (h : Head) (fsel : Bool) (wide : Bool) (d : BitVec 8) (base : BitVec 6) (off : BitVec 16) : exec (.relN h fsel wide d base off) s = execRelN h fsel wide d base off s := rfl
@[simp] theorem exec_bar (h : Head) (fsel : Bool) (n : BitVec 5) : exec (.bar h fsel n) s = execBar h fsel n s := rfl
@[simp] theorem exec_barArrive (h : Head) (fsel : Bool) (n : BitVec 5) : exec (.barArrive h fsel n) s = execBarArrive h fsel n s := rfl
@[simp] theorem exec_barWait (h : Head) (fsel : Bool) (n : BitVec 5) : exec (.barWait h fsel n) s = execBarWait h fsel n s := rfl
@[simp] theorem exec_pbarArrive (h : Head) (fsel : Bool) (n : BitVec 5) : exec (.pbarArrive h fsel n) s = execPbarArrive h fsel n s := rfl
@[simp] theorem exec_pbarWait (h : Head) (fsel : Bool) (n : BitVec 5) : exec (.pbarWait h fsel n) s = execPbarWait h fsel n s := rfl
@[simp] theorem exec_mwait (h : Head) (fsel : Bool) (scr wide : Bool) (sc : Scope) (cc : Cmp) (base : BitVec 6) (off : BitVec 16) (x : MX) : exec (.mwait h fsel scr wide sc cc base off x) s = execMwait h fsel scr wide sc cc base off x s := rfl
@[simp] theorem exec_cwait (h : Head) (fsel : Bool) (ms base : BitVec 6) (off : BitVec 16) : exec (.cwait h fsel ms base off) s = execCwait h fsel ms base off s := rfl
@[simp] theorem exec_cwaitTile (h : Head) (fsel : Bool) (ms tile : BitVec 6) (hi : Bool) : exec (.cwaitTile h fsel ms tile hi) s = execCwaitTile h fsel ms tile hi s := rfl
@[simp] theorem exec_ctest (h : Head) (fsel : Bool) (sd ms base : BitVec 6) (off : BitVec 16) : exec (.ctest h fsel sd ms base off) s = execCtest h fsel sd ms base off s := rfl
@[simp] theorem exec_ctestTile (h : Head) (fsel : Bool) (sd ms tile : BitVec 6) (hi : Bool) : exec (.ctestTile h fsel sd ms tile hi) s = execCtestTile h fsel sd ms tile hi s := rfl
@[simp] theorem exec_publish (h : Head) (fsel : Bool) (sc : Scope) (nm1 base : BitVec 6) (off : BitVec 16) : exec (.publish h fsel sc nm1 base off) s = execPublish h fsel sc nm1 base off s := rfl
@[simp] theorem exec_tdef (h : Head) (fsel : Bool) (tile base : BitVec 6) (off : BitVec 16) (ms : BitVec 6) : exec (.tdef h fsel tile base off ms) s = execTdef h fsel tile base off ms s := rfl
@[simp] theorem exec_twait (h : Head) (fsel : Bool) (tile : BitVec 6) : exec (.twait h fsel tile) s = execTwait h fsel tile s := rfl
@[simp] theorem exec_tfree (h : Head) (tile : BitVec 6) : exec (.tfree h tile) s = execTfree h tile s := rfl
@[simp] theorem exec_mldb (ta : BitVec 6) (fs : BitVec 3) : exec (.mldb ta fs) s = execMldb ta fs s := rfl
@[simp] theorem exec_mmaP (acc : BitVec 3) (ta : BitVec 6) (fs : BitVec 3) (rows : BitVec 2) : exec (.mmaP acc ta fs rows) s = execMmaP acc ta fs rows s := rfl
@[simp] theorem exec_mclr (acc km1 : BitVec 3) : exec (.mclr acc km1) s = execMclr acc km1 s := rfl
@[simp] theorem exec_mscl (acc : BitVec 3) (ss : BitVec 6) : exec (.mscl acc ss) s = execMscl acc ss s := rfl
@[simp] theorem exec_accst (acc : BitVec 3) (ss : BitVec 6) (imm : BitVec 14) (fs : BitVec 3) : exec (.accst acc ss imm fs) s = execAccst acc ss imm fs s := rfl
@[simp] theorem exec_accld (acc : BitVec 3) (ss : BitVec 6) (imm : BitVec 14) (fs : BitVec 3) : exec (.accld acc ss imm fs) s = execAccld acc ss imm fs s := rfl
@[simp] theorem exec_accq (acc : BitVec 3) (rm1 : BitVec 6) : exec (.accq acc rm1) s = execAccq acc rm1 s := rfl
@[simp] theorem exec_mbarArrive (n : BitVec 5) : exec (.mbarArrive n) s = execMbarArrive n s := rfl
@[simp] theorem exec_mbarWait (n : BitVec 5) : exec (.mbarWait n) s = execMbarWait n s := rfl
@[simp] theorem exec_mloop (km1 : BitVec 8) (imm : BitVec 14) : exec (.mloop km1 imm) s = execMloop km1 imm s := rfl
@[simp] theorem exec_mend : exec .mend s = execMend s := rfl
@[simp] theorem exec_packp (h : Head) (fsel : Bool) (a : Src) (sN : BitVec 6) (fs : BitVec 3) (r : BitVec 8) : exec (.packp h fsel a sN fs r) s = execPackp h fsel a sN fs r s := rfl
@[simp] theorem exec_unpackp (h : Head) (fsel : Bool) (d : BitVec 8) (sN : BitVec 6) (fs : BitVec 3) (r : BitVec 8) : exec (.unpackp h fsel d sN fs r) s = execUnpackp h fsel d sN fs r s := rfl
@[simp] theorem exec_mfsr (h : Head) (d : MDst) (sel : BitVec 8) : exec (.mfsr h d sel) s = execMfsr h d sel s := rfl
@[simp] theorem exec_mtsr (h : Head) (sel : BitVec 8) (a : Src) : exec (.mtsr h sel a) s = execMtsr h sel a s := rfl
@[simp] theorem exec_yield (h : Head) (d k : BitVec 8) : exec (.yield h d k) s = execYield h d k s := rfl
@[simp] theorem exec_syscall (h : Head) (n : BitVec 16) : exec (.syscall h n) s = execSyscall h n s := rfl
@[simp] theorem exec_trap (h : Head) (n : BitVec 16) : exec (.trap h n) s = execTrap h n s := rfl
@[simp] theorem exec_brk (h : Head) (n : BitVec 16) : exec (.brk h n) s = execBrk h n s := rfl
@[simp] theorem exec_ipf (h : Head) (base : BitVec 6) (off : BitVec 16) (nm1 : BitVec 8) : exec (.ipf h base off nm1) s = execIpf h base off nm1 s := rfl
@[simp] theorem exec_regq (h : Head) (w1 w2 : BitVec 5) (k : BitVec 36) : exec (.regq h w1 w2 k) s = execRegq h w1 w2 k s := rfl
@[simp] theorem exec_cctlWb (h : Head) (sc : Scope) (base : BitVec 6) (off : BitVec 16) : exec (.cctlWb h sc base off) s = execCctlWb h sc base off s := rfl
@[simp] theorem exec_cctlInv (h : Head) (sc : Scope) (base : BitVec 6) (off : BitVec 16) : exec (.cctlInv h sc base off) s = execCctlInv h sc base off s := rfl
@[simp] theorem exec_cctlWbinv (h : Head) (sc : Scope) (base : BitVec 6) (off : BitVec 16) : exec (.cctlWbinv h sc base off) s = execCctlWbinv h sc base off s := rfl
@[simp] theorem exec_qstat (h : Head) (sd : BitVec 6) (qm : Bool) : exec (.qstat h sd qm) s = execQstat h sd qm s := rfl
@[simp] theorem exec_clauseStart (core slice : Nat) : exec (.clauseStart core slice) s = execClauseStart core slice s := rfl
@[simp] theorem exec_longLatencyCompletion (op : Nat) (lanes : Mask) : exec (.longLatencyCompletion op lanes) s = execLongLatencyCompletion op lanes s := rfl
@[simp] theorem exec_accessPerform (op idx : Nat) : exec (.accessPerform op idx) s = execAccessPerform op idx s := rfl
@[simp] theorem exec_icacheMissFill (warp : Nat) : exec (.icacheMissFill warp) s = execIcacheMissFill warp s := rfl
@[simp] theorem exec_watchdogFault (warp : Nat) : exec (.watchdogFault warp) s = execWatchdogFault warp s := rfl
@[simp] theorem exec_quotaTransferApply (wg : Nat) : exec (.quotaTransferApply wg) s = execQuotaTransferApply wg s := rfl
@[simp] theorem exec_workgroupDeadlock (wg : Nat) : exec (.workgroupDeadlock wg) s = execWorkgroupDeadlock wg s := rfl
@[simp] theorem exec_sequencerTaskLoad (wg : Nat) : exec (.sequencerTaskLoad wg) s = execSequencerTaskLoad wg s := rfl
@[simp] theorem exec_monitorWake (mon : Nat) : exec (.monitorWake mon) s = execMonitorWake mon s := rfl
@[simp] theorem exec_monitorEntryArm (mon : Nat) : exec (.monitorEntryArm mon) s = execMonitorEntryArm mon s := rfl
@[simp] theorem exec_monitorSwapOut (cluster : Nat) : exec (.monitorSwapOut cluster) s = execMonitorSwapOut cluster s := rfl
@[simp] theorem exec_clusterRequeue (cluster : Nat) : exec (.clusterRequeue cluster) s = execClusterRequeue cluster s := rfl
@[simp] theorem exec_diffApply (pkt : Nat) : exec (.diffApply pkt) s = execDiffApply pkt s := rfl
@[simp] theorem exec_diffAck (pkt : Nat) : exec (.diffAck pkt) s = execDiffAck pkt s := rfl
@[simp] theorem exec_lockHandoffReceive (msg : Nat) : exec (.lockHandoffReceive msg) s = execLockHandoffReceive msg s := rfl
@[simp] theorem exec_bteChunkStart (copy chunk : Nat) : exec (.bteChunkStart copy chunk) s = execBteChunkStart copy chunk s := rfl
@[simp] theorem exec_chunkComplete (copy chunk : Nat) : exec (.chunkComplete copy chunk) s = execChunkComplete copy chunk s := rfl
@[simp] theorem exec_copyFault (copy chunk : Nat) : exec (.copyFault copy chunk) s = execCopyFault copy chunk s := rfl
@[simp] theorem exec_tileDrainDone (copy : Nat) : exec (.tileDrainDone copy) s = execTileDrainDone copy s := rfl
@[simp] theorem exec_publishSwitch (op : Nat) : exec (.publishSwitch op) s = execPublishSwitch op s := rfl
@[simp] theorem exec_pageRetire (ctx page : Nat) : exec (.pageRetire ctx page) s = execPageRetire ctx page s := rfl
@[simp] theorem exec_rtailWrite (ctx : BitVec 6) (ring : BitVec 3) (x : BitVec 32) : exec (.rtailWrite ctx ring x) s = execRtailWrite ctx ring x s := rfl
@[simp] theorem exec_ringEntryAdmit (ctx : BitVec 6) (ring : BitVec 3) : exec (.ringEntryAdmit ctx ring) s = execRingEntryAdmit ctx ring s := rfl
@[simp] theorem exec_haltClear (ctx : BitVec 6) (ring : BitVec 3) : exec (.haltClear ctx ring) s = execHaltClear ctx ring s := rfl
@[simp] theorem exec_gridEligible (grid : Nat) : exec (.gridEligible grid) s = execGridEligible grid s := rfl
@[simp] theorem exec_clusterPull (die : BitVec 3) (group : Nat) (cores : List Nat) : exec (.clusterPull die group cores) s = execClusterPull die group cores s := rfl
@[simp] theorem exec_starvationPreempt (grid : Nat) : exec (.starvationPreempt grid) s = execStarvationPreempt grid s := rfl
@[simp] theorem exec_gridComplete (grid : Nat) : exec (.gridComplete grid) s = execGridComplete grid s := rfl
@[simp] theorem exec_preRequest (ctx : BitVec 6) : exec (.preRequest ctx) s = execPreRequest ctx s := rfl
@[simp] theorem exec_clusterSave (cluster : Nat) : exec (.clusterSave cluster) s = execClusterSave cluster s := rfl
@[simp] theorem exec_clusterRestore (cluster : Nat) (die : BitVec 3) (group : Nat) (cores : List Nat) : exec (.clusterRestore cluster die group cores) s = execClusterRestore cluster die group cores s := rfl
@[simp] theorem exec_trapRecordEnqueue (core : Nat) : exec (.trapRecordEnqueue core) s = execTrapRecordEnqueue core s := rfl
@[simp] theorem exec_replay (core : Nat) : exec (.replay core) s = execReplay core s := rfl
@[simp] theorem exec_skip (core : Nat) : exec (.skip core) s = execSkip core s := rfl
@[simp] theorem exec_jump (core : Nat) (a : W64) : exec (.jump core a) s = execJump core a s := rfl
@[simp] theorem exec_endRecord (core : Nat) : exec (.endRecord core) s = execEndRecord core s := rfl
@[simp] theorem exec_answer (core : Nat) : exec (.answer core) s = execAnswer core s := rfl
@[simp] theorem exec_singleStep (warp : Nat) (splitB : Bool) : exec (.singleStep warp splitB) s = execSingleStep warp splitB s := rfl
@[simp] theorem exec_growFaultService (warp : Nat) (ans : GrowAnswer) : exec (.growFaultService warp ans) s = execGrowFaultService warp ans s := rfl
@[simp] theorem exec_farPageFault (warp : Nat) (cold : Nat) : exec (.farPageFault warp cold) s = execFarPageFault warp cold s := rfl
@[simp] theorem exec_swapComplete (swap : Nat) : exec (.swapComplete swap) s = execSwapComplete swap s := rfl
@[simp] theorem exec_ctmigBringNear (ctx : BitVec 6) (x : W64) : exec (.ctmigBringNear ctx x) s = execCtmigBringNear ctx x s := rfl
@[simp] theorem exec_ctmigMoveFar (ctx : BitVec 6) (x : W64) : exec (.ctmigMoveFar ctx x) s = execCtmigMoveFar ctx x s := rfl
@[simp] theorem exec_ctmigOffline (ctx : BitVec 6) (x : W64) : exec (.ctmigOffline ctx x) s = execCtmigOffline ctx x s := rfl
@[simp] theorem exec_ctmigReserved (ctx : BitVec 6) (x : W64) : exec (.ctmigReserved ctx x) s = execCtmigReserved ctx x s := rfl
@[simp] theorem exec_tlbinv (ctx : BitVec 6) (x : W64) : exec (.tlbinv ctx x) s = execTlbinv ctx x s := rfl
@[simp] theorem exec_tlbinvComplete (ctx : BitVec 6) : exec (.tlbinvComplete ctx) s = execTlbinvComplete ctx s := rfl
@[simp] theorem exec_contextEnable (ctx : BitVec 6) (x : W64) : exec (.contextEnable ctx x) s = execContextEnable ctx x s := rfl
@[simp] theorem exec_contextDisable (ctx : BitVec 6) (x : W64) : exec (.contextDisable ctx x) s = execContextDisable ctx x s := rfl
@[simp] theorem exec_bflipSetCtx (x : W64) : exec (.bflipSetCtx x) s = execBflipSetCtx x s := rfl
@[simp] theorem exec_bflipToHost (x : W64) : exec (.bflipToHost x) s = execBflipToHost x s := rfl
@[simp] theorem exec_bflipToDev (x : W64) : exec (.bflipToDev x) s = execBflipToDev x s := rfl
@[simp] theorem exec_bflipReserved (x : W64) : exec (.bflipReserved x) s = execBflipReserved x s := rfl
@[simp] theorem exec_d2hDrainComplete (page : Nat) : exec (.d2hDrainComplete page) s = execD2hDrainComplete page s := rfl
@[simp] theorem exec_h2dDrainComplete (page : Nat) : exec (.h2dDrainComplete page) s = execH2dDrainComplete page s := rfl
@[simp] theorem exec_biasSnoopTimeout (line : Nat) : exec (.biasSnoopTimeout line) s = execBiasSnoopTimeout line s := rfl
@[simp] theorem exec_memrd (pa : Nat) (cache : Bool) : exec (.memrd pa cache) s = execMemrd pa cache s := rfl
@[simp] theorem exec_memwr (pa : Nat) (data : List Byte) : exec (.memwr pa data) s = execMemwr pa data s := rfl
@[simp] theorem exec_birsp (line : Nat) (shared : Bool) (writeback : Option (List Byte)) : exec (.birsp line shared writeback) s = execBirsp line shared writeback s := rfl
@[simp] theorem exec_bisnpdataMonitor (line : Nat) : exec (.bisnpdataMonitor line) s = execBisnpdataMonitor line s := rfl
@[simp] theorem exec_poolBisnpinv (line : Nat) : exec (.poolBisnpinv line) s = execPoolBisnpinv line s := rfl
@[simp] theorem exec_poolBisnpdata (line : Nat) : exec (.poolBisnpdata line) s = execPoolBisnpdata line s := rfl
@[simp] theorem exec_ogctlGo (g : Nat) (x : W64) : exec (.ogctlGo g x) s = execOgctlGo g x s := rfl
@[simp] theorem exec_drainingMarkAck (g core : Nat) : exec (.drainingMarkAck g core) s = execDrainingMarkAck g core s := rfl
@[simp] theorem exec_ogDrainDone (g : Nat) : exec (.ogDrainDone g) s = execOgDrainDone g s := rfl
@[simp] theorem exec_ogDrainTimeout (g : Nat) : exec (.ogDrainTimeout g) s = execOgDrainTimeout g s := rfl
@[simp] theorem exec_ogDarkTimer (g : Nat) : exec (.ogDarkTimer g) s = execOgDarkTimer g s := rfl
@[simp] theorem exec_ogTrainUp (g : Nat) (lanes : BitVec 16) : exec (.ogTrainUp g lanes) s = execOgTrainUp g lanes s := rfl
@[simp] theorem exec_ogTrainTimeout (g : Nat) : exec (.ogTrainTimeout g) s = execOgTrainTimeout g s := rfl
@[simp] theorem exec_ogMappingDone (g : Nat) : exec (.ogMappingDone g) s = execOgMappingDone g s := rfl
@[simp] theorem exec_linkDown (g link : Nat) : exec (.linkDown g link) s = execLinkDown g link s := rfl
@[simp] theorem exec_meshLinkFail (link : Nat) (parts : BitVec 4) : exec (.meshLinkFail link parts) s = execMeshLinkFail link parts s := rfl
@[simp] theorem exec_cdieFence (die : BitVec 3) : exec (.cdieFence die) s = execCdieFence die s := rfl
@[simp] theorem exec_poisonErrorEvict (die : BitVec 3) (ctx pa : Nat) (twin : Bool) : exec (.poisonErrorEvict die ctx pa twin) s = execPoisonErrorEvict die ctx pa twin s := rfl
@[simp] theorem exec_reductionContribution (red who : Nat) (x : Contribution) : exec (.reductionContribution red who x) s = execReductionContribution red who x s := rfl
@[simp] theorem exec_reductionTimeout (red : Nat) : exec (.reductionTimeout red) s = execReductionTimeout red s := rfl
@[simp] theorem exec_moduleReset (bad : Option (BitVec 3)) : exec (.moduleReset bad) s = execModuleReset bad s := rfl
@[simp] theorem exec_measext (x : W64) : exec (.measext x) s = execMeasext x s := rfl
@[simp] theorem exec_meassel (x : W64) : exec (.meassel x) s = execMeassel x s := rfl
@[simp] theorem exec_attcmdGo (x : W64) : exec (.attcmdGo x) s = execAttcmdGo x s := rfl
@[simp] theorem exec_quoteDone : exec .quoteDone s = execQuoteDone s := rfl
@[simp] theorem exec_pwrreq (x : W64) : exec (.pwrreq x) s = execPwrreq x s := rfl
@[simp] theorem exec_powerCapThrottle : exec .powerCapThrottle s = execPowerCapThrottle s := rfl
@[simp] theorem exec_fireflyBeacon : exec .fireflyBeacon s = execFireflyBeacon s := rfl
@[simp] theorem exec_retm (x : W64) : exec (.retm x) s = execRetm x s := rfl
@[simp] theorem exec_registerWrite (off : Nat) (x : W64) : exec (.registerWrite off x) s = execRegisterWrite off x s := rfl
@[simp] theorem exec_uncorrectableError (site : ErrSite) : exec (.uncorrectableError site) s = execUncorrectableError site s := rfl
@[simp] theorem exec_scarabWrite (id : Nat) (e : ScarabEffect) : exec (.scarabWrite id e) s = execScarabWrite id e s := rfl
@[simp] theorem exec_linkRetrain (g link : Nat) : exec (.linkRetrain g link) s = execLinkRetrain g link s := rfl
@[simp] theorem exec_peerTransaction (g port : Nat) (pa : Nat) (op : PeerReq) : exec (.peerTransaction g port pa op) s = execPeerTransaction g port pa op s := rfl

end Sys2Proof.Machine
end

