-- ==== Sys2Proof/Laws/Tab.lean ====
section
/-! SUPPORT. Laws of keyed tables and of memory as a table: reading after writing, and the canonical form that every operation keeps. -/

namespace Sys2Proof

variable {α : Type}

theorem Tab.look_put_self (t : Tab α) (k : Nat) (x : α) : Tab.look (Tab.put t k x) k = some x := by
  induction t with
  | nil => simp [Tab.put, Tab.look]
  | cons e t ih =>
    obtain ⟨j, y⟩ := e
    simp only [Tab.put]
    split
    · simp [Tab.look]
    · split
      · simp [Tab.look]
      · next h => simp [Tab.look, h, ih]

theorem Tab.look_put_of_ne (t : Tab α) {k j : Nat} (x : α) (h : j ≠ k) : Tab.look (Tab.put t k x) j = Tab.look t j := by
  induction t with
  | nil => simp [Tab.put, Tab.look, Ne.symm h]
  | cons e t ih =>
    obtain ⟨i, y⟩ := e
    simp only [Tab.put]
    split
    · simp [Tab.look, Ne.symm h]
    · split
      · next hi => subst hi; simp [Tab.look, Ne.symm h]
      · simp [Tab.look, ih]

theorem Tab.look_put (t : Tab α) (k j : Nat) (x : α) :
    Tab.look (Tab.put t k x) j = if j = k then some x else Tab.look t j := by
  by_cases h : j = k
  · subst h; simp [Tab.look_put_self]
  · simp [h, Tab.look_put_of_ne]

@[simp] theorem Tab.put_put (t : Tab α) (k : Nat) (x y : α) : Tab.put (Tab.put t k x) k y = Tab.put t k y := by
  induction t with
  | nil => simp [Tab.put]
  | cons e t ih =>
    obtain ⟨j, z⟩ := e
    simp only [Tab.put]
    split
    · simp [Tab.put]
    · split
      · simp [Tab.put]
      · next h1 h2 => simp [Tab.put, h1, h2, ih]

/-- Putting what is there changes nothing in a table of rising keys. -/
theorem Tab.put_self (t : Tab α) {k : Nat} {x : α} {b : Nat} (hb : Tab.risingFrom b t = true) (h : Tab.look t k = some x) :
    Tab.put t k x = t := by
  induction t generalizing b with
  | nil => simp [Tab.look] at h
  | cons e t ih =>
    obtain ⟨j, y⟩ := e
    simp only [Tab.look] at h
    simp only [Tab.risingFrom, Bool.and_eq_true, decide_eq_true_eq] at hb
    by_cases hj : j = k
    · subst hj; simp at h; simp [Tab.put, h]
    · simp only [hj, if_false] at h
      have hlt : ¬ k < j := by
        intro hk
        have : ∀ (b : Nat) (t : Tab α), Tab.risingFrom b t = true → k < b → Tab.look t k = none := by
          intro b t
          induction t generalizing b with
          | nil => intros; rfl
          | cons e t ih =>
            obtain ⟨i, z⟩ := e
            intro hr hlt
            simp only [Tab.risingFrom, Bool.and_eq_true, decide_eq_true_eq] at hr
            have : i ≠ k := by omega
            simp [Tab.look, this, ih _ hr.2 (by omega)]
        simp [this _ _ hb.2 (by omega)] at h
      simp [Tab.put, hj, hlt, ih hb.2 h]

@[simp] theorem Tab.look_mod (t : Tab α) (k j : Nat) (f : α → α) :
    Tab.look (Tab.mod t k f) j = if j = k then (Tab.look t k).map f else Tab.look t j := by
  unfold Tab.mod
  split
  · next x h => simp [Tab.look_put, h]
  · next h => by_cases hj : j = k <;> simp_all

theorem Tab.look_del (t : Tab α) (k j : Nat) : Tab.look (Tab.del t k) j = if j = k then none else Tab.look t j := by
  induction t with
  | nil => simp [Tab.del, Tab.look]
  | cons e t ih =>
    obtain ⟨i, y⟩ := e
    simp only [Tab.del] at ih ⊢
    by_cases hi : i = k
    · subst hi
      by_cases hj : j = i
      · subst hj; simp [ih]
      · simp [ih, Tab.look, hj, Ne.symm hj]
    · by_cases hj : j = i
      · subst hj; simp [hi, Tab.look]
      · by_cases hk : j = k
        · subst hk; simp [hi, Tab.look, ih]
        · simp [hi, Tab.look, ih, hk, Ne.symm hj]

theorem Tab.get_put (d : α) (t : Tab α) (k j : Nat) (x : α) :
    Tab.get d (Tab.put t k x) j = if j = k then x else Tab.get d t j := by
  unfold Tab.get; rw [Tab.look_put]; split <;> simp

/-- Reading a sparse map after a write. -/
theorem Tab.get_set [DecidableEq α] (d : α) (t : Tab α) (k j : Nat) (x : α) :
    Tab.get d (Tab.set d t k x) j = if j = k then x else Tab.get d t j := by
  unfold Tab.set
  split
  · next h => unfold Tab.get; rw [Tab.look_del]; split <;> simp [h]
  · exact Tab.get_put d t k j x

/-! The canonical form. -/

theorem Tab.rising_mono {b c : Nat} {t : Tab α} (h : Tab.risingFrom b t = true) (hc : c ≤ b) : Tab.risingFrom c t = true := by
  cases t with
  | nil => rfl
  | cons e t =>
    obtain ⟨i, y⟩ := e
    simp only [Tab.risingFrom, Bool.and_eq_true, decide_eq_true_eq] at h ⊢
    exact ⟨by omega, h.2⟩

theorem Tab.rising_put {b k : Nat} {t : Tab α} (x : α) (h : Tab.risingFrom b t = true) (hk : b ≤ k) :
    Tab.risingFrom b (Tab.put t k x) = true := by
  induction t generalizing b with
  | nil => simp [Tab.put, Tab.risingFrom, hk]
  | cons e t ih =>
    obtain ⟨i, y⟩ := e
    simp only [Tab.risingFrom, Bool.and_eq_true, decide_eq_true_eq] at h
    simp only [Tab.put]
    split
    · simp only [Tab.risingFrom, Bool.and_eq_true, decide_eq_true_eq]
      exact ⟨hk, by omega, h.2⟩
    · split
      · next hi => subst hi; simp [Tab.risingFrom, hk, h.2]
      · simp only [Tab.risingFrom, Bool.and_eq_true, decide_eq_true_eq]
        exact ⟨h.1, ih h.2 (by omega)⟩

theorem Tab.rising_filter {b : Nat} {t : Tab α} (p : Nat × α → Bool) (h : Tab.risingFrom b t = true) :
    Tab.risingFrom b (t.filter p) = true := by
  induction t generalizing b with
  | nil => rfl
  | cons e t ih =>
    obtain ⟨i, y⟩ := e
    simp only [Tab.risingFrom, Bool.and_eq_true, decide_eq_true_eq] at h
    rw [List.filter_cons]
    split
    · simp only [Tab.risingFrom, Bool.and_eq_true, decide_eq_true_eq]
      exact ⟨h.1, ih h.2⟩
    · exact Tab.rising_mono (ih h.2) (by omega)

theorem Tab.mem_put {t : Tab α} {k : Nat} {x : α} {e : Nat × α} (h : e ∈ Tab.put t k x) : e = (k, x) ∨ e ∈ t := by
  induction t with
  | nil => simpa [Tab.put] using h
  | cons f t ih =>
    obtain ⟨i, y⟩ := f
    simp only [Tab.put] at h
    split at h
    · simpa using h
    · split at h
      · rcases List.mem_cons.1 h with h | h
        · exact .inl h
        · exact .inr (List.mem_cons_of_mem _ h)
      · rcases List.mem_cons.1 h with h | h
        · exact .inr (h ▸ List.mem_cons_self)
        · exact (ih h).imp id (List.mem_cons_of_mem _)

theorem Tab.wf_put [DecidableEq α] {d : α} {t : Tab α} (k : Nat) {x : α} (hx : x ≠ d) (h : Tab.wf d t = true) :
    Tab.wf d (Tab.put t k x) = true := by
  simp only [Tab.wf, Bool.and_eq_true, List.all_eq_true, decide_eq_true_eq] at h ⊢
  refine ⟨Tab.rising_put x h.1 (by omega), fun e he => ?_⟩
  rcases Tab.mem_put he with rfl | he
  · exact hx
  · exact h.2 e he

theorem Tab.wf_filter [DecidableEq α] {d : α} {t : Tab α} (p : Nat × α → Bool) (h : Tab.wf d t = true) :
    Tab.wf d (t.filter p) = true := by
  simp only [Tab.wf, Bool.and_eq_true, List.all_eq_true, decide_eq_true_eq] at h ⊢
  exact ⟨Tab.rising_filter p h.1, fun e he => h.2 e (List.mem_filter.1 he).1⟩

/-- A write keeps the canonical form. -/
theorem Tab.wf_set [DecidableEq α] {d : α} {t : Tab α} (k : Nat) (x : α) (h : Tab.wf d t = true) :
    Tab.wf d (Tab.set d t k x) = true := by
  unfold Tab.set
  split
  · exact Tab.wf_filter _ h
  · next hx => exact Tab.wf_put k hx h

end Sys2Proof

namespace Sys2Proof.Machine

/-- Writing bytes keeps the canonical form of memory. -/
theorem wf_writeBytes {t : Tab Byte} (a : Nat) (bs : List Byte) (h : Tab.wf 0 t = true) : Tab.wf 0 (writeBytes t a bs) = true := by
  unfold writeBytes
  generalize bs.mapIdx (fun i b => (i, b)) = l
  induction l generalizing t with
  | nil => exact h
  | cons e l ih => exact ih (Tab.wf_set _ _ h)

/-- What a byte reads as after bytes are written. -/
theorem get_writeBytes (t : Tab Byte) (a : Nat) (bs : List Byte) (k : Nat) :
    Tab.get 0 (writeBytes t a bs) k = if a ≤ k ∧ k < a + bs.length then bs.getD (k - a) 0 else Tab.get 0 t k := by
  have key : ∀ (bs : List Byte) (n : Nat) (t : Tab Byte),
      Tab.get 0 ((bs.mapIdx (fun i b => (i + n, b))).foldl (fun t e => Tab.set 0 t (a + e.1) e.2) t) k =
        if a + n ≤ k ∧ k < a + n + bs.length then bs.getD (k - a - n) 0 else Tab.get 0 t k := by
    intro bs
    induction bs with
    | nil => intro n t; simp <;> omega
    | cons b bs ih =>
      intro n t
      rw [List.mapIdx_cons, List.foldl_cons]
      have e : (bs.mapIdx (fun i b => (i + 1 + n, b))) = bs.mapIdx (fun i b => (i + (n + 1), b)) := by
        congr 1; funext i b; congr 1; omega
      rw [e, ih (n + 1)]
      simp only [List.length_cons, Nat.zero_add, Tab.get_set]
      by_cases h1 : k = a + n
      · subst h1
        have : ¬ (a + (n + 1) ≤ a + n ∧ a + n < a + (n + 1) + bs.length) := by omega
        have h2 : a + n ≤ a + n ∧ a + n < a + n + (bs.length + 1) := by omega
        simp <;> omega
      · by_cases h2 : a + (n + 1) ≤ k ∧ k < a + (n + 1) + bs.length
        · have h3 : a + n ≤ k ∧ k < a + n + (bs.length + 1) := by omega
          have h4 : k - a - n = (k - a - (n + 1)) + 1 := by omega
          simp only [h2, h3, and_self, if_true]
          rw [h4, List.getD_cons_succ]
        · have h3 : ¬ (a + n ≤ k ∧ k < a + n + (bs.length + 1)) := by omega
          simp only [h2, h3, if_false, h1]
  have := key bs 0 t
  simpa [writeBytes] using this

/-- Reset memory is canonical. -/
theorem wf_reset_mem : Memory.wf State.reset.mem = true := rfl

end Sys2Proof.Machine
end

