-- ==== Sys2Proof/Laws/State.lean ====
section
/-! SUPPORT. What each update of the state does to each field: one lemma per field per update. -/

namespace Sys2Proof.Machine

variable (s : State) (k : Nat)

section setCtx
variable (x : Ctx)
@[simp] theorem State.setCtx_clock : (s.setCtx k x).clock = s.clock := rfl
@[simp] theorem State.setCtx_agenda : (s.setCtx k x).agenda = s.agenda := rfl
@[simp] theorem State.setCtx_cur : (s.setCtx k x).cur = s.cur := rfl
@[simp] theorem State.setCtx_draws : (s.setCtx k x).draws = s.draws := rfl
@[simp] theorem State.setCtx_nextId : (s.setCtx k x).nextId = s.nextId := rfl
@[simp] theorem State.setCtx_mem : (s.setCtx k x).mem = s.mem := rfl
@[simp] theorem State.setCtx_memPoison : (s.setCtx k x).memPoison = s.memPoison := rfl
@[simp] theorem State.setCtx_bias : (s.setCtx k x).bias = s.bias := rfl
@[simp] theorem State.setCtx_homes : (s.setCtx k x).homes = s.homes := rfl
@[simp] theorem State.setCtx_dies : (s.setCtx k x).dies = s.dies := rfl
@[simp] theorem State.setCtx_cores : (s.setCtx k x).cores = s.cores := rfl
@[simp] theorem State.setCtx_dca : (s.setCtx k x).dca = s.dca := rfl
@[simp] theorem State.setCtx_ctxs : (s.setCtx k x).ctxs = Tab.put s.ctxs k x := rfl
@[simp] theorem State.setCtx_parts : (s.setCtx k x).parts = s.parts := rfl
@[simp] theorem State.setCtx_ogs : (s.setCtx k x).ogs = s.ogs := rfl
@[simp] theorem State.setCtx_mapGen : (s.setCtx k x).mapGen = s.mapGen := rfl
@[simp] theorem State.setCtx_grids : (s.setCtx k x).grids = s.grids := rfl
@[simp] theorem State.setCtx_clusters : (s.setCtx k x).clusters = s.clusters := rfl
@[simp] theorem State.setCtx_wgs : (s.setCtx k x).wgs = s.wgs := rfl
@[simp] theorem State.setCtx_warps : (s.setCtx k x).warps = s.warps := rfl
@[simp] theorem State.setCtx_ops : (s.setCtx k x).ops = s.ops := rfl
@[simp] theorem State.setCtx_pkts : (s.setCtx k x).pkts = s.pkts := rfl
@[simp] theorem State.setCtx_mons : (s.setCtx k x).mons = s.mons := rfl
@[simp] theorem State.setCtx_copies : (s.setCtx k x).copies = s.copies := rfl
@[simp] theorem State.setCtx_handoffs : (s.setCtx k x).handoffs = s.handoffs := rfl
@[simp] theorem State.setCtx_recs : (s.setCtx k x).recs = s.recs := rfl
@[simp] theorem State.setCtx_swaps : (s.setCtx k x).swaps = s.swaps := rfl
@[simp] theorem State.setCtx_hostDir : (s.setCtx k x).hostDir = s.hostDir := rfl
@[simp] theorem State.setCtx_snoops : (s.setCtx k x).snoops = s.snoops := rfl
@[simp] theorem State.setCtx_held : (s.setCtx k x).held = s.held := rfl
@[simp] theorem State.setCtx_hostResp : (s.setCtx k x).hostResp = s.hostResp := rfl
@[simp] theorem State.setCtx_hostMap : (s.setCtx k x).hostMap = s.hostMap := rfl
@[simp] theorem State.setCtx_peerResp : (s.setCtx k x).peerResp = s.peerResp := rfl
@[simp] theorem State.setCtx_flip : (s.setCtx k x).flip = s.flip := rfl
@[simp] theorem State.setCtx_bfErr : (s.setCtx k x).bfErr = s.bfErr := rfl
@[simp] theorem State.setCtx_bfRej : (s.setCtx k x).bfRej = s.bfRej := rfl
@[simp] theorem State.setCtx_reductions : (s.setCtx k x).reductions = s.reductions := rfl
@[simp] theorem State.setCtx_meshDown : (s.setCtx k x).meshDown = s.meshDown := rfl
@[simp] theorem State.setCtx_policy : (s.setCtx k x).policy = s.policy := rfl
@[simp] theorem State.setCtx_mgmt : (s.setCtx k x).mgmt = s.mgmt := rfl
@[simp] theorem State.setCtx_firefly : (s.setCtx k x).firefly = s.firefly := rfl
@[simp] theorem State.setCtx_preempts : (s.setCtx k x).preempts = s.preempts := rfl
end setCtx

section setDie
variable (x : Die)
@[simp] theorem State.setDie_clock : (s.setDie k x).clock = s.clock := rfl
@[simp] theorem State.setDie_agenda : (s.setDie k x).agenda = s.agenda := rfl
@[simp] theorem State.setDie_cur : (s.setDie k x).cur = s.cur := rfl
@[simp] theorem State.setDie_draws : (s.setDie k x).draws = s.draws := rfl
@[simp] theorem State.setDie_nextId : (s.setDie k x).nextId = s.nextId := rfl
@[simp] theorem State.setDie_mem : (s.setDie k x).mem = s.mem := rfl
@[simp] theorem State.setDie_memPoison : (s.setDie k x).memPoison = s.memPoison := rfl
@[simp] theorem State.setDie_bias : (s.setDie k x).bias = s.bias := rfl
@[simp] theorem State.setDie_homes : (s.setDie k x).homes = s.homes := rfl
@[simp] theorem State.setDie_dies : (s.setDie k x).dies = Tab.put s.dies k x := rfl
@[simp] theorem State.setDie_cores : (s.setDie k x).cores = s.cores := rfl
@[simp] theorem State.setDie_dca : (s.setDie k x).dca = s.dca := rfl
@[simp] theorem State.setDie_ctxs : (s.setDie k x).ctxs = s.ctxs := rfl
@[simp] theorem State.setDie_parts : (s.setDie k x).parts = s.parts := rfl
@[simp] theorem State.setDie_ogs : (s.setDie k x).ogs = s.ogs := rfl
@[simp] theorem State.setDie_mapGen : (s.setDie k x).mapGen = s.mapGen := rfl
@[simp] theorem State.setDie_grids : (s.setDie k x).grids = s.grids := rfl
@[simp] theorem State.setDie_clusters : (s.setDie k x).clusters = s.clusters := rfl
@[simp] theorem State.setDie_wgs : (s.setDie k x).wgs = s.wgs := rfl
@[simp] theorem State.setDie_warps : (s.setDie k x).warps = s.warps := rfl
@[simp] theorem State.setDie_ops : (s.setDie k x).ops = s.ops := rfl
@[simp] theorem State.setDie_pkts : (s.setDie k x).pkts = s.pkts := rfl
@[simp] theorem State.setDie_mons : (s.setDie k x).mons = s.mons := rfl
@[simp] theorem State.setDie_copies : (s.setDie k x).copies = s.copies := rfl
@[simp] theorem State.setDie_handoffs : (s.setDie k x).handoffs = s.handoffs := rfl
@[simp] theorem State.setDie_recs : (s.setDie k x).recs = s.recs := rfl
@[simp] theorem State.setDie_swaps : (s.setDie k x).swaps = s.swaps := rfl
@[simp] theorem State.setDie_hostDir : (s.setDie k x).hostDir = s.hostDir := rfl
@[simp] theorem State.setDie_snoops : (s.setDie k x).snoops = s.snoops := rfl
@[simp] theorem State.setDie_held : (s.setDie k x).held = s.held := rfl
@[simp] theorem State.setDie_hostResp : (s.setDie k x).hostResp = s.hostResp := rfl
@[simp] theorem State.setDie_hostMap : (s.setDie k x).hostMap = s.hostMap := rfl
@[simp] theorem State.setDie_peerResp : (s.setDie k x).peerResp = s.peerResp := rfl
@[simp] theorem State.setDie_flip : (s.setDie k x).flip = s.flip := rfl
@[simp] theorem State.setDie_bfErr : (s.setDie k x).bfErr = s.bfErr := rfl
@[simp] theorem State.setDie_bfRej : (s.setDie k x).bfRej = s.bfRej := rfl
@[simp] theorem State.setDie_reductions : (s.setDie k x).reductions = s.reductions := rfl
@[simp] theorem State.setDie_meshDown : (s.setDie k x).meshDown = s.meshDown := rfl
@[simp] theorem State.setDie_policy : (s.setDie k x).policy = s.policy := rfl
@[simp] theorem State.setDie_mgmt : (s.setDie k x).mgmt = s.mgmt := rfl
@[simp] theorem State.setDie_firefly : (s.setDie k x).firefly = s.firefly := rfl
@[simp] theorem State.setDie_preempts : (s.setDie k x).preempts = s.preempts := rfl
end setDie

section setCore
variable (x : Core)
@[simp] theorem State.setCore_clock : (s.setCore k x).clock = s.clock := rfl
@[simp] theorem State.setCore_agenda : (s.setCore k x).agenda = s.agenda := rfl
@[simp] theorem State.setCore_cur : (s.setCore k x).cur = s.cur := rfl
@[simp] theorem State.setCore_draws : (s.setCore k x).draws = s.draws := rfl
@[simp] theorem State.setCore_nextId : (s.setCore k x).nextId = s.nextId := rfl
@[simp] theorem State.setCore_mem : (s.setCore k x).mem = s.mem := rfl
@[simp] theorem State.setCore_memPoison : (s.setCore k x).memPoison = s.memPoison := rfl
@[simp] theorem State.setCore_bias : (s.setCore k x).bias = s.bias := rfl
@[simp] theorem State.setCore_homes : (s.setCore k x).homes = s.homes := rfl
@[simp] theorem State.setCore_dies : (s.setCore k x).dies = s.dies := rfl
@[simp] theorem State.setCore_cores : (s.setCore k x).cores = Tab.put s.cores k x := rfl
@[simp] theorem State.setCore_dca : (s.setCore k x).dca = s.dca := rfl
@[simp] theorem State.setCore_ctxs : (s.setCore k x).ctxs = s.ctxs := rfl
@[simp] theorem State.setCore_parts : (s.setCore k x).parts = s.parts := rfl
@[simp] theorem State.setCore_ogs : (s.setCore k x).ogs = s.ogs := rfl
@[simp] theorem State.setCore_mapGen : (s.setCore k x).mapGen = s.mapGen := rfl
@[simp] theorem State.setCore_grids : (s.setCore k x).grids = s.grids := rfl
@[simp] theorem State.setCore_clusters : (s.setCore k x).clusters = s.clusters := rfl
@[simp] theorem State.setCore_wgs : (s.setCore k x).wgs = s.wgs := rfl
@[simp] theorem State.setCore_warps : (s.setCore k x).warps = s.warps := rfl
@[simp] theorem State.setCore_ops : (s.setCore k x).ops = s.ops := rfl
@[simp] theorem State.setCore_pkts : (s.setCore k x).pkts = s.pkts := rfl
@[simp] theorem State.setCore_mons : (s.setCore k x).mons = s.mons := rfl
@[simp] theorem State.setCore_copies : (s.setCore k x).copies = s.copies := rfl
@[simp] theorem State.setCore_handoffs : (s.setCore k x).handoffs = s.handoffs := rfl
@[simp] theorem State.setCore_recs : (s.setCore k x).recs = s.recs := rfl
@[simp] theorem State.setCore_swaps : (s.setCore k x).swaps = s.swaps := rfl
@[simp] theorem State.setCore_hostDir : (s.setCore k x).hostDir = s.hostDir := rfl
@[simp] theorem State.setCore_snoops : (s.setCore k x).snoops = s.snoops := rfl
@[simp] theorem State.setCore_held : (s.setCore k x).held = s.held := rfl
@[simp] theorem State.setCore_hostResp : (s.setCore k x).hostResp = s.hostResp := rfl
@[simp] theorem State.setCore_hostMap : (s.setCore k x).hostMap = s.hostMap := rfl
@[simp] theorem State.setCore_peerResp : (s.setCore k x).peerResp = s.peerResp := rfl
@[simp] theorem State.setCore_flip : (s.setCore k x).flip = s.flip := rfl
@[simp] theorem State.setCore_bfErr : (s.setCore k x).bfErr = s.bfErr := rfl
@[simp] theorem State.setCore_bfRej : (s.setCore k x).bfRej = s.bfRej := rfl
@[simp] theorem State.setCore_reductions : (s.setCore k x).reductions = s.reductions := rfl
@[simp] theorem State.setCore_meshDown : (s.setCore k x).meshDown = s.meshDown := rfl
@[simp] theorem State.setCore_policy : (s.setCore k x).policy = s.policy := rfl
@[simp] theorem State.setCore_mgmt : (s.setCore k x).mgmt = s.mgmt := rfl
@[simp] theorem State.setCore_firefly : (s.setCore k x).firefly = s.firefly := rfl
@[simp] theorem State.setCore_preempts : (s.setCore k x).preempts = s.preempts := rfl
end setCore

section setHome
variable (x : Home)
@[simp] theorem State.setHome_clock : (s.setHome k x).clock = s.clock := rfl
@[simp] theorem State.setHome_agenda : (s.setHome k x).agenda = s.agenda := rfl
@[simp] theorem State.setHome_cur : (s.setHome k x).cur = s.cur := rfl
@[simp] theorem State.setHome_draws : (s.setHome k x).draws = s.draws := rfl
@[simp] theorem State.setHome_nextId : (s.setHome k x).nextId = s.nextId := rfl
@[simp] theorem State.setHome_mem : (s.setHome k x).mem = s.mem := rfl
@[simp] theorem State.setHome_memPoison : (s.setHome k x).memPoison = s.memPoison := rfl
@[simp] theorem State.setHome_bias : (s.setHome k x).bias = s.bias := rfl
@[simp] theorem State.setHome_homes : (s.setHome k x).homes = Tab.put s.homes k x := rfl
@[simp] theorem State.setHome_dies : (s.setHome k x).dies = s.dies := rfl
@[simp] theorem State.setHome_cores : (s.setHome k x).cores = s.cores := rfl
@[simp] theorem State.setHome_dca : (s.setHome k x).dca = s.dca := rfl
@[simp] theorem State.setHome_ctxs : (s.setHome k x).ctxs = s.ctxs := rfl
@[simp] theorem State.setHome_parts : (s.setHome k x).parts = s.parts := rfl
@[simp] theorem State.setHome_ogs : (s.setHome k x).ogs = s.ogs := rfl
@[simp] theorem State.setHome_mapGen : (s.setHome k x).mapGen = s.mapGen := rfl
@[simp] theorem State.setHome_grids : (s.setHome k x).grids = s.grids := rfl
@[simp] theorem State.setHome_clusters : (s.setHome k x).clusters = s.clusters := rfl
@[simp] theorem State.setHome_wgs : (s.setHome k x).wgs = s.wgs := rfl
@[simp] theorem State.setHome_warps : (s.setHome k x).warps = s.warps := rfl
@[simp] theorem State.setHome_ops : (s.setHome k x).ops = s.ops := rfl
@[simp] theorem State.setHome_pkts : (s.setHome k x).pkts = s.pkts := rfl
@[simp] theorem State.setHome_mons : (s.setHome k x).mons = s.mons := rfl
@[simp] theorem State.setHome_copies : (s.setHome k x).copies = s.copies := rfl
@[simp] theorem State.setHome_handoffs : (s.setHome k x).handoffs = s.handoffs := rfl
@[simp] theorem State.setHome_recs : (s.setHome k x).recs = s.recs := rfl
@[simp] theorem State.setHome_swaps : (s.setHome k x).swaps = s.swaps := rfl
@[simp] theorem State.setHome_hostDir : (s.setHome k x).hostDir = s.hostDir := rfl
@[simp] theorem State.setHome_snoops : (s.setHome k x).snoops = s.snoops := rfl
@[simp] theorem State.setHome_held : (s.setHome k x).held = s.held := rfl
@[simp] theorem State.setHome_hostResp : (s.setHome k x).hostResp = s.hostResp := rfl
@[simp] theorem State.setHome_hostMap : (s.setHome k x).hostMap = s.hostMap := rfl
@[simp] theorem State.setHome_peerResp : (s.setHome k x).peerResp = s.peerResp := rfl
@[simp] theorem State.setHome_flip : (s.setHome k x).flip = s.flip := rfl
@[simp] theorem State.setHome_bfErr : (s.setHome k x).bfErr = s.bfErr := rfl
@[simp] theorem State.setHome_bfRej : (s.setHome k x).bfRej = s.bfRej := rfl
@[simp] theorem State.setHome_reductions : (s.setHome k x).reductions = s.reductions := rfl
@[simp] theorem State.setHome_meshDown : (s.setHome k x).meshDown = s.meshDown := rfl
@[simp] theorem State.setHome_policy : (s.setHome k x).policy = s.policy := rfl
@[simp] theorem State.setHome_mgmt : (s.setHome k x).mgmt = s.mgmt := rfl
@[simp] theorem State.setHome_firefly : (s.setHome k x).firefly = s.firefly := rfl
@[simp] theorem State.setHome_preempts : (s.setHome k x).preempts = s.preempts := rfl
end setHome

section setOg
variable (x : Og)
@[simp] theorem State.setOg_clock : (s.setOg k x).clock = s.clock := rfl
@[simp] theorem State.setOg_agenda : (s.setOg k x).agenda = s.agenda := rfl
@[simp] theorem State.setOg_cur : (s.setOg k x).cur = s.cur := rfl
@[simp] theorem State.setOg_draws : (s.setOg k x).draws = s.draws := rfl
@[simp] theorem State.setOg_nextId : (s.setOg k x).nextId = s.nextId := rfl
@[simp] theorem State.setOg_mem : (s.setOg k x).mem = s.mem := rfl
@[simp] theorem State.setOg_memPoison : (s.setOg k x).memPoison = s.memPoison := rfl
@[simp] theorem State.setOg_bias : (s.setOg k x).bias = s.bias := rfl
@[simp] theorem State.setOg_homes : (s.setOg k x).homes = s.homes := rfl
@[simp] theorem State.setOg_dies : (s.setOg k x).dies = s.dies := rfl
@[simp] theorem State.setOg_cores : (s.setOg k x).cores = s.cores := rfl
@[simp] theorem State.setOg_dca : (s.setOg k x).dca = s.dca := rfl
@[simp] theorem State.setOg_ctxs : (s.setOg k x).ctxs = s.ctxs := rfl
@[simp] theorem State.setOg_parts : (s.setOg k x).parts = s.parts := rfl
@[simp] theorem State.setOg_ogs : (s.setOg k x).ogs = Tab.put s.ogs k x := rfl
@[simp] theorem State.setOg_mapGen : (s.setOg k x).mapGen = s.mapGen := rfl
@[simp] theorem State.setOg_grids : (s.setOg k x).grids = s.grids := rfl
@[simp] theorem State.setOg_clusters : (s.setOg k x).clusters = s.clusters := rfl
@[simp] theorem State.setOg_wgs : (s.setOg k x).wgs = s.wgs := rfl
@[simp] theorem State.setOg_warps : (s.setOg k x).warps = s.warps := rfl
@[simp] theorem State.setOg_ops : (s.setOg k x).ops = s.ops := rfl
@[simp] theorem State.setOg_pkts : (s.setOg k x).pkts = s.pkts := rfl
@[simp] theorem State.setOg_mons : (s.setOg k x).mons = s.mons := rfl
@[simp] theorem State.setOg_copies : (s.setOg k x).copies = s.copies := rfl
@[simp] theorem State.setOg_handoffs : (s.setOg k x).handoffs = s.handoffs := rfl
@[simp] theorem State.setOg_recs : (s.setOg k x).recs = s.recs := rfl
@[simp] theorem State.setOg_swaps : (s.setOg k x).swaps = s.swaps := rfl
@[simp] theorem State.setOg_hostDir : (s.setOg k x).hostDir = s.hostDir := rfl
@[simp] theorem State.setOg_snoops : (s.setOg k x).snoops = s.snoops := rfl
@[simp] theorem State.setOg_held : (s.setOg k x).held = s.held := rfl
@[simp] theorem State.setOg_hostResp : (s.setOg k x).hostResp = s.hostResp := rfl
@[simp] theorem State.setOg_hostMap : (s.setOg k x).hostMap = s.hostMap := rfl
@[simp] theorem State.setOg_peerResp : (s.setOg k x).peerResp = s.peerResp := rfl
@[simp] theorem State.setOg_flip : (s.setOg k x).flip = s.flip := rfl
@[simp] theorem State.setOg_bfErr : (s.setOg k x).bfErr = s.bfErr := rfl
@[simp] theorem State.setOg_bfRej : (s.setOg k x).bfRej = s.bfRej := rfl
@[simp] theorem State.setOg_reductions : (s.setOg k x).reductions = s.reductions := rfl
@[simp] theorem State.setOg_meshDown : (s.setOg k x).meshDown = s.meshDown := rfl
@[simp] theorem State.setOg_policy : (s.setOg k x).policy = s.policy := rfl
@[simp] theorem State.setOg_mgmt : (s.setOg k x).mgmt = s.mgmt := rfl
@[simp] theorem State.setOg_firefly : (s.setOg k x).firefly = s.firefly := rfl
@[simp] theorem State.setOg_preempts : (s.setOg k x).preempts = s.preempts := rfl
end setOg

section setPart
variable (x : Part)
@[simp] theorem State.setPart_clock : (s.setPart k x).clock = s.clock := rfl
@[simp] theorem State.setPart_agenda : (s.setPart k x).agenda = s.agenda := rfl
@[simp] theorem State.setPart_cur : (s.setPart k x).cur = s.cur := rfl
@[simp] theorem State.setPart_draws : (s.setPart k x).draws = s.draws := rfl
@[simp] theorem State.setPart_nextId : (s.setPart k x).nextId = s.nextId := rfl
@[simp] theorem State.setPart_mem : (s.setPart k x).mem = s.mem := rfl
@[simp] theorem State.setPart_memPoison : (s.setPart k x).memPoison = s.memPoison := rfl
@[simp] theorem State.setPart_bias : (s.setPart k x).bias = s.bias := rfl
@[simp] theorem State.setPart_homes : (s.setPart k x).homes = s.homes := rfl
@[simp] theorem State.setPart_dies : (s.setPart k x).dies = s.dies := rfl
@[simp] theorem State.setPart_cores : (s.setPart k x).cores = s.cores := rfl
@[simp] theorem State.setPart_dca : (s.setPart k x).dca = s.dca := rfl
@[simp] theorem State.setPart_ctxs : (s.setPart k x).ctxs = s.ctxs := rfl
@[simp] theorem State.setPart_parts : (s.setPart k x).parts = Tab.put s.parts k x := rfl
@[simp] theorem State.setPart_ogs : (s.setPart k x).ogs = s.ogs := rfl
@[simp] theorem State.setPart_mapGen : (s.setPart k x).mapGen = s.mapGen := rfl
@[simp] theorem State.setPart_grids : (s.setPart k x).grids = s.grids := rfl
@[simp] theorem State.setPart_clusters : (s.setPart k x).clusters = s.clusters := rfl
@[simp] theorem State.setPart_wgs : (s.setPart k x).wgs = s.wgs := rfl
@[simp] theorem State.setPart_warps : (s.setPart k x).warps = s.warps := rfl
@[simp] theorem State.setPart_ops : (s.setPart k x).ops = s.ops := rfl
@[simp] theorem State.setPart_pkts : (s.setPart k x).pkts = s.pkts := rfl
@[simp] theorem State.setPart_mons : (s.setPart k x).mons = s.mons := rfl
@[simp] theorem State.setPart_copies : (s.setPart k x).copies = s.copies := rfl
@[simp] theorem State.setPart_handoffs : (s.setPart k x).handoffs = s.handoffs := rfl
@[simp] theorem State.setPart_recs : (s.setPart k x).recs = s.recs := rfl
@[simp] theorem State.setPart_swaps : (s.setPart k x).swaps = s.swaps := rfl
@[simp] theorem State.setPart_hostDir : (s.setPart k x).hostDir = s.hostDir := rfl
@[simp] theorem State.setPart_snoops : (s.setPart k x).snoops = s.snoops := rfl
@[simp] theorem State.setPart_held : (s.setPart k x).held = s.held := rfl
@[simp] theorem State.setPart_hostResp : (s.setPart k x).hostResp = s.hostResp := rfl
@[simp] theorem State.setPart_hostMap : (s.setPart k x).hostMap = s.hostMap := rfl
@[simp] theorem State.setPart_peerResp : (s.setPart k x).peerResp = s.peerResp := rfl
@[simp] theorem State.setPart_flip : (s.setPart k x).flip = s.flip := rfl
@[simp] theorem State.setPart_bfErr : (s.setPart k x).bfErr = s.bfErr := rfl
@[simp] theorem State.setPart_bfRej : (s.setPart k x).bfRej = s.bfRej := rfl
@[simp] theorem State.setPart_reductions : (s.setPart k x).reductions = s.reductions := rfl
@[simp] theorem State.setPart_meshDown : (s.setPart k x).meshDown = s.meshDown := rfl
@[simp] theorem State.setPart_policy : (s.setPart k x).policy = s.policy := rfl
@[simp] theorem State.setPart_mgmt : (s.setPart k x).mgmt = s.mgmt := rfl
@[simp] theorem State.setPart_firefly : (s.setPart k x).firefly = s.firefly := rfl
@[simp] theorem State.setPart_preempts : (s.setPart k x).preempts = s.preempts := rfl
end setPart

section setWarp
variable (x : Warp)
@[simp] theorem State.setWarp_clock : (s.setWarp k x).clock = s.clock := rfl
@[simp] theorem State.setWarp_agenda : (s.setWarp k x).agenda = s.agenda := rfl
@[simp] theorem State.setWarp_cur : (s.setWarp k x).cur = s.cur := rfl
@[simp] theorem State.setWarp_draws : (s.setWarp k x).draws = s.draws := rfl
@[simp] theorem State.setWarp_nextId : (s.setWarp k x).nextId = s.nextId := rfl
@[simp] theorem State.setWarp_mem : (s.setWarp k x).mem = s.mem := rfl
@[simp] theorem State.setWarp_memPoison : (s.setWarp k x).memPoison = s.memPoison := rfl
@[simp] theorem State.setWarp_bias : (s.setWarp k x).bias = s.bias := rfl
@[simp] theorem State.setWarp_homes : (s.setWarp k x).homes = s.homes := rfl
@[simp] theorem State.setWarp_dies : (s.setWarp k x).dies = s.dies := rfl
@[simp] theorem State.setWarp_cores : (s.setWarp k x).cores = s.cores := rfl
@[simp] theorem State.setWarp_dca : (s.setWarp k x).dca = s.dca := rfl
@[simp] theorem State.setWarp_ctxs : (s.setWarp k x).ctxs = s.ctxs := rfl
@[simp] theorem State.setWarp_parts : (s.setWarp k x).parts = s.parts := rfl
@[simp] theorem State.setWarp_ogs : (s.setWarp k x).ogs = s.ogs := rfl
@[simp] theorem State.setWarp_mapGen : (s.setWarp k x).mapGen = s.mapGen := rfl
@[simp] theorem State.setWarp_grids : (s.setWarp k x).grids = s.grids := rfl
@[simp] theorem State.setWarp_clusters : (s.setWarp k x).clusters = s.clusters := rfl
@[simp] theorem State.setWarp_wgs : (s.setWarp k x).wgs = s.wgs := rfl
@[simp] theorem State.setWarp_warps : (s.setWarp k x).warps = Tab.put s.warps k x := rfl
@[simp] theorem State.setWarp_ops : (s.setWarp k x).ops = s.ops := rfl
@[simp] theorem State.setWarp_pkts : (s.setWarp k x).pkts = s.pkts := rfl
@[simp] theorem State.setWarp_mons : (s.setWarp k x).mons = s.mons := rfl
@[simp] theorem State.setWarp_copies : (s.setWarp k x).copies = s.copies := rfl
@[simp] theorem State.setWarp_handoffs : (s.setWarp k x).handoffs = s.handoffs := rfl
@[simp] theorem State.setWarp_recs : (s.setWarp k x).recs = s.recs := rfl
@[simp] theorem State.setWarp_swaps : (s.setWarp k x).swaps = s.swaps := rfl
@[simp] theorem State.setWarp_hostDir : (s.setWarp k x).hostDir = s.hostDir := rfl
@[simp] theorem State.setWarp_snoops : (s.setWarp k x).snoops = s.snoops := rfl
@[simp] theorem State.setWarp_held : (s.setWarp k x).held = s.held := rfl
@[simp] theorem State.setWarp_hostResp : (s.setWarp k x).hostResp = s.hostResp := rfl
@[simp] theorem State.setWarp_hostMap : (s.setWarp k x).hostMap = s.hostMap := rfl
@[simp] theorem State.setWarp_peerResp : (s.setWarp k x).peerResp = s.peerResp := rfl
@[simp] theorem State.setWarp_flip : (s.setWarp k x).flip = s.flip := rfl
@[simp] theorem State.setWarp_bfErr : (s.setWarp k x).bfErr = s.bfErr := rfl
@[simp] theorem State.setWarp_bfRej : (s.setWarp k x).bfRej = s.bfRej := rfl
@[simp] theorem State.setWarp_reductions : (s.setWarp k x).reductions = s.reductions := rfl
@[simp] theorem State.setWarp_meshDown : (s.setWarp k x).meshDown = s.meshDown := rfl
@[simp] theorem State.setWarp_policy : (s.setWarp k x).policy = s.policy := rfl
@[simp] theorem State.setWarp_mgmt : (s.setWarp k x).mgmt = s.mgmt := rfl
@[simp] theorem State.setWarp_firefly : (s.setWarp k x).firefly = s.firefly := rfl
@[simp] theorem State.setWarp_preempts : (s.setWarp k x).preempts = s.preempts := rfl
end setWarp

section setWg
variable (x : Wg)
@[simp] theorem State.setWg_clock : (s.setWg k x).clock = s.clock := rfl
@[simp] theorem State.setWg_agenda : (s.setWg k x).agenda = s.agenda := rfl
@[simp] theorem State.setWg_cur : (s.setWg k x).cur = s.cur := rfl
@[simp] theorem State.setWg_draws : (s.setWg k x).draws = s.draws := rfl
@[simp] theorem State.setWg_nextId : (s.setWg k x).nextId = s.nextId := rfl
@[simp] theorem State.setWg_mem : (s.setWg k x).mem = s.mem := rfl
@[simp] theorem State.setWg_memPoison : (s.setWg k x).memPoison = s.memPoison := rfl
@[simp] theorem State.setWg_bias : (s.setWg k x).bias = s.bias := rfl
@[simp] theorem State.setWg_homes : (s.setWg k x).homes = s.homes := rfl
@[simp] theorem State.setWg_dies : (s.setWg k x).dies = s.dies := rfl
@[simp] theorem State.setWg_cores : (s.setWg k x).cores = s.cores := rfl
@[simp] theorem State.setWg_dca : (s.setWg k x).dca = s.dca := rfl
@[simp] theorem State.setWg_ctxs : (s.setWg k x).ctxs = s.ctxs := rfl
@[simp] theorem State.setWg_parts : (s.setWg k x).parts = s.parts := rfl
@[simp] theorem State.setWg_ogs : (s.setWg k x).ogs = s.ogs := rfl
@[simp] theorem State.setWg_mapGen : (s.setWg k x).mapGen = s.mapGen := rfl
@[simp] theorem State.setWg_grids : (s.setWg k x).grids = s.grids := rfl
@[simp] theorem State.setWg_clusters : (s.setWg k x).clusters = s.clusters := rfl
@[simp] theorem State.setWg_wgs : (s.setWg k x).wgs = Tab.put s.wgs k x := rfl
@[simp] theorem State.setWg_warps : (s.setWg k x).warps = s.warps := rfl
@[simp] theorem State.setWg_ops : (s.setWg k x).ops = s.ops := rfl
@[simp] theorem State.setWg_pkts : (s.setWg k x).pkts = s.pkts := rfl
@[simp] theorem State.setWg_mons : (s.setWg k x).mons = s.mons := rfl
@[simp] theorem State.setWg_copies : (s.setWg k x).copies = s.copies := rfl
@[simp] theorem State.setWg_handoffs : (s.setWg k x).handoffs = s.handoffs := rfl
@[simp] theorem State.setWg_recs : (s.setWg k x).recs = s.recs := rfl
@[simp] theorem State.setWg_swaps : (s.setWg k x).swaps = s.swaps := rfl
@[simp] theorem State.setWg_hostDir : (s.setWg k x).hostDir = s.hostDir := rfl
@[simp] theorem State.setWg_snoops : (s.setWg k x).snoops = s.snoops := rfl
@[simp] theorem State.setWg_held : (s.setWg k x).held = s.held := rfl
@[simp] theorem State.setWg_hostResp : (s.setWg k x).hostResp = s.hostResp := rfl
@[simp] theorem State.setWg_hostMap : (s.setWg k x).hostMap = s.hostMap := rfl
@[simp] theorem State.setWg_peerResp : (s.setWg k x).peerResp = s.peerResp := rfl
@[simp] theorem State.setWg_flip : (s.setWg k x).flip = s.flip := rfl
@[simp] theorem State.setWg_bfErr : (s.setWg k x).bfErr = s.bfErr := rfl
@[simp] theorem State.setWg_bfRej : (s.setWg k x).bfRej = s.bfRej := rfl
@[simp] theorem State.setWg_reductions : (s.setWg k x).reductions = s.reductions := rfl
@[simp] theorem State.setWg_meshDown : (s.setWg k x).meshDown = s.meshDown := rfl
@[simp] theorem State.setWg_policy : (s.setWg k x).policy = s.policy := rfl
@[simp] theorem State.setWg_mgmt : (s.setWg k x).mgmt = s.mgmt := rfl
@[simp] theorem State.setWg_firefly : (s.setWg k x).firefly = s.firefly := rfl
@[simp] theorem State.setWg_preempts : (s.setWg k x).preempts = s.preempts := rfl
end setWg

section setCluster
variable (x : Cluster)
@[simp] theorem State.setCluster_clock : (s.setCluster k x).clock = s.clock := rfl
@[simp] theorem State.setCluster_agenda : (s.setCluster k x).agenda = s.agenda := rfl
@[simp] theorem State.setCluster_cur : (s.setCluster k x).cur = s.cur := rfl
@[simp] theorem State.setCluster_draws : (s.setCluster k x).draws = s.draws := rfl
@[simp] theorem State.setCluster_nextId : (s.setCluster k x).nextId = s.nextId := rfl
@[simp] theorem State.setCluster_mem : (s.setCluster k x).mem = s.mem := rfl
@[simp] theorem State.setCluster_memPoison : (s.setCluster k x).memPoison = s.memPoison := rfl
@[simp] theorem State.setCluster_bias : (s.setCluster k x).bias = s.bias := rfl
@[simp] theorem State.setCluster_homes : (s.setCluster k x).homes = s.homes := rfl
@[simp] theorem State.setCluster_dies : (s.setCluster k x).dies = s.dies := rfl
@[simp] theorem State.setCluster_cores : (s.setCluster k x).cores = s.cores := rfl
@[simp] theorem State.setCluster_dca : (s.setCluster k x).dca = s.dca := rfl
@[simp] theorem State.setCluster_ctxs : (s.setCluster k x).ctxs = s.ctxs := rfl
@[simp] theorem State.setCluster_parts : (s.setCluster k x).parts = s.parts := rfl
@[simp] theorem State.setCluster_ogs : (s.setCluster k x).ogs = s.ogs := rfl
@[simp] theorem State.setCluster_mapGen : (s.setCluster k x).mapGen = s.mapGen := rfl
@[simp] theorem State.setCluster_grids : (s.setCluster k x).grids = s.grids := rfl
@[simp] theorem State.setCluster_clusters : (s.setCluster k x).clusters = Tab.put s.clusters k x := rfl
@[simp] theorem State.setCluster_wgs : (s.setCluster k x).wgs = s.wgs := rfl
@[simp] theorem State.setCluster_warps : (s.setCluster k x).warps = s.warps := rfl
@[simp] theorem State.setCluster_ops : (s.setCluster k x).ops = s.ops := rfl
@[simp] theorem State.setCluster_pkts : (s.setCluster k x).pkts = s.pkts := rfl
@[simp] theorem State.setCluster_mons : (s.setCluster k x).mons = s.mons := rfl
@[simp] theorem State.setCluster_copies : (s.setCluster k x).copies = s.copies := rfl
@[simp] theorem State.setCluster_handoffs : (s.setCluster k x).handoffs = s.handoffs := rfl
@[simp] theorem State.setCluster_recs : (s.setCluster k x).recs = s.recs := rfl
@[simp] theorem State.setCluster_swaps : (s.setCluster k x).swaps = s.swaps := rfl
@[simp] theorem State.setCluster_hostDir : (s.setCluster k x).hostDir = s.hostDir := rfl
@[simp] theorem State.setCluster_snoops : (s.setCluster k x).snoops = s.snoops := rfl
@[simp] theorem State.setCluster_held : (s.setCluster k x).held = s.held := rfl
@[simp] theorem State.setCluster_hostResp : (s.setCluster k x).hostResp = s.hostResp := rfl
@[simp] theorem State.setCluster_hostMap : (s.setCluster k x).hostMap = s.hostMap := rfl
@[simp] theorem State.setCluster_peerResp : (s.setCluster k x).peerResp = s.peerResp := rfl
@[simp] theorem State.setCluster_flip : (s.setCluster k x).flip = s.flip := rfl
@[simp] theorem State.setCluster_bfErr : (s.setCluster k x).bfErr = s.bfErr := rfl
@[simp] theorem State.setCluster_bfRej : (s.setCluster k x).bfRej = s.bfRej := rfl
@[simp] theorem State.setCluster_reductions : (s.setCluster k x).reductions = s.reductions := rfl
@[simp] theorem State.setCluster_meshDown : (s.setCluster k x).meshDown = s.meshDown := rfl
@[simp] theorem State.setCluster_policy : (s.setCluster k x).policy = s.policy := rfl
@[simp] theorem State.setCluster_mgmt : (s.setCluster k x).mgmt = s.mgmt := rfl
@[simp] theorem State.setCluster_firefly : (s.setCluster k x).firefly = s.firefly := rfl
@[simp] theorem State.setCluster_preempts : (s.setCluster k x).preempts = s.preempts := rfl
end setCluster

section setGrid
variable (x : Grid)
@[simp] theorem State.setGrid_clock : (s.setGrid k x).clock = s.clock := rfl
@[simp] theorem State.setGrid_agenda : (s.setGrid k x).agenda = s.agenda := rfl
@[simp] theorem State.setGrid_cur : (s.setGrid k x).cur = s.cur := rfl
@[simp] theorem State.setGrid_draws : (s.setGrid k x).draws = s.draws := rfl
@[simp] theorem State.setGrid_nextId : (s.setGrid k x).nextId = s.nextId := rfl
@[simp] theorem State.setGrid_mem : (s.setGrid k x).mem = s.mem := rfl
@[simp] theorem State.setGrid_memPoison : (s.setGrid k x).memPoison = s.memPoison := rfl
@[simp] theorem State.setGrid_bias : (s.setGrid k x).bias = s.bias := rfl
@[simp] theorem State.setGrid_homes : (s.setGrid k x).homes = s.homes := rfl
@[simp] theorem State.setGrid_dies : (s.setGrid k x).dies = s.dies := rfl
@[simp] theorem State.setGrid_cores : (s.setGrid k x).cores = s.cores := rfl
@[simp] theorem State.setGrid_dca : (s.setGrid k x).dca = s.dca := rfl
@[simp] theorem State.setGrid_ctxs : (s.setGrid k x).ctxs = s.ctxs := rfl
@[simp] theorem State.setGrid_parts : (s.setGrid k x).parts = s.parts := rfl
@[simp] theorem State.setGrid_ogs : (s.setGrid k x).ogs = s.ogs := rfl
@[simp] theorem State.setGrid_mapGen : (s.setGrid k x).mapGen = s.mapGen := rfl
@[simp] theorem State.setGrid_grids : (s.setGrid k x).grids = Tab.put s.grids k x := rfl
@[simp] theorem State.setGrid_clusters : (s.setGrid k x).clusters = s.clusters := rfl
@[simp] theorem State.setGrid_wgs : (s.setGrid k x).wgs = s.wgs := rfl
@[simp] theorem State.setGrid_warps : (s.setGrid k x).warps = s.warps := rfl
@[simp] theorem State.setGrid_ops : (s.setGrid k x).ops = s.ops := rfl
@[simp] theorem State.setGrid_pkts : (s.setGrid k x).pkts = s.pkts := rfl
@[simp] theorem State.setGrid_mons : (s.setGrid k x).mons = s.mons := rfl
@[simp] theorem State.setGrid_copies : (s.setGrid k x).copies = s.copies := rfl
@[simp] theorem State.setGrid_handoffs : (s.setGrid k x).handoffs = s.handoffs := rfl
@[simp] theorem State.setGrid_recs : (s.setGrid k x).recs = s.recs := rfl
@[simp] theorem State.setGrid_swaps : (s.setGrid k x).swaps = s.swaps := rfl
@[simp] theorem State.setGrid_hostDir : (s.setGrid k x).hostDir = s.hostDir := rfl
@[simp] theorem State.setGrid_snoops : (s.setGrid k x).snoops = s.snoops := rfl
@[simp] theorem State.setGrid_held : (s.setGrid k x).held = s.held := rfl
@[simp] theorem State.setGrid_hostResp : (s.setGrid k x).hostResp = s.hostResp := rfl
@[simp] theorem State.setGrid_hostMap : (s.setGrid k x).hostMap = s.hostMap := rfl
@[simp] theorem State.setGrid_peerResp : (s.setGrid k x).peerResp = s.peerResp := rfl
@[simp] theorem State.setGrid_flip : (s.setGrid k x).flip = s.flip := rfl
@[simp] theorem State.setGrid_bfErr : (s.setGrid k x).bfErr = s.bfErr := rfl
@[simp] theorem State.setGrid_bfRej : (s.setGrid k x).bfRej = s.bfRej := rfl
@[simp] theorem State.setGrid_reductions : (s.setGrid k x).reductions = s.reductions := rfl
@[simp] theorem State.setGrid_meshDown : (s.setGrid k x).meshDown = s.meshDown := rfl
@[simp] theorem State.setGrid_policy : (s.setGrid k x).policy = s.policy := rfl
@[simp] theorem State.setGrid_mgmt : (s.setGrid k x).mgmt = s.mgmt := rfl
@[simp] theorem State.setGrid_firefly : (s.setGrid k x).firefly = s.firefly := rfl
@[simp] theorem State.setGrid_preempts : (s.setGrid k x).preempts = s.preempts := rfl
end setGrid

section setOp
variable (x : Op)
@[simp] theorem State.setOp_clock : (s.setOp k x).clock = s.clock := rfl
@[simp] theorem State.setOp_agenda : (s.setOp k x).agenda = s.agenda := rfl
@[simp] theorem State.setOp_cur : (s.setOp k x).cur = s.cur := rfl
@[simp] theorem State.setOp_draws : (s.setOp k x).draws = s.draws := rfl
@[simp] theorem State.setOp_nextId : (s.setOp k x).nextId = s.nextId := rfl
@[simp] theorem State.setOp_mem : (s.setOp k x).mem = s.mem := rfl
@[simp] theorem State.setOp_memPoison : (s.setOp k x).memPoison = s.memPoison := rfl
@[simp] theorem State.setOp_bias : (s.setOp k x).bias = s.bias := rfl
@[simp] theorem State.setOp_homes : (s.setOp k x).homes = s.homes := rfl
@[simp] theorem State.setOp_dies : (s.setOp k x).dies = s.dies := rfl
@[simp] theorem State.setOp_cores : (s.setOp k x).cores = s.cores := rfl
@[simp] theorem State.setOp_dca : (s.setOp k x).dca = s.dca := rfl
@[simp] theorem State.setOp_ctxs : (s.setOp k x).ctxs = s.ctxs := rfl
@[simp] theorem State.setOp_parts : (s.setOp k x).parts = s.parts := rfl
@[simp] theorem State.setOp_ogs : (s.setOp k x).ogs = s.ogs := rfl
@[simp] theorem State.setOp_mapGen : (s.setOp k x).mapGen = s.mapGen := rfl
@[simp] theorem State.setOp_grids : (s.setOp k x).grids = s.grids := rfl
@[simp] theorem State.setOp_clusters : (s.setOp k x).clusters = s.clusters := rfl
@[simp] theorem State.setOp_wgs : (s.setOp k x).wgs = s.wgs := rfl
@[simp] theorem State.setOp_warps : (s.setOp k x).warps = s.warps := rfl
@[simp] theorem State.setOp_ops : (s.setOp k x).ops = Tab.put s.ops k x := rfl
@[simp] theorem State.setOp_pkts : (s.setOp k x).pkts = s.pkts := rfl
@[simp] theorem State.setOp_mons : (s.setOp k x).mons = s.mons := rfl
@[simp] theorem State.setOp_copies : (s.setOp k x).copies = s.copies := rfl
@[simp] theorem State.setOp_handoffs : (s.setOp k x).handoffs = s.handoffs := rfl
@[simp] theorem State.setOp_recs : (s.setOp k x).recs = s.recs := rfl
@[simp] theorem State.setOp_swaps : (s.setOp k x).swaps = s.swaps := rfl
@[simp] theorem State.setOp_hostDir : (s.setOp k x).hostDir = s.hostDir := rfl
@[simp] theorem State.setOp_snoops : (s.setOp k x).snoops = s.snoops := rfl
@[simp] theorem State.setOp_held : (s.setOp k x).held = s.held := rfl
@[simp] theorem State.setOp_hostResp : (s.setOp k x).hostResp = s.hostResp := rfl
@[simp] theorem State.setOp_hostMap : (s.setOp k x).hostMap = s.hostMap := rfl
@[simp] theorem State.setOp_peerResp : (s.setOp k x).peerResp = s.peerResp := rfl
@[simp] theorem State.setOp_flip : (s.setOp k x).flip = s.flip := rfl
@[simp] theorem State.setOp_bfErr : (s.setOp k x).bfErr = s.bfErr := rfl
@[simp] theorem State.setOp_bfRej : (s.setOp k x).bfRej = s.bfRej := rfl
@[simp] theorem State.setOp_reductions : (s.setOp k x).reductions = s.reductions := rfl
@[simp] theorem State.setOp_meshDown : (s.setOp k x).meshDown = s.meshDown := rfl
@[simp] theorem State.setOp_policy : (s.setOp k x).policy = s.policy := rfl
@[simp] theorem State.setOp_mgmt : (s.setOp k x).mgmt = s.mgmt := rfl
@[simp] theorem State.setOp_firefly : (s.setOp k x).firefly = s.firefly := rfl
@[simp] theorem State.setOp_preempts : (s.setOp k x).preempts = s.preempts := rfl
end setOp

section modWarp
variable (f : Warp → Warp)
@[simp] theorem State.modWarp_clock : (s.modWarp k f).clock = s.clock := rfl
@[simp] theorem State.modWarp_agenda : (s.modWarp k f).agenda = s.agenda := rfl
@[simp] theorem State.modWarp_cur : (s.modWarp k f).cur = s.cur := rfl
@[simp] theorem State.modWarp_draws : (s.modWarp k f).draws = s.draws := rfl
@[simp] theorem State.modWarp_nextId : (s.modWarp k f).nextId = s.nextId := rfl
@[simp] theorem State.modWarp_mem : (s.modWarp k f).mem = s.mem := rfl
@[simp] theorem State.modWarp_memPoison : (s.modWarp k f).memPoison = s.memPoison := rfl
@[simp] theorem State.modWarp_bias : (s.modWarp k f).bias = s.bias := rfl
@[simp] theorem State.modWarp_homes : (s.modWarp k f).homes = s.homes := rfl
@[simp] theorem State.modWarp_dies : (s.modWarp k f).dies = s.dies := rfl
@[simp] theorem State.modWarp_cores : (s.modWarp k f).cores = s.cores := rfl
@[simp] theorem State.modWarp_dca : (s.modWarp k f).dca = s.dca := rfl
@[simp] theorem State.modWarp_ctxs : (s.modWarp k f).ctxs = s.ctxs := rfl
@[simp] theorem State.modWarp_parts : (s.modWarp k f).parts = s.parts := rfl
@[simp] theorem State.modWarp_ogs : (s.modWarp k f).ogs = s.ogs := rfl
@[simp] theorem State.modWarp_mapGen : (s.modWarp k f).mapGen = s.mapGen := rfl
@[simp] theorem State.modWarp_grids : (s.modWarp k f).grids = s.grids := rfl
@[simp] theorem State.modWarp_clusters : (s.modWarp k f).clusters = s.clusters := rfl
@[simp] theorem State.modWarp_wgs : (s.modWarp k f).wgs = s.wgs := rfl
@[simp] theorem State.modWarp_warps : (s.modWarp k f).warps = Tab.mod s.warps k f := rfl
@[simp] theorem State.modWarp_ops : (s.modWarp k f).ops = s.ops := rfl
@[simp] theorem State.modWarp_pkts : (s.modWarp k f).pkts = s.pkts := rfl
@[simp] theorem State.modWarp_mons : (s.modWarp k f).mons = s.mons := rfl
@[simp] theorem State.modWarp_copies : (s.modWarp k f).copies = s.copies := rfl
@[simp] theorem State.modWarp_handoffs : (s.modWarp k f).handoffs = s.handoffs := rfl
@[simp] theorem State.modWarp_recs : (s.modWarp k f).recs = s.recs := rfl
@[simp] theorem State.modWarp_swaps : (s.modWarp k f).swaps = s.swaps := rfl
@[simp] theorem State.modWarp_hostDir : (s.modWarp k f).hostDir = s.hostDir := rfl
@[simp] theorem State.modWarp_snoops : (s.modWarp k f).snoops = s.snoops := rfl
@[simp] theorem State.modWarp_held : (s.modWarp k f).held = s.held := rfl
@[simp] theorem State.modWarp_hostResp : (s.modWarp k f).hostResp = s.hostResp := rfl
@[simp] theorem State.modWarp_hostMap : (s.modWarp k f).hostMap = s.hostMap := rfl
@[simp] theorem State.modWarp_peerResp : (s.modWarp k f).peerResp = s.peerResp := rfl
@[simp] theorem State.modWarp_flip : (s.modWarp k f).flip = s.flip := rfl
@[simp] theorem State.modWarp_bfErr : (s.modWarp k f).bfErr = s.bfErr := rfl
@[simp] theorem State.modWarp_bfRej : (s.modWarp k f).bfRej = s.bfRej := rfl
@[simp] theorem State.modWarp_reductions : (s.modWarp k f).reductions = s.reductions := rfl
@[simp] theorem State.modWarp_meshDown : (s.modWarp k f).meshDown = s.meshDown := rfl
@[simp] theorem State.modWarp_policy : (s.modWarp k f).policy = s.policy := rfl
@[simp] theorem State.modWarp_mgmt : (s.modWarp k f).mgmt = s.mgmt := rfl
@[simp] theorem State.modWarp_firefly : (s.modWarp k f).firefly = s.firefly := rfl
@[simp] theorem State.modWarp_preempts : (s.modWarp k f).preempts = s.preempts := rfl
end modWarp

section modWg
variable (f : Wg → Wg)
@[simp] theorem State.modWg_clock : (s.modWg k f).clock = s.clock := rfl
@[simp] theorem State.modWg_agenda : (s.modWg k f).agenda = s.agenda := rfl
@[simp] theorem State.modWg_cur : (s.modWg k f).cur = s.cur := rfl
@[simp] theorem State.modWg_draws : (s.modWg k f).draws = s.draws := rfl
@[simp] theorem State.modWg_nextId : (s.modWg k f).nextId = s.nextId := rfl
@[simp] theorem State.modWg_mem : (s.modWg k f).mem = s.mem := rfl
@[simp] theorem State.modWg_memPoison : (s.modWg k f).memPoison = s.memPoison := rfl
@[simp] theorem State.modWg_bias : (s.modWg k f).bias = s.bias := rfl
@[simp] theorem State.modWg_homes : (s.modWg k f).homes = s.homes := rfl
@[simp] theorem State.modWg_dies : (s.modWg k f).dies = s.dies := rfl
@[simp] theorem State.modWg_cores : (s.modWg k f).cores = s.cores := rfl
@[simp] theorem State.modWg_dca : (s.modWg k f).dca = s.dca := rfl
@[simp] theorem State.modWg_ctxs : (s.modWg k f).ctxs = s.ctxs := rfl
@[simp] theorem State.modWg_parts : (s.modWg k f).parts = s.parts := rfl
@[simp] theorem State.modWg_ogs : (s.modWg k f).ogs = s.ogs := rfl
@[simp] theorem State.modWg_mapGen : (s.modWg k f).mapGen = s.mapGen := rfl
@[simp] theorem State.modWg_grids : (s.modWg k f).grids = s.grids := rfl
@[simp] theorem State.modWg_clusters : (s.modWg k f).clusters = s.clusters := rfl
@[simp] theorem State.modWg_wgs : (s.modWg k f).wgs = Tab.mod s.wgs k f := rfl
@[simp] theorem State.modWg_warps : (s.modWg k f).warps = s.warps := rfl
@[simp] theorem State.modWg_ops : (s.modWg k f).ops = s.ops := rfl
@[simp] theorem State.modWg_pkts : (s.modWg k f).pkts = s.pkts := rfl
@[simp] theorem State.modWg_mons : (s.modWg k f).mons = s.mons := rfl
@[simp] theorem State.modWg_copies : (s.modWg k f).copies = s.copies := rfl
@[simp] theorem State.modWg_handoffs : (s.modWg k f).handoffs = s.handoffs := rfl
@[simp] theorem State.modWg_recs : (s.modWg k f).recs = s.recs := rfl
@[simp] theorem State.modWg_swaps : (s.modWg k f).swaps = s.swaps := rfl
@[simp] theorem State.modWg_hostDir : (s.modWg k f).hostDir = s.hostDir := rfl
@[simp] theorem State.modWg_snoops : (s.modWg k f).snoops = s.snoops := rfl
@[simp] theorem State.modWg_held : (s.modWg k f).held = s.held := rfl
@[simp] theorem State.modWg_hostResp : (s.modWg k f).hostResp = s.hostResp := rfl
@[simp] theorem State.modWg_hostMap : (s.modWg k f).hostMap = s.hostMap := rfl
@[simp] theorem State.modWg_peerResp : (s.modWg k f).peerResp = s.peerResp := rfl
@[simp] theorem State.modWg_flip : (s.modWg k f).flip = s.flip := rfl
@[simp] theorem State.modWg_bfErr : (s.modWg k f).bfErr = s.bfErr := rfl
@[simp] theorem State.modWg_bfRej : (s.modWg k f).bfRej = s.bfRej := rfl
@[simp] theorem State.modWg_reductions : (s.modWg k f).reductions = s.reductions := rfl
@[simp] theorem State.modWg_meshDown : (s.modWg k f).meshDown = s.meshDown := rfl
@[simp] theorem State.modWg_policy : (s.modWg k f).policy = s.policy := rfl
@[simp] theorem State.modWg_mgmt : (s.modWg k f).mgmt = s.mgmt := rfl
@[simp] theorem State.modWg_firefly : (s.modWg k f).firefly = s.firefly := rfl
@[simp] theorem State.modWg_preempts : (s.modWg k f).preempts = s.preempts := rfl
end modWg

@[simp] theorem State.fresh_clock : s.fresh.2.clock = s.clock := rfl
@[simp] theorem State.fresh_agenda : s.fresh.2.agenda = s.agenda := rfl
@[simp] theorem State.fresh_cur : s.fresh.2.cur = s.cur := rfl
@[simp] theorem State.fresh_draws : s.fresh.2.draws = s.draws := rfl
@[simp] theorem State.fresh_nextId : s.fresh.2.nextId = s.nextId + 1 := rfl
@[simp] theorem State.fresh_mem : s.fresh.2.mem = s.mem := rfl
@[simp] theorem State.fresh_memPoison : s.fresh.2.memPoison = s.memPoison := rfl
@[simp] theorem State.fresh_bias : s.fresh.2.bias = s.bias := rfl
@[simp] theorem State.fresh_homes : s.fresh.2.homes = s.homes := rfl
@[simp] theorem State.fresh_dies : s.fresh.2.dies = s.dies := rfl
@[simp] theorem State.fresh_cores : s.fresh.2.cores = s.cores := rfl
@[simp] theorem State.fresh_dca : s.fresh.2.dca = s.dca := rfl
@[simp] theorem State.fresh_ctxs : s.fresh.2.ctxs = s.ctxs := rfl
@[simp] theorem State.fresh_parts : s.fresh.2.parts = s.parts := rfl
@[simp] theorem State.fresh_ogs : s.fresh.2.ogs = s.ogs := rfl
@[simp] theorem State.fresh_mapGen : s.fresh.2.mapGen = s.mapGen := rfl
@[simp] theorem State.fresh_grids : s.fresh.2.grids = s.grids := rfl
@[simp] theorem State.fresh_clusters : s.fresh.2.clusters = s.clusters := rfl
@[simp] theorem State.fresh_wgs : s.fresh.2.wgs = s.wgs := rfl
@[simp] theorem State.fresh_warps : s.fresh.2.warps = s.warps := rfl
@[simp] theorem State.fresh_ops : s.fresh.2.ops = s.ops := rfl
@[simp] theorem State.fresh_pkts : s.fresh.2.pkts = s.pkts := rfl
@[simp] theorem State.fresh_mons : s.fresh.2.mons = s.mons := rfl
@[simp] theorem State.fresh_copies : s.fresh.2.copies = s.copies := rfl
@[simp] theorem State.fresh_handoffs : s.fresh.2.handoffs = s.handoffs := rfl
@[simp] theorem State.fresh_recs : s.fresh.2.recs = s.recs := rfl
@[simp] theorem State.fresh_swaps : s.fresh.2.swaps = s.swaps := rfl
@[simp] theorem State.fresh_hostDir : s.fresh.2.hostDir = s.hostDir := rfl
@[simp] theorem State.fresh_snoops : s.fresh.2.snoops = s.snoops := rfl
@[simp] theorem State.fresh_held : s.fresh.2.held = s.held := rfl
@[simp] theorem State.fresh_hostResp : s.fresh.2.hostResp = s.hostResp := rfl
@[simp] theorem State.fresh_hostMap : s.fresh.2.hostMap = s.hostMap := rfl
@[simp] theorem State.fresh_peerResp : s.fresh.2.peerResp = s.peerResp := rfl
@[simp] theorem State.fresh_flip : s.fresh.2.flip = s.flip := rfl
@[simp] theorem State.fresh_bfErr : s.fresh.2.bfErr = s.bfErr := rfl
@[simp] theorem State.fresh_bfRej : s.fresh.2.bfRej = s.bfRej := rfl
@[simp] theorem State.fresh_reductions : s.fresh.2.reductions = s.reductions := rfl
@[simp] theorem State.fresh_meshDown : s.fresh.2.meshDown = s.meshDown := rfl
@[simp] theorem State.fresh_policy : s.fresh.2.policy = s.policy := rfl
@[simp] theorem State.fresh_mgmt : s.fresh.2.mgmt = s.mgmt := rfl
@[simp] theorem State.fresh_firefly : s.fresh.2.firefly = s.firefly := rfl
@[simp] theorem State.fresh_preempts : s.fresh.2.preempts = s.preempts := rfl

end Sys2Proof.Machine
end

