-- ==== Sys2Proof/Laws/Issue.lean ====
section
/-! SUPPORT. What issuing one warp word does, case by case: nobody issues, a check fails, the word waits, the count is exhausted, no thread is enabled, or the word has its effect. -/

namespace Sys2Proof.Machine

/-! Masks. -/

theorem inMask_maskOf_aux (f : Nat → Bool) (l : Nat) (ls : List Nat) (m : Mask) (hl : ∀ x ∈ ls, x < 32) :
    (ls.foldl (fun (m : Mask) x => if f x then m ||| (1#32 <<< x) else m) m).getLsbD l =
      (m.getLsbD l || (decide (l ∈ ls) && f l)) := by
  induction ls generalizing m with
  | nil => simp
  | cons x xs ih =>
    rw [List.foldl_cons, ih _ (fun y hy => hl y (List.mem_cons_of_mem _ hy))]
    have hx : x < 32 := hl x List.mem_cons_self
    by_cases hxl : l = x
    · subst hxl
      cases hf : f l <;> simp [hx]
    · have hb : (1#32 <<< x).getLsbD l = false := by
        rw [BitVec.getLsbD_shiftLeft, BitVec.getLsbD_one]
        by_cases h1 : l < x
        · simp [h1]
        · have : l - x ≠ 0 := by omega
          simp [this]
      cases hf : f x <;> simp [hb, hxl]

/-- A lane of the mask of a test. -/
@[simp] theorem inMask_maskOf (f : Nat → Bool) (l : Nat) : inMask (maskOf f) l = (decide (l < 32) && f l) := by
  have := inMask_maskOf_aux f l lanes32 (0#32) (by simp [lanes32])
  simpa [inMask, maskOf, lanes32] using this

theorem inMask_lt {m : Mask} {l : Nat} (h : inMask m l = true) : l < 32 := BitVec.lt_of_getLsbD h

@[simp] theorem inMask_zero (l : Nat) : inMask 0#32 l = false := by simp [inMask]
@[simp] theorem inMask_and (a b : Mask) (l : Nat) : inMask (a &&& b) l = (inMask a l && inMask b l) := by simp [inMask]
@[simp] theorem inMask_or (a b : Mask) (l : Nat) : inMask (a ||| b) l = (inMask a l || inMask b l) := by simp [inMask]
theorem inMask_not (a : Mask) (l : Nat) : inMask (~~~a) l = (decide (l < 32) && !inMask a l) := by simp [inMask]

theorem mem_maskLanes {m : Mask} {l : Nat} : l ∈ maskLanes m ↔ inMask m l = true := by
  simp only [maskLanes, lanes32, List.mem_filter, List.mem_range]
  exact ⟨And.right, fun h => ⟨inMask_lt h, h⟩⟩

theorem mask_ext {a b : Mask} (h : ∀ l, inMask a l = inMask b l) : a = b := by
  apply BitVec.eq_of_getLsbD_eq
  intro i _
  exact h i

theorem exists_lane {m : Mask} (h : m ≠ 0) : ∃ l, inMask m l = true := by
  apply Classical.byContradiction
  intro hn
  apply h
  apply mask_ext
  intro l
  cases hl : inMask m l
  · simp
  · exact absurd ⟨l, hl⟩ hn

theorem lowLane_mem {m : Mask} (h : m ≠ 0) : inMask m (lowLane m) = true := by
  obtain ⟨l, hl⟩ := exists_lane h
  have hne : maskLanes m ≠ [] := List.ne_nil_of_mem (mem_maskLanes.2 hl)
  apply mem_maskLanes.1
  unfold lowLane
  cases hm : maskLanes m with
  | nil => exact absurd hm hne
  | cons x xs => simp

/-! Latencies (R82). -/

theorem age_settled {dist : Nat} {m : Mask} {hs : List Hazard} (h : Settled dist m hs) {z : Hazard} (hz : z ∈ age dist m hs)
    {l : Nat} (hl : inMask m l = true) : inMask z.lanes l = false := by
  simp only [age, List.mem_flatMap, List.mem_append] at hz
  obtain ⟨y, hy, h1 | h1⟩ := hz
  · split at h1
    · next hc =>
      rcases h y hy with h2 | h2
      · exact absurd h2 hc.1
      · omega
    · simp at h1
  · split at h1
    · simp only [List.mem_cons, List.not_mem_nil, or_false] at h1
      subst h1
      simp [inMask_not, hl]
    · simp at h1

/-- Ageing leaves only hazards with lanes. -/
theorem age_lanes {n : Nat} {m : Mask} {hs : List Hazard} {z : Hazard} (hz : z ∈ age n m hs) : z.lanes ≠ 0 := by
  simp only [age, List.mem_flatMap, List.mem_append] at hz
  obtain ⟨y, _, h1 | h1⟩ := hz
  all_goals
    split at h1
    · next hc => simp only [List.mem_cons, List.not_mem_nil, or_false] at h1; subst h1; first | exact hc.1 | exact hc
    · simp at h1

/-- Hazards without a lane of the mask do not come to have one by ageing. -/
theorem age_apart {n : Nat} {m k : Mask} {hs : List Hazard} (h : ∀ z ∈ hs, z.lanes &&& k = 0) {z : Hazard} (hz : z ∈ age n m hs) : z.lanes &&& k = 0 := by
  simp only [age, List.mem_flatMap, List.mem_append] at hz
  obtain ⟨y, hy, h1 | h1⟩ := hz
  all_goals
    split at h1
    · simp only [List.mem_cons, List.not_mem_nil, or_false] at h1
      subst h1
      show (y.lanes &&& _) &&& k = 0
      rw [BitVec.and_assoc, BitVec.and_comm _ k, ← BitVec.and_assoc, h y hy]; simp
    · simp at h1

/-- A write replaces nothing among hazards that have no lane of it. -/
theorem overwritten_apart {reg : RegName} {m : Mask} {lat : Nat} {hs : List Hazard} (h : ∀ z ∈ hs, z.reg = reg → z.lanes &&& m = 0 ∧ z.lanes ≠ 0) :
    overwritten reg m lat hs = hs := by
  induction hs with
  | nil => rfl
  | cons z hs ih =>
    rw [overwritten, List.flatMap_cons]
    have ih' := ih (fun y hy => h y (List.mem_cons_of_mem _ hy))
    rw [overwritten] at ih'
    rw [ih']
    by_cases hr : z.reg = reg
    · obtain ⟨h1, h2⟩ := h z List.mem_cons_self hr
      have h3 : z.lanes &&& ~~~m = z.lanes := by
        have := BitVec.and_or_distrib_left (x := z.lanes) (y := m) (z := ~~~m)
        rw [BitVec.or_not_self, BitVec.and_allOnes, h1] at this
        simpa using this.symm
      rw [if_pos hr, if_neg (fun e => e.1 h1), h3, if_pos h2]; rfl
    · simp [hr]

/-- After a word whose results so far are settled, a write by lanes of its split adds its hazard to what other splits have left. -/
theorem hazardsAfter_settled {dist : Nat} {sp m : Mask} {hs : List Hazard} (h : Settled dist sp hs) (hm : m &&& ~~~sp = 0) (reg : RegName) (lat : Nat)
    (old : Nat → W64) (new : List Hazard) (hn : ∀ z ∈ new, z.reg ≠ reg) :
    hazardsAfter reg m lat old (age 1 sp (age dist sp hs) ++ new) = age 1 sp (age dist sp hs) ++ new ++
      (if lat = 0 then [] else [{ reg := reg, lanes := m, old := (maskLanes m).map (fun l => (l, old l)), left := lat }]) := by
  unfold hazardsAfter
  congr 1
  apply overwritten_apart
  intro z hz hr
  rcases List.mem_append.1 hz with hz | hz
  · have h0 : ∀ y ∈ age dist sp hs, y.lanes &&& sp = 0 := by
      intro y hy
      apply BitVec.eq_of_getLsbD_eq
      intro l hl
      have := @age_settled dist sp hs h y hy l
      unfold inMask at this
      cases hs : sp.getLsbD l
      · simp [hs]
      · simp [this hs]
    have h1 := age_apart h0 hz
    refine ⟨?_, age_lanes hz⟩
    have h2 : m &&& sp = m := by
      have := BitVec.and_or_distrib_left (x := m) (y := sp) (z := ~~~sp)
      rw [BitVec.or_not_self, BitVec.and_allOnes, hm] at this
      simpa using this.symm
    rw [← h2, BitVec.and_comm m sp, ← BitVec.and_assoc, h1]; simp
  · exact absurd hr (hn z hz)

theorem stale_settled {w : Warp} {dist : Nat} {m : Mask} {hs : List Hazard} (h : Settled dist m hs)
    (hw : w.hazards = age dist m hs) (r : RegName) {l : Nat} (hl : inMask m l = true) : w.stale r l = [] := by
  unfold Warp.stale
  rw [List.map_eq_nil_iff, List.filter_eq_nil_iff]
  intro z hz
  rw [hw] at hz
  simp [age_settled h hz hl]

theorem readS_settled {w : Warp} {dist : Nat} {m : Mask} {hs : List Hazard} (h : Settled dist m hs)
    (hw : w.hazards = age dist m hs) (n r : Nat) {l : Nat} (hl : inMask m l = true) : w.readS n r l = sregOf w.scalars r := by
  simp [Warp.readS, stale_settled h hw _ hl, choose]

theorem readV_settled {w : Warp} {dist : Nat} {m : Mask} {hs : List Hazard} (h : Settled dist m hs)
    (hw : w.hazards = age dist m hs) (n r : Nat) {l : Nat} (hl : inMask m l = true) : w.readV n r l = w.vreg r l := by
  simp [Warp.readV, stale_settled h hw _ hl, choose]

theorem readP_settled {w : Warp} {dist : Nat} {m : Mask} {hs : List Hazard} (h : Settled dist m hs)
    (hw : w.hazards = age dist m hs) (n r : Nat) {l : Nat} (hl : inMask m l = true) : w.readP n r l = w.preg r l := by
  simp [Warp.readP, stale_settled h hw _ hl, choose]

/-! Issue. -/

section
variable {i : Instr} {h : Head} {pre : Pre} {s : State} {f : Run → State} {v : View}

theorem runWarp_noIssuer (hc : s.curView = none) : runWarp i h pre s f = .fault .noIssuer := by
  simp [runWarp, hc]

/-- The word has its effect. -/
theorem runWarp_go (hc : s.curView = some v) (hen : (Run.of s v h).en ≠ 0) (hk : pre.check v v.w.split (encode i) = none)
    (hw : pre.waits v = none) (hb : v.w.cost ≤ v.w.budget) : runWarp i h pre s f = .next (f (Run.of s v h)) := by
  have hb' : ¬ v.w.budget < v.w.cost := by omega
  have hk' : pre.check v (Run.of s v h).sp (encode i) = none := hk
  simp only [runWarp, hc, hen, hk', hw, hb', if_false]

/-- No thread is enabled: the word only passes (R81, R96). -/
theorem runWarp_guarded (hc : s.curView = some v) (hen : (Run.of s v h).en = 0) (hb : v.w.cost ≤ v.w.budget) :
    runWarp i h pre s f = .next ((Run.of s v h).put (Run.of s v h).out) := by
  have hb' : ¬ v.w.budget < v.w.cost := by omega
  simp [runWarp, hc, hen, hb']

/-- A check of R95 fails in the enabled threads. -/
theorem runWarp_check {c : Nat} {d : W64} (hc : s.curView = some v) (hen : (Run.of s v h).en ≠ 0)
    (hk : pre.check v v.w.split (encode i) = some (c, d)) :
    runWarp i h pre s f = .next (s.raise v v.w.split [(c, (Run.of s v h).en)] d) := by
  have hk' : pre.check v (Run.of s v h).sp (encode i) = some (c, d) := hk
  simp only [runWarp, hc, hen, hk', if_false]
  rfl

/-- The word waits before issue. -/
theorem runWarp_wait {x : Wait} (hc : s.curView = some v) (hen : (Run.of s v h).en ≠ 0)
    (hk : pre.check v v.w.split (encode i) = none) (hw : pre.waits v = some x) :
    runWarp i h pre s f = .next (s.modWarp v.key (fun w => w.park v.w.split x)) := by
  have hk' : pre.check v (Run.of s v h).sp (encode i) = none := hk
  simp only [runWarp, hc, hen, hk', hw, if_false]
  rfl

/-- The count does not allow the word. -/
theorem runWarp_watchdog (hc : s.curView = some v) (hk : (Run.of s v h).en = 0 ∨ pre.check v v.w.split (encode i) = none)
    (hw : (Run.of s v h).en = 0 ∨ pre.waits v = none) (hb : v.w.budget < v.w.cost) :
    runWarp i h pre s f = .next (s.watchdog v) := by
  by_cases hen : (Run.of s v h).en = 0
  · simp [runWarp, hc, hen, hb]
  · have hk' : pre.check v (Run.of s v h).sp (encode i) = none := hk.resolve_left hen
    simp only [runWarp, hc, hen, hk', hw.resolve_left hen, hb, if_false, if_true]

/-- Everything that issuing a word can do. -/
theorem runWarp_cases {t : State} (hr : runWarp i h pre s f = .next t) :
    ∃ v, s.curView = some v ∧
      ((∃ c d, (Run.of s v h).en ≠ 0 ∧ pre.check v v.w.split (encode i) = some (c, d) ∧
          t = s.raise v v.w.split [(c, (Run.of s v h).en)] d) ∨
        (∃ x, (Run.of s v h).en ≠ 0 ∧ pre.waits v = some x ∧ t = s.modWarp v.key (fun w => w.park v.w.split x)) ∨
        (v.w.budget < v.w.cost ∧ t = s.watchdog v) ∨
        (v.w.cost ≤ v.w.budget ∧ (Run.of s v h).en = 0 ∧ t = (Run.of s v h).put (Run.of s v h).out) ∨
        (v.w.cost ≤ v.w.budget ∧ (Run.of s v h).en ≠ 0 ∧ pre.check v v.w.split (encode i) = none ∧ pre.waits v = none ∧
          t = f (Run.of s v h))) := by
  cases hc : s.curView with
  | none => simp [runWarp_noIssuer hc] at hr
  | some v =>
    refine ⟨v, rfl, ?_⟩
    by_cases hen : (Run.of s v h).en = 0
    · by_cases hb : v.w.budget < v.w.cost
      · rw [runWarp_watchdog hc (.inl hen) (.inl hen) hb] at hr
        injection hr with hr
        exact .inr (.inr (.inl ⟨hb, hr.symm⟩))
      · rw [runWarp_guarded hc hen (by omega)] at hr
        injection hr with hr
        exact .inr (.inr (.inr (.inl ⟨by omega, hen, hr.symm⟩)))
    · cases hk : pre.check v v.w.split (encode i) with
      | some e =>
        obtain ⟨c, d⟩ := e
        rw [runWarp_check hc hen hk] at hr
        injection hr with hr
        exact .inl ⟨c, d, hen, rfl, hr.symm⟩
      | none =>
        cases hw : pre.waits v with
        | some x =>
          rw [runWarp_wait hc hen hk hw] at hr
          injection hr with hr
          exact .inr (.inl ⟨x, hen, rfl, hr.symm⟩)
        | none =>
          by_cases hb : v.w.budget < v.w.cost
          · rw [runWarp_watchdog hc (.inr hk) (.inr hw) hb] at hr
            injection hr with hr
            exact .inr (.inr (.inl ⟨hb, hr.symm⟩))
          · rw [runWarp_go hc hen hk hw (by omega)] at hr
            injection hr with hr
            exact .inr (.inr (.inr (.inr ⟨by omega, hen, rfl, rfl, hr.symm⟩)))

end

/-! The parts of a running word. -/

section
variable (s : State) (v : View) (h : Head)

@[simp] theorem Run.of_sp : (Run.of s v h).sp = v.w.split := rfl
@[simp] theorem Run.of_n : (Run.of s v h).n = s.draws := rfl
@[simp] theorem Run.of_key : (Run.of s v h).v.key = v.key := rfl
@[simp] theorem Run.of_wgKey : (Run.of s v h).v.wgKey = v.wgKey := rfl
@[simp] theorem Run.of_wg : (Run.of s v h).v.wg = v.wg := rfl
@[simp] theorem Run.of_g : (Run.of s v h).v.g = v.g := rfl
@[simp] theorem Run.of_cl : (Run.of s v h).v.cl = v.cl := rfl

/-- A word that only changes its warp. -/
theorem Run.of_put (w : Warp) : (Run.of s v h).put w =
    { s with warps := Tab.put s.warps v.key (w.modThreads v.w.split Thread.pass), draws := s.draws + 4096 } := by
  simp [Run.put, Run.of, State.setWarp]

/-- Enabled threads are threads of the split. -/
theorem Run.of_en_split {l : Nat} (hl : inMask (Run.of s v h).en l = true) : inMask v.w.split l = true := by
  simp only [Run.of, Warp.enabled, inMask_maskOf, Bool.and_eq_true] at hl
  exact hl.2.1

end

end Sys2Proof.Machine
end

