-- ==== Sys2Proof/Laws/Mem.lean ====
section
/-! SUPPORT. What the operations on caches, cluster units and homes can change: a cache operation leaves everything but the caches, what an evicted pool line writes back, the packets, the monitors and the contexts' counts as it was. -/

namespace Sys2Proof.Machine

/-- Nothing but caches, the pool lines that leave them, cluster units, packets, monitors, context counters and the next numbers differs. -/
def CacheOnly (s t : State) : Prop :=
  t = { s with dies := t.dies, cores := t.cores, dca := t.dca, mem := t.mem, memPoison := t.memPoison, pkts := t.pkts, mons := t.mons, ctxs := t.ctxs, nextId := t.nextId, draws := t.draws }

namespace CacheOnly

theorem refl (s : State) : CacheOnly s s := rfl

theorem trans {s t u : State} (h : CacheOnly s t) (k : CacheOnly t u) : CacheOnly s u := by
  unfold CacheOnly at *; rw [k, h]

theorem ops {s t : State} (h : CacheOnly s t) : t.ops = s.ops := by rw [h]
theorem warps {s t : State} (h : CacheOnly s t) : t.warps = s.warps := by rw [h]
theorem wgs {s t : State} (h : CacheOnly s t) : t.wgs = s.wgs := by rw [h]
theorem bias {s t : State} (h : CacheOnly s t) : t.bias = s.bias := by rw [h]
theorem homes {s t : State} (h : CacheOnly s t) : t.homes = s.homes := by rw [h]
theorem clusters {s t : State} (h : CacheOnly s t) : t.clusters = s.clusters := by rw [h]

/-- A fold of operations that each change only caches. -/
theorem foldl {α : Type} (f : State → α → State) (hf : ∀ s x, CacheOnly s (f s x)) (xs : List α) : ∀ s, CacheOnly s (xs.foldl f s) := by
  induction xs with
  | nil => intro s; exact refl s
  | cons x xs ih => intro s; exact (hf s x).trans (ih _)

end CacheOnly

theorem setDie_cacheOnly (s : State) (k : Nat) (d : Die) : CacheOnly s (s.setDie k d) := rfl
theorem setCore_cacheOnly (s : State) (k : Nat) (c : Core) : CacheOnly s (s.setCore k c) := rfl
theorem setCtx_cacheOnly (s : State) (k : Nat) (c : Ctx) : CacheOnly s (s.setCtx k c) := rfl
theorem setL2_cacheOnly (s : State) (die tag : Nat) (x : Sector) : CacheOnly s (s.setL2 die tag x) := rfl
theorem dropL2_cacheOnly (s : State) (die tag : Nat) : CacheOnly s (s.dropL2 die tag) := rfl
theorem setL1_cacheOnly (s : State) (core tag : Nat) (d : List Byte) : CacheOnly s (s.setL1 core tag d) := rfl
theorem dropL1_cacheOnly (s : State) (core : Nat) (f : Nat → Bool) : CacheOnly s (s.dropL1 core f) := rfl
theorem dropL1All_cacheOnly (s : State) (f : Nat → Bool) : CacheOnly s (s.dropL1All f) := rfl
theorem notify_cacheOnly (s : State) (key n : Nat) (f : Mon → Bool) (v : Mon → W64) : CacheOnly s (s.notify key n f v) := rfl
theorem notifyL2_cacheOnly (s : State) (die c key : Nat) (bs data : List Byte) : CacheOnly s (s.notifyL2 die c key bs data) := rfl

theorem leaveL2_cacheOnly (s : State) (die tag : Nat) : CacheOnly s (s.leaveL2 die tag) := by
  unfold State.leaveL2; dsimp only; split <;> rfl

/-- Taking a diff (R254). -/
theorem takeDiff_cacheOnly (s : State) (die tag kind : Nat) (seq : BitVec 23) (drop keep : Bool) : CacheOnly s (s.takeDiff die tag kind seq drop keep).1 := by
  unfold State.takeDiff
  split
  · rfl
  · split
    · split
      · exact leaveL2_cacheOnly ..
      · rfl
    · dsimp only
      split
      repeat' split
      all_goals first | rfl | exact (setL2_cacheOnly s die tag _).trans (leaveL2_cacheOnly _ die tag)

/-- A line of a shared pool window that leaves a die (R275). -/
theorem evictPool_cacheOnly (s : State) (die line : Nat) : CacheOnly s (s.evictPool die line) := by
  unfold State.evictPool; split
  · rfl
  · dsimp only
    have h : ∀ (b : Bool) (x : PoolLine), CacheOnly s (if b = true then s.poolOut line x.data x.poison else s) := by
      intro b x; split
      · unfold State.poolOut; dsimp only; split <;> rfl
      · rfl
    rename_i x _
    have h := h (x.st == .m) x
    generalize (if (x.st == PoolSt.m) = true then s.poolOut line x.data x.poison else s) = t at h ⊢
    refine h.trans (CacheOnly.trans (t := t.dropPool die line) (setDie_cacheOnly ..) ?_)
    split <;> rfl

theorem roomL2_cacheOnly (s : State) (die : Nat) : CacheOnly s (s.roomL2 die) := by
  unfold State.roomL2; dsimp only; split
  · rfl
  · split
    · split
      · split
        · exact evictPool_cacheOnly ..
        · exact takeDiff_cacheOnly ..
      · exact takeDiff_cacheOnly ..
    · split
      · exact evictPool_cacheOnly ..
      · rfl

theorem fillL2_cacheOnly (s : State) (die c key : Nat) : CacheOnly s (s.fillL2 die c key).1 := by
  unfold State.fillL2; split
  · rfl
  · exact (roomL2_cacheOnly s die).trans rfl

theorem roomTwin_cacheOnly (s : State) (die : Nat) : CacheOnly s (s.roomTwin die) := by
  unfold State.roomTwin; dsimp only; split
  · rfl
  · split
    · rfl
    · exact (takeDiff_cacheOnly ..).trans rfl

theorem writeL2_cacheOnly (s : State) (die c key : Nat) (bs : List Byte) : CacheOnly s (s.writeL2 die c key bs) := by
  unfold State.writeL2; dsimp only
  refine (fillL2_cacheOnly s die c key).trans ?_
  split
  · rfl
  · exact (roomTwin_cacheOnly _ die).trans rfl

theorem readL2_cacheOnly (s : State) (die c key n : Nat) : CacheOnly s (s.readL2 die c key n).1 := fillL2_cacheOnly s die c key

theorem readL1_cacheOnly (s : State) (core c key n : Nat) : CacheOnly s (s.readL1 core c key n).1 := by
  unfold State.readL1; split
  · rfl
  · exact (fillL2_cacheOnly s (core / 24) c key).trans rfl

theorem writeL1_cacheOnly (s : State) (core c key : Nat) (bs : List Byte) : CacheOnly s (s.writeL1 core c key bs) := by
  unfold State.writeL1; dsimp only
  refine CacheOnly.trans ?_ (notify_cacheOnly ..)
  refine CacheOnly.trans ?_ (writeL2_cacheOnly ..)
  split <;> rfl

theorem mirror_cacheOnly (s : State) (die c key : Nat) (bs : List Byte) : CacheOnly s (s.mirror die c key bs) := by
  unfold State.mirror; split <;> rfl

theorem flushUnit_cacheOnly (s : State) (core c : Nat) : CacheOnly s (s.flushUnit core c) := by
  unfold State.flushUnit; dsimp only
  exact (CacheOnly.foldl _ (fun s e => writeL2_cacheOnly s _ _ _ _) _ s).trans rfl

theorem readUnit_cacheOnly (s : State) (core c key n : Nat) : CacheOnly s (s.readUnit core c key n).1 := readL2_cacheOnly s (core / 24) c key n
theorem writeUnit_cacheOnly (s : State) (core c key : Nat) (bs : List Byte) : CacheOnly s (s.writeUnit core c key bs) := rfl

theorem settleUnit_cacheOnly (s : State) (core c key : Nat) : CacheOnly s (s.settleUnit core c key) := by
  unfold State.settleUnit; dsimp only; split
  · exact flushUnit_cacheOnly s core c
  · rfl

theorem refresh_cacheOnly (s : State) (die c key : Nat) : CacheOnly s (s.refresh die c key) := by
  unfold State.refresh; split
  · split <;> rfl
  · rfl

theorem releaseDie_cacheOnly (s : State) (die c : Nat) : CacheOnly s (s.releaseDie die c).1 := by
  unfold State.releaseDie; dsimp only
  exact CacheOnly.trans (setDie_cacheOnly ..) (CacheOnly.foldl _ (fun s t => takeDiff_cacheOnly s _ _ _ _ _ _) _ _)

theorem releaseDrop_cacheOnly (s : State) (die tag : Nat) : CacheOnly s (s.releaseDrop die tag) := takeDiff_cacheOnly ..

/-- The release of a scope (R153). -/
theorem releaseAt_cacheOnly (s : State) (core c : Nat) (sc : Scope) : CacheOnly s (s.releaseAt core c sc).1 := by
  unfold State.releaseAt; split
  · exact flushUnit_cacheOnly s core c
  · exact (flushUnit_cacheOnly s core c).trans (releaseDie_cacheOnly ..)
  · exact (flushUnit_cacheOnly s core c).trans (releaseDie_cacheOnly ..)
  · rfl

theorem sweepHome_cacheOnly (s : State) (die c m : Nat) : CacheOnly s (s.sweepHome die c m) := by
  unfold State.sweepHome; dsimp only
  exact (CacheOnly.foldl _ (fun s t => releaseDrop_cacheOnly s die t) _ s).trans rfl

/-- The acquire of a scope (R154). -/
theorem acquireAt_cacheOnly (s : State) (core c : Nat) (sc : Scope) : CacheOnly s (s.acquireAt core c sc).1 := by
  unfold State.acquireAt; dsimp only; split
  · rfl
  · rfl
  · rfl
  · rfl
  · rfl
  · have h := (dropL1_cacheOnly s core (fun _ => true)).trans (CacheOnly.foldl (fun s m => State.sweepHome s (core / 24) c m)
      (fun s m => sweepHome_cacheOnly s _ c m) (List.range 16) (s.dropL1 core (fun _ => true)))
    generalize List.foldl _ (s.dropL1 core (fun _ => true)) (List.range 16) = t at h ⊢
    exact (h.trans (CacheOnly.foldl (fun s t => State.releaseDrop s (core / 24) t) (fun s t => releaseDrop_cacheOnly s _ t) _ t)).trans (setDie_cacheOnly ..)

/-! Homes. -/

/-- Nothing but memory, its poison and what monitors have seen differs. -/
def HomeOnly (s t : State) : Prop := t = { s with mem := t.mem, memPoison := t.memPoison, mons := t.mons }

theorem HomeOnly.refl (s : State) : HomeOnly s s := rfl

theorem HomeOnly.trans {s t u : State} (h : HomeOnly s t) (k : HomeOnly t u) : HomeOnly s u := by
  unfold HomeOnly at *; rw [k, h]

theorem HomeOnly.foldl {α : Type} (f : State → α → State) (hf : ∀ s x, HomeOnly s (f s x)) (xs : List α) : ∀ s, HomeOnly s (xs.foldl f s) := by
  induction xs with
  | nil => intro s; exact HomeOnly.refl s
  | cons x xs ih => intro s; exact (hf s x).trans (ih _)

theorem writeHome_homeOnly (s : State) (key : Nat) (bs : List Byte) : HomeOnly s (s.writeHome key bs) := rfl

/-- A write at the home changes memory, its poison and what home monitors have seen. -/
theorem writeHome_eq (s : State) (key : Nat) (bs : List Byte) :
    s.writeHome key bs = { s with mem := writeBytes s.mem key bs, memPoison := (s.writeHome key bs).memPoison, mons := (s.writeHome key bs).mons } := rfl

@[simp] theorem writeHome_mem (s : State) (key : Nat) (bs : List Byte) : (s.writeHome key bs).mem = writeBytes s.mem key bs := rfl
@[simp] theorem writeHome_ops (s : State) (key : Nat) (bs : List Byte) : (s.writeHome key bs).ops = s.ops := rfl

/-- A notice is appended at its home alone (R259). -/
theorem notice_eq (s : State) (key ctx kind die seq : Nat) :
    s.notice key ctx kind die seq = { s with homes := (s.notice key ctx kind die seq).homes } := by
  unfold State.notice; dsimp only; split <;> rfl

theorem writeRuns_mem (s : State) (runs : List (Nat × List Byte)) :
    (s.writeRuns runs).mem = runs.foldl (fun m r => writeBytes m r.1 r.2) s.mem := by
  have h1 : ∀ (rs : List (Nat × List Byte)) (s : State), (rs.foldl (fun s r => s.tellHome r.1 r.2.length) s).mem = s.mem := by
    intro rs; induction rs with
    | nil => intro s; rfl
    | cons r rs ih => intro s; rw [List.foldl_cons, ih]; rfl
  have h2 : ∀ (rs : List (Nat × List Byte)) (s : State), (rs.foldl (fun s r => s.pokeHome r.1 r.2) s).mem = rs.foldl (fun m r => writeBytes m r.1 r.2) s.mem := by
    intro rs; induction rs with
    | nil => intro s; rfl
    | cons r rs ih => intro s; rw [List.foldl_cons, ih, List.foldl_cons]; rfl
  unfold State.writeRuns; rw [h1, h2]

/-- Runs written change memory, its poison and what home monitors have seen. -/
theorem writeRuns_eq (s : State) (runs : List (Nat × List Byte)) :
    s.writeRuns runs = { s with mem := (s.writeRuns runs).mem, memPoison := (s.writeRuns runs).memPoison, mons := (s.writeRuns runs).mons } := by
  have h1 : ∀ (rs : List (Nat × List Byte)) (s : State), rs.foldl (fun s r => s.tellHome r.1 r.2.length) s =
      { s with mons := (rs.foldl (fun s r => s.tellHome r.1 r.2.length) s).mons } := by
    intro rs; induction rs with
    | nil => intro s; rfl
    | cons r rs ih => intro s; rw [List.foldl_cons, ih]; rfl
  have h2 : ∀ (rs : List (Nat × List Byte)) (s : State), rs.foldl (fun s r => s.pokeHome r.1 r.2) s =
      { s with mem := (rs.foldl (fun s r => s.pokeHome r.1 r.2) s).mem, memPoison := (rs.foldl (fun s r => s.pokeHome r.1 r.2) s).memPoison } := by
    intro rs; induction rs with
    | nil => intro s; rfl
    | cons r rs ih => intro s; rw [List.foldl_cons, ih]; rfl
  unfold State.writeRuns
  rw [h1, h2]

theorem writeScratch_eq (s : State) (wgKey a : Nat) (bs : List Byte) :
    s.writeScratch wgKey a bs = { s with wgs := (s.writeScratch wgKey a bs).wgs, mons := (s.writeScratch wgKey a bs).mons } := by
  unfold State.writeScratch; split <;> rfl

end Sys2Proof.Machine
end

