-- ==== Sys2Proof/Laws/PerInstr.lean ====
section
/-! SUPPORT. Every instruction word decodes to the instruction it encodes: one lemma for each constructor. -/

namespace Sys2Proof.Laws.Fields

open Sys2Proof
set_option linter.unusedSimpArgs false

/-! Where a field stands in each format (R84). -/

section packV3
variable (op : BitVec 8) (h : Head) (d : BitVec 8) (a : BitVec 8) (b : BitVec 8) (c : BitVec 8) (dk : Bool) (ak : Bool) (bk : Bool) (ck : Bool) (rnd : BitVec 3) (sat : Bool) (sub : BitVec 8) (fsel : Bool)

theorem packV3_56_8 : (packV3 op h d a b c dk ak bk ck rnd sat sub fsel).extractLsb' 56 8 = op := by
  unfold packV3
  show BitVec.extractLsb' (n := 8+3+4+8+8+8+8+1+1+1+1+3+1+8+1) 56 8 _ = _
  simp (disch := decide) only [BitVec.extractLsb'_append_eq_of_le, BitVec.extractLsb'_append_eq_of_add_le]
  exact BitVec.extractLsb'_eq_self

theorem packV3_53_3 : (packV3 op h d a b c dk ak bk ck rnd sat sub fsel).extractLsb' 53 3 = h.dist := by
  unfold packV3
  show BitVec.extractLsb' (n := 8+3+4+8+8+8+8+1+1+1+1+3+1+8+1) 53 3 _ = _
  simp (disch := decide) only [BitVec.extractLsb'_append_eq_of_le, BitVec.extractLsb'_append_eq_of_add_le]
  exact BitVec.extractLsb'_eq_self

theorem packV3_49_4 : (packV3 op h d a b c dk ak bk ck rnd sat sub fsel).extractLsb' 49 4 = h.guard := by
  unfold packV3
  show BitVec.extractLsb' (n := 8+3+4+8+8+8+8+1+1+1+1+3+1+8+1) 49 4 _ = _
  simp (disch := decide) only [BitVec.extractLsb'_append_eq_of_le, BitVec.extractLsb'_append_eq_of_add_le]
  exact BitVec.extractLsb'_eq_self

theorem packV3_41_8 : (packV3 op h d a b c dk ak bk ck rnd sat sub fsel).extractLsb' 41 8 = d := by
  unfold packV3
  show BitVec.extractLsb' (n := 8+3+4+8+8+8+8+1+1+1+1+3+1+8+1) 41 8 _ = _
  simp (disch := decide) only [BitVec.extractLsb'_append_eq_of_le, BitVec.extractLsb'_append_eq_of_add_le]
  exact BitVec.extractLsb'_eq_self

theorem packV3_33_8 : (packV3 op h d a b c dk ak bk ck rnd sat sub fsel).extractLsb' 33 8 = a := by
  unfold packV3
  show BitVec.extractLsb' (n := 8+3+4+8+8+8+8+1+1+1+1+3+1+8+1) 33 8 _ = _
  simp (disch := decide) only [BitVec.extractLsb'_append_eq_of_le, BitVec.extractLsb'_append_eq_of_add_le]
  exact BitVec.extractLsb'_eq_self

theorem packV3_25_8 : (packV3 op h d a b c dk ak bk ck rnd sat sub fsel).extractLsb' 25 8 = b := by
  unfold packV3
  show BitVec.extractLsb' (n := 8+3+4+8+8+8+8+1+1+1+1+3+1+8+1) 25 8 _ = _
  simp (disch := decide) only [BitVec.extractLsb'_append_eq_of_le, BitVec.extractLsb'_append_eq_of_add_le]
  exact BitVec.extractLsb'_eq_self

theorem packV3_17_8 : (packV3 op h d a b c dk ak bk ck rnd sat sub fsel).extractLsb' 17 8 = c := by
  unfold packV3
  show BitVec.extractLsb' (n := 8+3+4+8+8+8+8+1+1+1+1+3+1+8+1) 17 8 _ = _
  simp (disch := decide) only [BitVec.extractLsb'_append_eq_of_le, BitVec.extractLsb'_append_eq_of_add_le]
  exact BitVec.extractLsb'_eq_self

theorem packV3_15 : (packV3 op h d a b c dk ak bk ck rnd sat sub fsel).getLsbD 15 = ak := by
  unfold packV3
  show BitVec.getLsbD (w := 8+3+4+8+8+8+8+1+1+1+1+3+1+8+1) _ 15 = _
  simp only [BitVec.getLsbD_append, b1]
  simp

theorem packV3_14 : (packV3 op h d a b c dk ak bk ck rnd sat sub fsel).getLsbD 14 = bk := by
  unfold packV3
  show BitVec.getLsbD (w := 8+3+4+8+8+8+8+1+1+1+1+3+1+8+1) _ 14 = _
  simp only [BitVec.getLsbD_append, b1]
  simp

theorem packV3_13 : (packV3 op h d a b c dk ak bk ck rnd sat sub fsel).getLsbD 13 = ck := by
  unfold packV3
  show BitVec.getLsbD (w := 8+3+4+8+8+8+8+1+1+1+1+3+1+8+1) _ 13 = _
  simp only [BitVec.getLsbD_append, b1]
  simp

theorem packV3_10_3 : (packV3 op h d a b c dk ak bk ck rnd sat sub fsel).extractLsb' 10 3 = rnd := by
  unfold packV3
  show BitVec.extractLsb' (n := 8+3+4+8+8+8+8+1+1+1+1+3+1+8+1) 10 3 _ = _
  simp (disch := decide) only [BitVec.extractLsb'_append_eq_of_le, BitVec.extractLsb'_append_eq_of_add_le]
  exact BitVec.extractLsb'_eq_self

theorem packV3_9 : (packV3 op h d a b c dk ak bk ck rnd sat sub fsel).getLsbD 9 = sat := by
  unfold packV3
  show BitVec.getLsbD (w := 8+3+4+8+8+8+8+1+1+1+1+3+1+8+1) _ 9 = _
  simp only [BitVec.getLsbD_append, b1]
  simp

theorem packV3_1_8 : (packV3 op h d a b c dk ak bk ck rnd sat sub fsel).extractLsb' 1 8 = sub := by
  unfold packV3
  show BitVec.extractLsb' (n := 8+3+4+8+8+8+8+1+1+1+1+3+1+8+1) 1 8 _ = _
  simp (disch := decide) only [BitVec.extractLsb'_append_eq_of_le, BitVec.extractLsb'_append_eq_of_add_le]
  exact BitVec.extractLsb'_eq_self

theorem packV3_0 : (packV3 op h d a b c dk ak bk ck rnd sat sub fsel).getLsbD 0 = fsel := by
  unfold packV3
  show BitVec.getLsbD (w := 8+3+4+8+8+8+8+1+1+1+1+3+1+8+1) _ 0 = _
  simp only [BitVec.getLsbD_append, b1]
  simp

theorem packV3_1 : (packV3 op h d a b c dk ak bk ck rnd sat sub fsel).getLsbD 1 = sub.getLsbD 0 := by
  unfold packV3
  show BitVec.getLsbD (w := 8+3+4+8+8+8+8+1+1+1+1+3+1+8+1) _ 1 = _
  simp only [BitVec.getLsbD_append, b1]
  simp

theorem packV3_16 : (packV3 op h d a b c dk ak bk ck rnd sat sub fsel).getLsbD 16 = dk := by
  unfold packV3
  show BitVec.getLsbD (w := 8+3+4+8+8+8+8+1+1+1+1+3+1+8+1) _ 16 = _
  simp only [BitVec.getLsbD_append, b1]
  simp

end packV3

section packVI
variable (op : BitVec 8) (h : Head) (d : BitVec 8) (a : BitVec 8) (ak : Bool) (imm : BitVec 32)

theorem packVI_56_8 : (packVI op h d a ak imm).extractLsb' 56 8 = op := by
  unfold packVI
  show BitVec.extractLsb' (n := 8+3+4+8+8+1+32) 56 8 _ = _
  simp (disch := decide) only [BitVec.extractLsb'_append_eq_of_le, BitVec.extractLsb'_append_eq_of_add_le]
  exact BitVec.extractLsb'_eq_self

theorem packVI_53_3 : (packVI op h d a ak imm).extractLsb' 53 3 = h.dist := by
  unfold packVI
  show BitVec.extractLsb' (n := 8+3+4+8+8+1+32) 53 3 _ = _
  simp (disch := decide) only [BitVec.extractLsb'_append_eq_of_le, BitVec.extractLsb'_append_eq_of_add_le]
  exact BitVec.extractLsb'_eq_self

theorem packVI_49_4 : (packVI op h d a ak imm).extractLsb' 49 4 = h.guard := by
  unfold packVI
  show BitVec.extractLsb' (n := 8+3+4+8+8+1+32) 49 4 _ = _
  simp (disch := decide) only [BitVec.extractLsb'_append_eq_of_le, BitVec.extractLsb'_append_eq_of_add_le]
  exact BitVec.extractLsb'_eq_self

theorem packVI_41_8 : (packVI op h d a ak imm).extractLsb' 41 8 = d := by
  unfold packVI
  show BitVec.extractLsb' (n := 8+3+4+8+8+1+32) 41 8 _ = _
  simp (disch := decide) only [BitVec.extractLsb'_append_eq_of_le, BitVec.extractLsb'_append_eq_of_add_le]
  exact BitVec.extractLsb'_eq_self

theorem packVI_33_8 : (packVI op h d a ak imm).extractLsb' 33 8 = a := by
  unfold packVI
  show BitVec.extractLsb' (n := 8+3+4+8+8+1+32) 33 8 _ = _
  simp (disch := decide) only [BitVec.extractLsb'_append_eq_of_le, BitVec.extractLsb'_append_eq_of_add_le]
  exact BitVec.extractLsb'_eq_self

theorem packVI_32 : (packVI op h d a ak imm).getLsbD 32 = ak := by
  unfold packVI
  show BitVec.getLsbD (w := 8+3+4+8+8+1+32) _ 32 = _
  simp only [BitVec.getLsbD_append, b1]
  simp

theorem packVI_0_32 : (packVI op h d a ak imm).extractLsb' 0 32 = imm := by
  unfold packVI
  show BitVec.extractLsb' (n := 8+3+4+8+8+1+32) 0 32 _ = _
  simp (disch := decide) only [BitVec.extractLsb'_append_eq_of_le, BitVec.extractLsb'_append_eq_of_add_le]
  exact BitVec.extractLsb'_eq_self

theorem packVI_0_16 : (packVI op h d a ak imm).extractLsb' 0 16 = imm.extractLsb' 0 16 := by
  unfold packVI
  show BitVec.extractLsb' (n := 8+3+4+8+8+1+32) 0 16 _ = _
  simp (disch := decide) only [BitVec.extractLsb'_append_eq_of_le, BitVec.extractLsb'_append_eq_of_add_le]

theorem packVI_8_8 : (packVI op h d a ak imm).extractLsb' 8 8 = imm.extractLsb' 8 8 := by
  unfold packVI
  show BitVec.extractLsb' (n := 8+3+4+8+8+1+32) 8 8 _ = _
  simp (disch := decide) only [BitVec.extractLsb'_append_eq_of_le, BitVec.extractLsb'_append_eq_of_add_le]

theorem packVI_0_8 : (packVI op h d a ak imm).extractLsb' 0 8 = imm.extractLsb' 0 8 := by
  unfold packVI
  show BitVec.extractLsb' (n := 8+3+4+8+8+1+32) 0 8 _ = _
  simp (disch := decide) only [BitVec.extractLsb'_append_eq_of_le, BitVec.extractLsb'_append_eq_of_add_le]

end packVI

section packS
variable (op : BitVec 8) (h : Head) (sd : BitVec 6) (sa : BitVec 6) (i : Bool) (low : BitVec 36)

theorem packS_56_8 : (packS op h sd sa i low).extractLsb' 56 8 = op := by
  unfold packS
  show BitVec.extractLsb' (n := 8+3+4+6+6+1+36) 56 8 _ = _
  simp (disch := decide) only [BitVec.extractLsb'_append_eq_of_le, BitVec.extractLsb'_append_eq_of_add_le]
  exact BitVec.extractLsb'_eq_self

theorem packS_53_3 : (packS op h sd sa i low).extractLsb' 53 3 = h.dist := by
  unfold packS
  show BitVec.extractLsb' (n := 8+3+4+6+6+1+36) 53 3 _ = _
  simp (disch := decide) only [BitVec.extractLsb'_append_eq_of_le, BitVec.extractLsb'_append_eq_of_add_le]
  exact BitVec.extractLsb'_eq_self

theorem packS_49_4 : (packS op h sd sa i low).extractLsb' 49 4 = h.guard := by
  unfold packS
  show BitVec.extractLsb' (n := 8+3+4+6+6+1+36) 49 4 _ = _
  simp (disch := decide) only [BitVec.extractLsb'_append_eq_of_le, BitVec.extractLsb'_append_eq_of_add_le]
  exact BitVec.extractLsb'_eq_self

theorem packS_43_6 : (packS op h sd sa i low).extractLsb' 43 6 = sd := by
  unfold packS
  show BitVec.extractLsb' (n := 8+3+4+6+6+1+36) 43 6 _ = _
  simp (disch := decide) only [BitVec.extractLsb'_append_eq_of_le, BitVec.extractLsb'_append_eq_of_add_le]
  exact BitVec.extractLsb'_eq_self

theorem packS_37_6 : (packS op h sd sa i low).extractLsb' 37 6 = sa := by
  unfold packS
  show BitVec.extractLsb' (n := 8+3+4+6+6+1+36) 37 6 _ = _
  simp (disch := decide) only [BitVec.extractLsb'_append_eq_of_le, BitVec.extractLsb'_append_eq_of_add_le]
  exact BitVec.extractLsb'_eq_self

theorem packS_36 : (packS op h sd sa i low).getLsbD 36 = i := by
  unfold packS
  show BitVec.getLsbD (w := 8+3+4+6+6+1+36) _ 36 = _
  simp only [BitVec.getLsbD_append, b1]
  simp

theorem packS_0_36 : (packS op h sd sa i low).extractLsb' 0 36 = low := by
  unfold packS
  show BitVec.extractLsb' (n := 8+3+4+6+6+1+36) 0 36 _ = _
  simp (disch := decide) only [BitVec.extractLsb'_append_eq_of_le, BitVec.extractLsb'_append_eq_of_add_le]
  exact BitVec.extractLsb'_eq_self

theorem packS_30_6 : (packS op h sd sa i low).extractLsb' 30 6 = low.extractLsb' 30 6 := by
  unfold packS
  show BitVec.extractLsb' (n := 8+3+4+6+6+1+36) 30 6 _ = _
  simp (disch := decide) only [BitVec.extractLsb'_append_eq_of_le, BitVec.extractLsb'_append_eq_of_add_le]

theorem packS_0_32 : (packS op h sd sa i low).extractLsb' 0 32 = low.extractLsb' 0 32 := by
  unfold packS
  show BitVec.extractLsb' (n := 8+3+4+6+6+1+36) 0 32 _ = _
  simp (disch := decide) only [BitVec.extractLsb'_append_eq_of_le, BitVec.extractLsb'_append_eq_of_add_le]

theorem packS_26_4 : (packS op h sd sa i low).extractLsb' 26 4 = low.extractLsb' 26 4 := by
  unfold packS
  show BitVec.extractLsb' (n := 8+3+4+6+6+1+36) 26 4 _ = _
  simp (disch := decide) only [BitVec.extractLsb'_append_eq_of_le, BitVec.extractLsb'_append_eq_of_add_le]

theorem packS_26 : (packS op h sd sa i low).getLsbD 26 = low.getLsbD 26 := by
  unfold packS
  show BitVec.getLsbD (w := 8+3+4+6+6+1+36) _ 26 = _
  simp only [BitVec.getLsbD_append, b1]
  simp

theorem packS_43_5 : (packS op h sd sa i low).extractLsb' 43 5 = sd.extractLsb' 0 5 := by
  unfold packS
  show BitVec.extractLsb' (n := 8+3+4+6+6+1+36) 43 5 _ = _
  simp (disch := decide) only [BitVec.extractLsb'_append_eq_of_le, BitVec.extractLsb'_append_eq_of_add_le]

theorem packS_37_5 : (packS op h sd sa i low).extractLsb' 37 5 = sa.extractLsb' 0 5 := by
  unfold packS
  show BitVec.extractLsb' (n := 8+3+4+6+6+1+36) 37 5 _ = _
  simp (disch := decide) only [BitVec.extractLsb'_append_eq_of_le, BitVec.extractLsb'_append_eq_of_add_le]

end packS

section packM
variable (op : BitVec 8) (h : Head) (d : BitVec 8) (base : BitVec 6) (idx : BitVec 8) (scl : BitVec 3) (sc : BitVec 3) (fsel : Bool) (scr : Bool) (w : BitVec 3) (off : BitVec 16)

theorem packM_56_8 : (packM op h d base idx scl sc fsel scr w off).extractLsb' 56 8 = op := by
  unfold packM
  show BitVec.extractLsb' (n := 8+3+4+8+6+8+3+3+1+1+3+16) 56 8 _ = _
  simp (disch := decide) only [BitVec.extractLsb'_append_eq_of_le, BitVec.extractLsb'_append_eq_of_add_le]
  exact BitVec.extractLsb'_eq_self

theorem packM_53_3 : (packM op h d base idx scl sc fsel scr w off).extractLsb' 53 3 = h.dist := by
  unfold packM
  show BitVec.extractLsb' (n := 8+3+4+8+6+8+3+3+1+1+3+16) 53 3 _ = _
  simp (disch := decide) only [BitVec.extractLsb'_append_eq_of_le, BitVec.extractLsb'_append_eq_of_add_le]
  exact BitVec.extractLsb'_eq_self

theorem packM_49_4 : (packM op h d base idx scl sc fsel scr w off).extractLsb' 49 4 = h.guard := by
  unfold packM
  show BitVec.extractLsb' (n := 8+3+4+8+6+8+3+3+1+1+3+16) 49 4 _ = _
  simp (disch := decide) only [BitVec.extractLsb'_append_eq_of_le, BitVec.extractLsb'_append_eq_of_add_le]
  exact BitVec.extractLsb'_eq_self

theorem packM_41_8 : (packM op h d base idx scl sc fsel scr w off).extractLsb' 41 8 = d := by
  unfold packM
  show BitVec.extractLsb' (n := 8+3+4+8+6+8+3+3+1+1+3+16) 41 8 _ = _
  simp (disch := decide) only [BitVec.extractLsb'_append_eq_of_le, BitVec.extractLsb'_append_eq_of_add_le]
  exact BitVec.extractLsb'_eq_self

theorem packM_35_6 : (packM op h d base idx scl sc fsel scr w off).extractLsb' 35 6 = base := by
  unfold packM
  show BitVec.extractLsb' (n := 8+3+4+8+6+8+3+3+1+1+3+16) 35 6 _ = _
  simp (disch := decide) only [BitVec.extractLsb'_append_eq_of_le, BitVec.extractLsb'_append_eq_of_add_le]
  exact BitVec.extractLsb'_eq_self

theorem packM_27_8 : (packM op h d base idx scl sc fsel scr w off).extractLsb' 27 8 = idx := by
  unfold packM
  show BitVec.extractLsb' (n := 8+3+4+8+6+8+3+3+1+1+3+16) 27 8 _ = _
  simp (disch := decide) only [BitVec.extractLsb'_append_eq_of_le, BitVec.extractLsb'_append_eq_of_add_le]
  exact BitVec.extractLsb'_eq_self

theorem packM_24_3 : (packM op h d base idx scl sc fsel scr w off).extractLsb' 24 3 = scl := by
  unfold packM
  show BitVec.extractLsb' (n := 8+3+4+8+6+8+3+3+1+1+3+16) 24 3 _ = _
  simp (disch := decide) only [BitVec.extractLsb'_append_eq_of_le, BitVec.extractLsb'_append_eq_of_add_le]
  exact BitVec.extractLsb'_eq_self

theorem packM_21_3 : (packM op h d base idx scl sc fsel scr w off).extractLsb' 21 3 = sc := by
  unfold packM
  show BitVec.extractLsb' (n := 8+3+4+8+6+8+3+3+1+1+3+16) 21 3 _ = _
  simp (disch := decide) only [BitVec.extractLsb'_append_eq_of_le, BitVec.extractLsb'_append_eq_of_add_le]
  exact BitVec.extractLsb'_eq_self

theorem packM_20 : (packM op h d base idx scl sc fsel scr w off).getLsbD 20 = fsel := by
  unfold packM
  show BitVec.getLsbD (w := 8+3+4+8+6+8+3+3+1+1+3+16) _ 20 = _
  simp only [BitVec.getLsbD_append, b1]
  simp

theorem packM_19 : (packM op h d base idx scl sc fsel scr w off).getLsbD 19 = scr := by
  unfold packM
  show BitVec.getLsbD (w := 8+3+4+8+6+8+3+3+1+1+3+16) _ 19 = _
  simp only [BitVec.getLsbD_append, b1]
  simp

theorem packM_16_3 : (packM op h d base idx scl sc fsel scr w off).extractLsb' 16 3 = w := by
  unfold packM
  show BitVec.extractLsb' (n := 8+3+4+8+6+8+3+3+1+1+3+16) 16 3 _ = _
  simp (disch := decide) only [BitVec.extractLsb'_append_eq_of_le, BitVec.extractLsb'_append_eq_of_add_le]
  exact BitVec.extractLsb'_eq_self

theorem packM_16 : (packM op h d base idx scl sc fsel scr w off).getLsbD 16 = w.getLsbD 0 := by
  unfold packM
  show BitVec.getLsbD (w := 8+3+4+8+6+8+3+3+1+1+3+16) _ 16 = _
  simp only [BitVec.getLsbD_append, b1]
  simp

theorem packM_0_16 : (packM op h d base idx scl sc fsel scr w off).extractLsb' 0 16 = off := by
  unfold packM
  show BitVec.extractLsb' (n := 8+3+4+8+6+8+3+3+1+1+3+16) 0 16 _ = _
  simp (disch := decide) only [BitVec.extractLsb'_append_eq_of_le, BitVec.extractLsb'_append_eq_of_add_le]
  exact BitVec.extractLsb'_eq_self

theorem packM_8_8 : (packM op h d base idx scl sc fsel scr w off).extractLsb' 8 8 = off.extractLsb' 8 8 := by
  unfold packM
  show BitVec.extractLsb' (n := 8+3+4+8+6+8+3+3+1+1+3+16) 8 8 _ = _
  simp (disch := decide) only [BitVec.extractLsb'_append_eq_of_le, BitVec.extractLsb'_append_eq_of_add_le]

theorem packM_0_8 : (packM op h d base idx scl sc fsel scr w off).extractLsb' 0 8 = off.extractLsb' 0 8 := by
  unfold packM
  show BitVec.extractLsb' (n := 8+3+4+8+6+8+3+3+1+1+3+16) 0 8 _ = _
  simp (disch := decide) only [BitVec.extractLsb'_append_eq_of_le, BitVec.extractLsb'_append_eq_of_add_le]

theorem packM_0_5 : (packM op h d base idx scl sc fsel scr w off).extractLsb' 0 5 = off.extractLsb' 0 5 := by
  unfold packM
  show BitVec.extractLsb' (n := 8+3+4+8+6+8+3+3+1+1+3+16) 0 5 _ = _
  simp (disch := decide) only [BitVec.extractLsb'_append_eq_of_le, BitVec.extractLsb'_append_eq_of_add_le]

theorem packM_34 : (packM op h d base idx scl sc fsel scr w off).getLsbD 34 = idx.getLsbD 7 := by
  unfold packM
  show BitVec.getLsbD (w := 8+3+4+8+6+8+3+3+1+1+3+16) _ 34 = _
  simp only [BitVec.getLsbD_append, b1]
  simp

theorem packM_27_7 : (packM op h d base idx scl sc fsel scr w off).extractLsb' 27 7 = idx.extractLsb' 0 7 := by
  unfold packM
  show BitVec.extractLsb' (n := 8+3+4+8+6+8+3+3+1+1+3+16) 27 7 _ = _
  simp (disch := decide) only [BitVec.extractLsb'_append_eq_of_le, BitVec.extractLsb'_append_eq_of_add_le]

theorem packM_27_6 : (packM op h d base idx scl sc fsel scr w off).extractLsb' 27 6 = idx.extractLsb' 0 6 := by
  unfold packM
  show BitVec.extractLsb' (n := 8+3+4+8+6+8+3+3+1+1+3+16) 27 6 _ = _
  simp (disch := decide) only [BitVec.extractLsb'_append_eq_of_le, BitVec.extractLsb'_append_eq_of_add_le]

end packM

section packB
variable (op : BitVec 8) (h : Head) (lv : BitVec 8) (sc : BitVec 6) (k : BitVec 3) (off : BitVec 32)

theorem packB_56_8 : (packB op h lv sc k off).extractLsb' 56 8 = op := by
  unfold packB
  show BitVec.extractLsb' (n := 8+3+4+8+6+3+32) 56 8 _ = _
  simp (disch := decide) only [BitVec.extractLsb'_append_eq_of_le, BitVec.extractLsb'_append_eq_of_add_le]
  exact BitVec.extractLsb'_eq_self

theorem packB_53_3 : (packB op h lv sc k off).extractLsb' 53 3 = h.dist := by
  unfold packB
  show BitVec.extractLsb' (n := 8+3+4+8+6+3+32) 53 3 _ = _
  simp (disch := decide) only [BitVec.extractLsb'_append_eq_of_le, BitVec.extractLsb'_append_eq_of_add_le]
  exact BitVec.extractLsb'_eq_self

theorem packB_49_4 : (packB op h lv sc k off).extractLsb' 49 4 = h.guard := by
  unfold packB
  show BitVec.extractLsb' (n := 8+3+4+8+6+3+32) 49 4 _ = _
  simp (disch := decide) only [BitVec.extractLsb'_append_eq_of_le, BitVec.extractLsb'_append_eq_of_add_le]
  exact BitVec.extractLsb'_eq_self

theorem packB_41_8 : (packB op h lv sc k off).extractLsb' 41 8 = lv := by
  unfold packB
  show BitVec.extractLsb' (n := 8+3+4+8+6+3+32) 41 8 _ = _
  simp (disch := decide) only [BitVec.extractLsb'_append_eq_of_le, BitVec.extractLsb'_append_eq_of_add_le]
  exact BitVec.extractLsb'_eq_self

theorem packB_35_6 : (packB op h lv sc k off).extractLsb' 35 6 = sc := by
  unfold packB
  show BitVec.extractLsb' (n := 8+3+4+8+6+3+32) 35 6 _ = _
  simp (disch := decide) only [BitVec.extractLsb'_append_eq_of_le, BitVec.extractLsb'_append_eq_of_add_le]
  exact BitVec.extractLsb'_eq_self

theorem packB_32_3 : (packB op h lv sc k off).extractLsb' 32 3 = k := by
  unfold packB
  show BitVec.extractLsb' (n := 8+3+4+8+6+3+32) 32 3 _ = _
  simp (disch := decide) only [BitVec.extractLsb'_append_eq_of_le, BitVec.extractLsb'_append_eq_of_add_le]
  exact BitVec.extractLsb'_eq_self

theorem packB_0_32 : (packB op h lv sc k off).extractLsb' 0 32 = off := by
  unfold packB
  show BitVec.extractLsb' (n := 8+3+4+8+6+3+32) 0 32 _ = _
  simp (disch := decide) only [BitVec.extractLsb'_append_eq_of_le, BitVec.extractLsb'_append_eq_of_add_le]
  exact BitVec.extractLsb'_eq_self

end packB

section packT
variable (op : BitVec 8) (h : Head) (sd : BitVec 6) (ci : BitVec 3) (cm : Bool) (off : BitVec 32)

theorem packT_56_8 : (packT op h sd ci cm off).extractLsb' 56 8 = op := by
  unfold packT
  show BitVec.extractLsb' (n := 8+3+4+6+3+1+7+32) 56 8 _ = _
  simp (disch := decide) only [BitVec.extractLsb'_append_eq_of_le, BitVec.extractLsb'_append_eq_of_add_le]
  exact BitVec.extractLsb'_eq_self

theorem packT_53_3 : (packT op h sd ci cm off).extractLsb' 53 3 = h.dist := by
  unfold packT
  show BitVec.extractLsb' (n := 8+3+4+6+3+1+7+32) 53 3 _ = _
  simp (disch := decide) only [BitVec.extractLsb'_append_eq_of_le, BitVec.extractLsb'_append_eq_of_add_le]
  exact BitVec.extractLsb'_eq_self

theorem packT_49_4 : (packT op h sd ci cm off).extractLsb' 49 4 = h.guard := by
  unfold packT
  show BitVec.extractLsb' (n := 8+3+4+6+3+1+7+32) 49 4 _ = _
  simp (disch := decide) only [BitVec.extractLsb'_append_eq_of_le, BitVec.extractLsb'_append_eq_of_add_le]
  exact BitVec.extractLsb'_eq_self

theorem packT_43_6 : (packT op h sd ci cm off).extractLsb' 43 6 = sd := by
  unfold packT
  show BitVec.extractLsb' (n := 8+3+4+6+3+1+7+32) 43 6 _ = _
  simp (disch := decide) only [BitVec.extractLsb'_append_eq_of_le, BitVec.extractLsb'_append_eq_of_add_le]
  exact BitVec.extractLsb'_eq_self

theorem packT_40_3 : (packT op h sd ci cm off).extractLsb' 40 3 = ci := by
  unfold packT
  show BitVec.extractLsb' (n := 8+3+4+6+3+1+7+32) 40 3 _ = _
  simp (disch := decide) only [BitVec.extractLsb'_append_eq_of_le, BitVec.extractLsb'_append_eq_of_add_le]
  exact BitVec.extractLsb'_eq_self

theorem packT_39 : (packT op h sd ci cm off).getLsbD 39 = cm := by
  unfold packT
  show BitVec.getLsbD (w := 8+3+4+6+3+1+7+32) _ 39 = _
  simp only [BitVec.getLsbD_append, b1]
  simp

theorem packT_0_32 : (packT op h sd ci cm off).extractLsb' 0 32 = off := by
  unfold packT
  show BitVec.extractLsb' (n := 8+3+4+6+3+1+7+32) 0 32 _ = _
  simp (disch := decide) only [BitVec.extractLsb'_append_eq_of_le, BitVec.extractLsb'_append_eq_of_add_le]
  exact BitVec.extractLsb'_eq_self

end packT

section packC
variable (op : BitVec 8) (h : Head) (sd : BitVec 6) (base : BitVec 6) (ms : BitVec 6) (tile : BitVec 6) (tk : Bool) (sc : BitVec 3) (fsel : Bool) (off : BitVec 16)

theorem packC_56_8 : (packC op h sd base ms tile tk sc fsel off).extractLsb' 56 8 = op := by
  unfold packC
  show BitVec.extractLsb' (n := 8+3+4+6+6+6+6+1+3+1+4+16) 56 8 _ = _
  simp (disch := decide) only [BitVec.extractLsb'_append_eq_of_le, BitVec.extractLsb'_append_eq_of_add_le]
  exact BitVec.extractLsb'_eq_self

theorem packC_53_3 : (packC op h sd base ms tile tk sc fsel off).extractLsb' 53 3 = h.dist := by
  unfold packC
  show BitVec.extractLsb' (n := 8+3+4+6+6+6+6+1+3+1+4+16) 53 3 _ = _
  simp (disch := decide) only [BitVec.extractLsb'_append_eq_of_le, BitVec.extractLsb'_append_eq_of_add_le]
  exact BitVec.extractLsb'_eq_self

theorem packC_49_4 : (packC op h sd base ms tile tk sc fsel off).extractLsb' 49 4 = h.guard := by
  unfold packC
  show BitVec.extractLsb' (n := 8+3+4+6+6+6+6+1+3+1+4+16) 49 4 _ = _
  simp (disch := decide) only [BitVec.extractLsb'_append_eq_of_le, BitVec.extractLsb'_append_eq_of_add_le]
  exact BitVec.extractLsb'_eq_self

theorem packC_43_6 : (packC op h sd base ms tile tk sc fsel off).extractLsb' 43 6 = sd := by
  unfold packC
  show BitVec.extractLsb' (n := 8+3+4+6+6+6+6+1+3+1+4+16) 43 6 _ = _
  simp (disch := decide) only [BitVec.extractLsb'_append_eq_of_le, BitVec.extractLsb'_append_eq_of_add_le]
  exact BitVec.extractLsb'_eq_self

theorem packC_37_6 : (packC op h sd base ms tile tk sc fsel off).extractLsb' 37 6 = base := by
  unfold packC
  show BitVec.extractLsb' (n := 8+3+4+6+6+6+6+1+3+1+4+16) 37 6 _ = _
  simp (disch := decide) only [BitVec.extractLsb'_append_eq_of_le, BitVec.extractLsb'_append_eq_of_add_le]
  exact BitVec.extractLsb'_eq_self

theorem packC_31_6 : (packC op h sd base ms tile tk sc fsel off).extractLsb' 31 6 = ms := by
  unfold packC
  show BitVec.extractLsb' (n := 8+3+4+6+6+6+6+1+3+1+4+16) 31 6 _ = _
  simp (disch := decide) only [BitVec.extractLsb'_append_eq_of_le, BitVec.extractLsb'_append_eq_of_add_le]
  exact BitVec.extractLsb'_eq_self

theorem packC_25_6 : (packC op h sd base ms tile tk sc fsel off).extractLsb' 25 6 = tile := by
  unfold packC
  show BitVec.extractLsb' (n := 8+3+4+6+6+6+6+1+3+1+4+16) 25 6 _ = _
  simp (disch := decide) only [BitVec.extractLsb'_append_eq_of_le, BitVec.extractLsb'_append_eq_of_add_le]
  exact BitVec.extractLsb'_eq_self

theorem packC_24 : (packC op h sd base ms tile tk sc fsel off).getLsbD 24 = tk := by
  unfold packC
  show BitVec.getLsbD (w := 8+3+4+6+6+6+6+1+3+1+4+16) _ 24 = _
  simp only [BitVec.getLsbD_append, b1]
  simp

theorem packC_21_3 : (packC op h sd base ms tile tk sc fsel off).extractLsb' 21 3 = sc := by
  unfold packC
  show BitVec.extractLsb' (n := 8+3+4+6+6+6+6+1+3+1+4+16) 21 3 _ = _
  simp (disch := decide) only [BitVec.extractLsb'_append_eq_of_le, BitVec.extractLsb'_append_eq_of_add_le]
  exact BitVec.extractLsb'_eq_self

theorem packC_20 : (packC op h sd base ms tile tk sc fsel off).getLsbD 20 = fsel := by
  unfold packC
  show BitVec.getLsbD (w := 8+3+4+6+6+6+6+1+3+1+4+16) _ 20 = _
  simp only [BitVec.getLsbD_append, b1]
  simp

theorem packC_0_16 : (packC op h sd base ms tile tk sc fsel off).extractLsb' 0 16 = off := by
  unfold packC
  show BitVec.extractLsb' (n := 8+3+4+6+6+6+6+1+3+1+4+16) 0 16 _ = _
  simp (disch := decide) only [BitVec.extractLsb'_append_eq_of_le, BitVec.extractLsb'_append_eq_of_add_le]
  exact BitVec.extractLsb'_eq_self

theorem packC_0 : (packC op h sd base ms tile tk sc fsel off).getLsbD 0 = off.getLsbD 0 := by
  unfold packC
  show BitVec.getLsbD (w := 8+3+4+6+6+6+6+1+3+1+4+16) _ 0 = _
  simp only [BitVec.getLsbD_append, b1]
  simp

end packC

section packX
variable (op : BitVec 8) (acc : BitVec 3) (ta : BitVec 6) (tb : BitVec 6) (fs : BitVec 3) (fl : BitVec 3) (cnt : BitVec 8) (ss : BitVec 6) (imm : BitVec 14)

theorem packX_56_8 : (packX op acc ta tb fs fl cnt ss imm).extractLsb' 56 8 = op := by
  unfold packX
  show BitVec.extractLsb' (n := 8+3+4+3+6+6+3+3+8+6+14) 56 8 _ = _
  simp (disch := decide) only [BitVec.extractLsb'_append_eq_of_le, BitVec.extractLsb'_append_eq_of_add_le]
  exact BitVec.extractLsb'_eq_self

theorem packX_46_3 : (packX op acc ta tb fs fl cnt ss imm).extractLsb' 46 3 = acc := by
  unfold packX
  show BitVec.extractLsb' (n := 8+3+4+3+6+6+3+3+8+6+14) 46 3 _ = _
  simp (disch := decide) only [BitVec.extractLsb'_append_eq_of_le, BitVec.extractLsb'_append_eq_of_add_le]
  exact BitVec.extractLsb'_eq_self

theorem packX_40_6 : (packX op acc ta tb fs fl cnt ss imm).extractLsb' 40 6 = ta := by
  unfold packX
  show BitVec.extractLsb' (n := 8+3+4+3+6+6+3+3+8+6+14) 40 6 _ = _
  simp (disch := decide) only [BitVec.extractLsb'_append_eq_of_le, BitVec.extractLsb'_append_eq_of_add_le]
  exact BitVec.extractLsb'_eq_self

theorem packX_31_3 : (packX op acc ta tb fs fl cnt ss imm).extractLsb' 31 3 = fs := by
  unfold packX
  show BitVec.extractLsb' (n := 8+3+4+3+6+6+3+3+8+6+14) 31 3 _ = _
  simp (disch := decide) only [BitVec.extractLsb'_append_eq_of_le, BitVec.extractLsb'_append_eq_of_add_le]
  exact BitVec.extractLsb'_eq_self

theorem packX_28 : (packX op acc ta tb fs fl cnt ss imm).getLsbD 28 = fl.getLsbD 0 := by
  unfold packX
  show BitVec.getLsbD (w := 8+3+4+3+6+6+3+3+8+6+14) _ 28 = _
  simp only [BitVec.getLsbD_append, b1]
  simp

theorem packX_20_8 : (packX op acc ta tb fs fl cnt ss imm).extractLsb' 20 8 = cnt := by
  unfold packX
  show BitVec.extractLsb' (n := 8+3+4+3+6+6+3+3+8+6+14) 20 8 _ = _
  simp (disch := decide) only [BitVec.extractLsb'_append_eq_of_le, BitVec.extractLsb'_append_eq_of_add_le]
  exact BitVec.extractLsb'_eq_self

theorem packX_20_2 : (packX op acc ta tb fs fl cnt ss imm).extractLsb' 20 2 = cnt.extractLsb' 0 2 := by
  unfold packX
  show BitVec.extractLsb' (n := 8+3+4+3+6+6+3+3+8+6+14) 20 2 _ = _
  simp (disch := decide) only [BitVec.extractLsb'_append_eq_of_le, BitVec.extractLsb'_append_eq_of_add_le]

theorem packX_20_3 : (packX op acc ta tb fs fl cnt ss imm).extractLsb' 20 3 = cnt.extractLsb' 0 3 := by
  unfold packX
  show BitVec.extractLsb' (n := 8+3+4+3+6+6+3+3+8+6+14) 20 3 _ = _
  simp (disch := decide) only [BitVec.extractLsb'_append_eq_of_le, BitVec.extractLsb'_append_eq_of_add_le]

theorem packX_20_6 : (packX op acc ta tb fs fl cnt ss imm).extractLsb' 20 6 = cnt.extractLsb' 0 6 := by
  unfold packX
  show BitVec.extractLsb' (n := 8+3+4+3+6+6+3+3+8+6+14) 20 6 _ = _
  simp (disch := decide) only [BitVec.extractLsb'_append_eq_of_le, BitVec.extractLsb'_append_eq_of_add_le]

theorem packX_14_6 : (packX op acc ta tb fs fl cnt ss imm).extractLsb' 14 6 = ss := by
  unfold packX
  show BitVec.extractLsb' (n := 8+3+4+3+6+6+3+3+8+6+14) 14 6 _ = _
  simp (disch := decide) only [BitVec.extractLsb'_append_eq_of_le, BitVec.extractLsb'_append_eq_of_add_le]
  exact BitVec.extractLsb'_eq_self

theorem packX_0_14 : (packX op acc ta tb fs fl cnt ss imm).extractLsb' 0 14 = imm := by
  unfold packX
  show BitVec.extractLsb' (n := 8+3+4+3+6+6+3+3+8+6+14) 0 14 _ = _
  simp (disch := decide) only [BitVec.extractLsb'_append_eq_of_le, BitVec.extractLsb'_append_eq_of_add_le]
  exact BitVec.extractLsb'_eq_self

theorem packX_0_5 : (packX op acc ta tb fs fl cnt ss imm).extractLsb' 0 5 = imm.extractLsb' 0 5 := by
  unfold packX
  show BitVec.extractLsb' (n := 8+3+4+3+6+6+3+3+8+6+14) 0 5 _ = _
  simp (disch := decide) only [BitVec.extractLsb'_append_eq_of_le, BitVec.extractLsb'_append_eq_of_add_le]

end packX

/-! Codes and operand fields read back. -/

theorem parse_at {w : W64} {n : Nat} {i : Instr} (h : wOp w = n) (hv : ∀ v, v = w → parseOp n v = some i) : parse w = some i := by
  rw [parse, h]; exact hv w rfl
theorem take_setWidth {n k : Nat} (x : BitVec n) (h : n ≤ k) : BitVec.extractLsb' 0 n (BitVec.setWidth k x) = x := by
  apply BitVec.eq_of_toNat_eq
  have hx := x.isLt
  have : 2 ^ n ≤ 2 ^ k := Nat.pow_le_pow_right (by decide) h
  simp [BitVec.extractLsb'_toNat, Nat.mod_eq_of_lt (Nat.lt_of_lt_of_le hx this), Nat.mod_eq_of_lt hx]
theorem take_imm (x : BitVec 32) : BitVec.extractLsb' 0 32 (BitVec.setWidth 36 x) = x := take_setWidth x (by decide)
theorem take_reg (y : BitVec 6) : BitVec.extractLsb' 30 6 (y ++ 0#30) = y := by
  show BitVec.extractLsb' (n := 6 + 30) 30 6 _ = _
  rw [BitVec.extractLsb'_append_eq_of_le (by decide)]; exact BitVec.extractLsb'_eq_self
theorem take_cc (y : BitVec 6) (c : BitVec 4) : BitVec.extractLsb' 26 4 (y ++ c ++ 0#26) = c := by
  show BitVec.extractLsb' (n := 6 + 4 + 26) 26 4 _ = _
  rw [BitVec.extractLsb'_append_eq_of_le (by decide), BitVec.extractLsb'_append_eq_of_add_le (by decide)]; exact BitVec.extractLsb'_eq_self
theorem take_sb (y : BitVec 6) (c : BitVec 4) : BitVec.extractLsb' 30 6 (y ++ c ++ 0#26) = y := by
  show BitVec.extractLsb' (n := 6 + 4 + 26) 30 6 _ = _
  rw [BitVec.extractLsb'_append_eq_of_le (by decide), BitVec.extractLsb'_append_eq_of_le (by decide)]; exact BitVec.extractLsb'_eq_self
theorem take_hi4 (a b : BitVec 4) : BitVec.extractLsb' 4 4 (a ++ b) = a := by
  show BitVec.extractLsb' (n := 4 + 4) 4 4 _ = _
  rw [BitVec.extractLsb'_append_eq_of_le (by decide)]; exact BitVec.extractLsb'_eq_self
theorem take_lo4 (a b : BitVec 4) : BitVec.setWidth 4 (a ++ b) = b := by decide +revert
theorem take_cc4 (a : BitVec 4) (p : BitVec 3) : BitVec.extractLsb' 4 4 (a ++ 0#1 ++ p) = a := by decide +revert
theorem take_pd (a : BitVec 4) (p : BitVec 3) : BitVec.setWidth 3 (a ++ 0#1 ++ p) = p := by decide +revert
theorem fold_u (a i : Bool) (c : BitVec 3) : (0#3 ++ b1 a ++ b1 i ++ c).getLsbD 4 = a := by decide +revert
theorem fold_i (a i : Bool) (c : BitVec 3) : (0#3 ++ b1 a ++ b1 i ++ c).getLsbD 3 = i := by decide +revert
theorem fold_c (a i : Bool) (c : BitVec 3) : BitVec.setWidth 3 (0#3 ++ b1 a ++ b1 i ++ c) = c := by decide +revert
theorem foldop_back (c : FoldOp) : FoldOp.ofCode c.code.1 c.code.2 = some c := by cases c <;> rfl
theorem bit_if8 (u : Bool) : (if u = true then 1#8 else 0#8).getLsbD 0 = u := by cases u <;> rfl
theorem bit_if3 (u : Bool) : (if u = true then 5#3 else 4#3).getLsbD 0 = u := by cases u <;> rfl
theorem take_d8 (a b : BitVec 8) : BitVec.extractLsb' 8 8 (0#16 ++ a ++ b) = a := by
  show BitVec.extractLsb' (n := 16 + 8 + 8) 8 8 _ = _
  rw [BitVec.extractLsb'_append_eq_of_le (by decide), BitVec.extractLsb'_append_eq_of_add_le (by decide)]; exact BitVec.extractLsb'_eq_self
theorem take_k8 (a b : BitVec 8) : BitVec.extractLsb' 0 8 (0#16 ++ a ++ b) = b := by
  show BitVec.extractLsb' (n := 16 + 8 + 8) 0 8 _ = _
  rw [BitVec.extractLsb'_append_eq_of_add_le (by decide)]; exact BitVec.extractLsb'_eq_self
theorem take_b16 (a b : BitVec 8) : BitVec.extractLsb' 8 8 (a ++ b) = a := by
  show BitVec.extractLsb' (n := 8 + 8) 8 8 _ = _
  rw [BitVec.extractLsb'_append_eq_of_le (by decide)]; exact BitVec.extractLsb'_eq_self
theorem take_c16 (a b : BitVec 8) : BitVec.extractLsb' 0 8 (a ++ b) = b := by
  show BitVec.extractLsb' (n := 8 + 8) 0 8 _ = _
  rw [BitVec.extractLsb'_append_eq_of_add_le (by decide)]; exact BitVec.extractLsb'_eq_self
theorem bit_hi (b : Bool) : (BitVec.setWidth 16 (b1 b)).getLsbD 0 = b := by cases b <;> rfl
theorem bit_b1 (b : Bool) : (b1 b).getLsbD 0 = b := by cases b <;> rfl
theorem bit_qm (b : Bool) : ((0#6 ++ if b = true then 1#4 else 0#4) ++ 0#26).getLsbD 26 = b := by cases b <;> rfl
theorem bit_x (y : BitVec 7) : (1#1 ++ y).getLsbD 7 = true := by decide +revert
theorem take_x (y : BitVec 7) : BitVec.extractLsb' 0 7 (1#1 ++ y) = y := by decide +revert
theorem bit_r (r : BitVec 6) : (BitVec.setWidth 8 r).getLsbD 7 = false := by decide +revert
theorem take_r (r : BitVec 6) : BitVec.extractLsb' 0 6 (BitVec.setWidth 8 r) = r := by decide +revert
theorem width_seven : Width.ofCode 7#3 = .w256 := rfl
theorem src_back (a : Src) : Src.ofField a.field a.kind = a := by
  cases a with
  | v r => rfl
  | s r => simp [Src.ofField, Src.field, Src.kind]
theorem cmp_back (c : Cmp) : Cmp.ofCode c.code = some c := by cases c <;> rfl
theorem rnd_back (c : Rnd) : Rnd.ofCode c.code = some c := by cases c <;> rfl
theorem scope_back (c : Scope) : Scope.ofCode c.code = some c := by cases c <;> rfl
theorem width_back (c : Width) : Width.ofCode c.code = c := by cases c <;> rfl
theorem scl_back (c : Scl) : Scl.ofCode c.code = some c := by cases c <;> rfl
theorem typecode_back (c : TypeCode) : TypeCode.ofCode c.code = some c := by cases c <;> rfl
theorem predop_back (c : PredOp) : PredOp.ofCode c.code = c := by cases c <;> rfl

end Sys2Proof.Laws.Fields

namespace Sys2Proof.Laws.RoundTrip

open Sys2Proof Sys2Proof.Laws.Fields
set_option linter.unusedSimpArgs false

/-- Decoding the word of a well-formed instruction gives it back; an event is no word. -/
def Statement (i : Instr) : Prop := i.isWord = true → i.wf = true → decode (encode i) = some i

theorem of_parse {i : Instr} (h : parse (encode i) = some i) : Statement i := by
  intro _ hw; simp [decode, h, hw]

theorem nop (h : Head) : Statement (.nop h) := by
  refine of_parse ?_
  refine parse_at (n := 0x00) (congrArg BitVec.toNat (packS_56_8 ..)) ?_
  intro v hv
  have hv : v = packS 0x00 h 0 0 false 0 := hv
  conv => { lhs; whnf }
  simp [wHead, hv, packS_53_3, packS_49_4]

theorem bra (h : Head) (off : BitVec 32) : Statement (.bra h off) := by
  refine of_parse ?_
  refine parse_at (n := 0x01) (congrArg BitVec.toNat (packB_56_8 ..)) ?_
  intro v hv
  have hv : v = packB 0x01 h 0 0 0 off := hv
  conv => { lhs; whnf }
  simp [wHead, wOff32, wScB, hv, packB_53_3, packB_49_4, packB_32_3, packB_0_32, packB_35_6]

theorem bnz (h : Head) (sc : BitVec 6) (off : BitVec 32) : Statement (.bnz h sc off) := by
  refine of_parse ?_
  refine parse_at (n := 0x01) (congrArg BitVec.toNat (packB_56_8 ..)) ?_
  intro v hv
  have hv : v = packB 0x01 h 0 sc 1 off := hv
  conv => { lhs; whnf }
  simp [wHead, wOff32, wScB, hv, packB_53_3, packB_49_4, packB_32_3, packB_0_32, packB_35_6]

theorem bz (h : Head) (sc : BitVec 6) (off : BitVec 32) : Statement (.bz h sc off) := by
  refine of_parse ?_
  refine parse_at (n := 0x01) (congrArg BitVec.toNat (packB_56_8 ..)) ?_
  intro v hv
  have hv : v = packB 0x01 h 0 sc 2 off := hv
  conv => { lhs; whnf }
  simp [wHead, wOff32, wScB, hv, packB_53_3, packB_49_4, packB_32_3, packB_0_32, packB_35_6]

theorem call (h : Head) (lv : BitVec 8) (off : BitVec 32) : Statement (.call h lv off) := by
  refine of_parse ?_
  refine parse_at (n := 0x02) (congrArg BitVec.toNat (packB_56_8 ..)) ?_
  intro v hv
  have hv : v = packB 0x02 h lv 0 0 off := hv
  conv => { lhs; whnf }
  simp [wHead, wLv, wOff32, hv, packB_53_3, packB_49_4, packB_41_8, packB_0_32]

theorem ret (h : Head) (lv : BitVec 8) : Statement (.ret h lv) := by
  refine of_parse ?_
  refine parse_at (n := 0x03) (congrArg BitVec.toNat (packB_56_8 ..)) ?_
  intro v hv
  have hv : v = packB 0x03 h lv 0 0 0 := hv
  conv => { lhs; whnf }
  simp [wHead, wLv, hv, packB_53_3, packB_49_4, packB_41_8]

theorem exit (h : Head) : Statement (.exit h) := by
  refine of_parse ?_
  refine parse_at (n := 0x04) (congrArg BitVec.toNat (packB_56_8 ..)) ?_
  intro v hv
  have hv : v = packB 0x04 h 0 0 0 0 := hv
  conv => { lhs; whnf }
  simp [wHead, hv, packB_53_3, packB_49_4]

theorem tcall (h : Head) (off : BitVec 32) : Statement (.tcall h off) := by
  refine of_parse ?_
  refine parse_at (n := 0x05) (congrArg BitVec.toNat (packT_56_8 ..)) ?_
  intro v hv
  have hv : v = packT 0x05 h 0 0 false off := hv
  conv => { lhs; whnf }
  simp [wHead, wOff32, hv, packT_53_3, packT_49_4, packT_0_32]

theorem tcallW (h : Head) (off : BitVec 32) : Statement (.tcallW h off) := by
  refine of_parse ?_
  refine parse_at (n := 0x06) (congrArg BitVec.toNat (packT_56_8 ..)) ?_
  intro v hv
  have hv : v = packT 0x06 h 0 0 false off := hv
  conv => { lhs; whnf }
  simp [wHead, wOff32, hv, packT_53_3, packT_49_4, packT_0_32]

theorem tret (h : Head) : Statement (.tret h) := by
  refine of_parse ?_
  refine parse_at (n := 0x07) (congrArg BitVec.toNat (packT_56_8 ..)) ?_
  intro v hv
  have hv : v = packT 0x07 h 0 0 false 0 := hv
  conv => { lhs; whnf }
  simp [wHead, hv, packT_53_3, packT_49_4]

theorem tquit (h : Head) : Statement (.tquit h) := by
  refine of_parse ?_
  refine parse_at (n := 0x08) (congrArg BitVec.toNat (packT_56_8 ..)) ?_
  intro v hv
  have hv : v = packT 0x08 h 0 0 false 0 := hv
  conv => { lhs; whnf }
  simp [wHead, hv, packT_53_3, packT_49_4]

theorem tstat (h : Head) (sd : BitVec 6) (n : BitVec 3) : Statement (.tstat h sd n) := by
  refine of_parse ?_
  refine parse_at (n := 0x09) (congrArg BitVec.toNat (packT_56_8 ..)) ?_
  intro v hv
  have hv : v = packT 0x09 h sd n false 0 := hv
  rw [show parseOp 0x09 v = (if v.getLsbD 39 then some (.tstatCancel (wHead v) (wSd v)) else some (.tstat (wHead v) (wSd v) (v.extractLsb' 40 3))) from rfl]
  simp [-BitVec.getLsbD_eq_getElem, wHead, wSd, hv, packT_53_3, packT_49_4, packT_40_3, packT_43_6, packT_39]

theorem tstatCancel (h : Head) (sd : BitVec 6) : Statement (.tstatCancel h sd) := by
  refine of_parse ?_
  refine parse_at (n := 0x09) (congrArg BitVec.toNat (packT_56_8 ..)) ?_
  intro v hv
  have hv : v = packT 0x09 h sd 0 true 0 := hv
  rw [show parseOp 0x09 v = (if v.getLsbD 39 then some (.tstatCancel (wHead v) (wSd v)) else some (.tstat (wHead v) (wSd v) (v.extractLsb' 40 3))) from rfl]
  simp [-BitVec.getLsbD_eq_getElem, wHead, wSd, hv, packT_53_3, packT_49_4, packT_40_3, packT_43_6, packT_39]

theorem tbar (h : Head) : Statement (.tbar h) := by
  refine of_parse ?_
  refine parse_at (n := 0x0A) (congrArg BitVec.toNat (packT_56_8 ..)) ?_
  intro v hv
  have hv : v = packT 0x0A h 0 0 false 0 := hv
  conv => { lhs; whnf }
  simp [wHead, hv, packT_53_3, packT_49_4]

theorem sMov (h : Head) (sd : BitVec 6) (y : SSrc) : Statement (.sMov h sd y) := by
  refine of_parse ?_
  rcases y with y | y
  · refine parse_at (n := 0x10) (congrArg BitVec.toNat (packS_56_8 ..)) ?_
    intro v hv
    have hv : v = packSOp 0x10 h sd 0 (.reg y) := hv
    conv => { lhs; whnf }
    simp [-BitVec.getLsbD_eq_getElem, wHead, wSd, wY, hv, packS_53_3, packS_49_4, packS_43_6, packS_0_36, packS_30_6, packS_36, packSOp, take_reg]
  · refine parse_at (n := 0x10) (congrArg BitVec.toNat (packS_56_8 ..)) ?_
    intro v hv
    have hv : v = packSOp 0x10 h sd 0 (.imm y) := hv
    conv => { lhs; whnf }
    simp [-BitVec.getLsbD_eq_getElem, wHead, wSd, wY, hv, packS_53_3, packS_49_4, packS_43_6, packS_0_36, packS_30_6, packS_36, packSOp, take_reg]

theorem movh (h : Head) (sd : BitVec 6) (imm : BitVec 32) : Statement (.movh h sd imm) := by
  refine of_parse ?_
  refine parse_at (n := 0x11) (congrArg BitVec.toNat (packS_56_8 ..)) ?_
  intro v hv
  have hv : v = packS 0x11 h sd 0 true (imm.setWidth 36) := hv
  conv => { lhs; whnf }
  simp [wHead, wSd, wImm, hv, packS_53_3, packS_49_4, packS_43_6, packS_0_32, take_setWidth, take_imm]

theorem sIadd (h : Head) (sd : BitVec 6) (sa : BitVec 6) (y : SSrc) : Statement (.sIadd h sd sa y) := by
  refine of_parse ?_
  rcases y with y | y
  · refine parse_at (n := 0x12) (congrArg BitVec.toNat (packS_56_8 ..)) ?_
    intro v hv
    have hv : v = packSOp 0x12 h sd sa (.reg y) := hv
    conv => { lhs; whnf }
    simp [-BitVec.getLsbD_eq_getElem, wHead, wSd, wSa, wY, hv, packS_53_3, packS_49_4, packS_43_6, packS_37_6, packS_0_36, packS_30_6, packS_36, packSOp, take_reg]
  · refine parse_at (n := 0x12) (congrArg BitVec.toNat (packS_56_8 ..)) ?_
    intro v hv
    have hv : v = packSOp 0x12 h sd sa (.imm y) := hv
    conv => { lhs; whnf }
    simp [-BitVec.getLsbD_eq_getElem, wHead, wSd, wSa, wY, hv, packS_53_3, packS_49_4, packS_43_6, packS_37_6, packS_0_36, packS_30_6, packS_36, packSOp, take_reg]

theorem sIsub (h : Head) (sd : BitVec 6) (sa : BitVec 6) (y : SSrc) : Statement (.sIsub h sd sa y) := by
  refine of_parse ?_
  rcases y with y | y
  · refine parse_at (n := 0x13) (congrArg BitVec.toNat (packS_56_8 ..)) ?_
    intro v hv
    have hv : v = packSOp 0x13 h sd sa (.reg y) := hv
    conv => { lhs; whnf }
    simp [-BitVec.getLsbD_eq_getElem, wHead, wSd, wSa, wY, hv, packS_53_3, packS_49_4, packS_43_6, packS_37_6, packS_0_36, packS_30_6, packS_36, packSOp, take_reg]
  · refine parse_at (n := 0x13) (congrArg BitVec.toNat (packS_56_8 ..)) ?_
    intro v hv
    have hv : v = packSOp 0x13 h sd sa (.imm y) := hv
    conv => { lhs; whnf }
    simp [-BitVec.getLsbD_eq_getElem, wHead, wSd, wSa, wY, hv, packS_53_3, packS_49_4, packS_43_6, packS_37_6, packS_0_36, packS_30_6, packS_36, packSOp, take_reg]

theorem sMul (h : Head) (sd : BitVec 6) (sa : BitVec 6) (y : SSrc) : Statement (.sMul h sd sa y) := by
  refine of_parse ?_
  rcases y with y | y
  · refine parse_at (n := 0x14) (congrArg BitVec.toNat (packS_56_8 ..)) ?_
    intro v hv
    have hv : v = packSOp 0x14 h sd sa (.reg y) := hv
    conv => { lhs; whnf }
    simp [-BitVec.getLsbD_eq_getElem, wHead, wSd, wSa, wY, hv, packS_53_3, packS_49_4, packS_43_6, packS_37_6, packS_0_36, packS_30_6, packS_36, packSOp, take_reg]
  · refine parse_at (n := 0x14) (congrArg BitVec.toNat (packS_56_8 ..)) ?_
    intro v hv
    have hv : v = packSOp 0x14 h sd sa (.imm y) := hv
    conv => { lhs; whnf }
    simp [-BitVec.getLsbD_eq_getElem, wHead, wSd, wSa, wY, hv, packS_53_3, packS_49_4, packS_43_6, packS_37_6, packS_0_36, packS_30_6, packS_36, packSOp, take_reg]

theorem sMulhu (h : Head) (sd : BitVec 6) (sa : BitVec 6) (y : SSrc) : Statement (.sMulhu h sd sa y) := by
  refine of_parse ?_
  rcases y with y | y
  · refine parse_at (n := 0x15) (congrArg BitVec.toNat (packS_56_8 ..)) ?_
    intro v hv
    have hv : v = packSOp 0x15 h sd sa (.reg y) := hv
    conv => { lhs; whnf }
    simp [-BitVec.getLsbD_eq_getElem, wHead, wSd, wSa, wY, hv, packS_53_3, packS_49_4, packS_43_6, packS_37_6, packS_0_36, packS_30_6, packS_36, packSOp, take_reg]
  · refine parse_at (n := 0x15) (congrArg BitVec.toNat (packS_56_8 ..)) ?_
    intro v hv
    have hv : v = packSOp 0x15 h sd sa (.imm y) := hv
    conv => { lhs; whnf }
    simp [-BitVec.getLsbD_eq_getElem, wHead, wSd, wSa, wY, hv, packS_53_3, packS_49_4, packS_43_6, packS_37_6, packS_0_36, packS_30_6, packS_36, packSOp, take_reg]

theorem sAnd (h : Head) (sd : BitVec 6) (sa : BitVec 6) (y : SSrc) : Statement (.sAnd h sd sa y) := by
  refine of_parse ?_
  rcases y with y | y
  · refine parse_at (n := 0x16) (congrArg BitVec.toNat (packS_56_8 ..)) ?_
    intro v hv
    have hv : v = packSOp 0x16 h sd sa (.reg y) := hv
    conv => { lhs; whnf }
    simp [-BitVec.getLsbD_eq_getElem, wHead, wSd, wSa, wY, hv, packS_53_3, packS_49_4, packS_43_6, packS_37_6, packS_0_36, packS_30_6, packS_36, packSOp, take_reg]
  · refine parse_at (n := 0x16) (congrArg BitVec.toNat (packS_56_8 ..)) ?_
    intro v hv
    have hv : v = packSOp 0x16 h sd sa (.imm y) := hv
    conv => { lhs; whnf }
    simp [-BitVec.getLsbD_eq_getElem, wHead, wSd, wSa, wY, hv, packS_53_3, packS_49_4, packS_43_6, packS_37_6, packS_0_36, packS_30_6, packS_36, packSOp, take_reg]

theorem sOr (h : Head) (sd : BitVec 6) (sa : BitVec 6) (y : SSrc) : Statement (.sOr h sd sa y) := by
  refine of_parse ?_
  rcases y with y | y
  · refine parse_at (n := 0x17) (congrArg BitVec.toNat (packS_56_8 ..)) ?_
    intro v hv
    have hv : v = packSOp 0x17 h sd sa (.reg y) := hv
    conv => { lhs; whnf }
    simp [-BitVec.getLsbD_eq_getElem, wHead, wSd, wSa, wY, hv, packS_53_3, packS_49_4, packS_43_6, packS_37_6, packS_0_36, packS_30_6, packS_36, packSOp, take_reg]
  · refine parse_at (n := 0x17) (congrArg BitVec.toNat (packS_56_8 ..)) ?_
    intro v hv
    have hv : v = packSOp 0x17 h sd sa (.imm y) := hv
    conv => { lhs; whnf }
    simp [-BitVec.getLsbD_eq_getElem, wHead, wSd, wSa, wY, hv, packS_53_3, packS_49_4, packS_43_6, packS_37_6, packS_0_36, packS_30_6, packS_36, packSOp, take_reg]

theorem sXor (h : Head) (sd : BitVec 6) (sa : BitVec 6) (y : SSrc) : Statement (.sXor h sd sa y) := by
  refine of_parse ?_
  rcases y with y | y
  · refine parse_at (n := 0x18) (congrArg BitVec.toNat (packS_56_8 ..)) ?_
    intro v hv
    have hv : v = packSOp 0x18 h sd sa (.reg y) := hv
    conv => { lhs; whnf }
    simp [-BitVec.getLsbD_eq_getElem, wHead, wSd, wSa, wY, hv, packS_53_3, packS_49_4, packS_43_6, packS_37_6, packS_0_36, packS_30_6, packS_36, packSOp, take_reg]
  · refine parse_at (n := 0x18) (congrArg BitVec.toNat (packS_56_8 ..)) ?_
    intro v hv
    have hv : v = packSOp 0x18 h sd sa (.imm y) := hv
    conv => { lhs; whnf }
    simp [-BitVec.getLsbD_eq_getElem, wHead, wSd, wSa, wY, hv, packS_53_3, packS_49_4, packS_43_6, packS_37_6, packS_0_36, packS_30_6, packS_36, packSOp, take_reg]

theorem sShl (h : Head) (sd : BitVec 6) (sa : BitVec 6) (y : SSrc) : Statement (.sShl h sd sa y) := by
  refine of_parse ?_
  rcases y with y | y
  · refine parse_at (n := 0x19) (congrArg BitVec.toNat (packS_56_8 ..)) ?_
    intro v hv
    have hv : v = packSOp 0x19 h sd sa (.reg y) := hv
    conv => { lhs; whnf }
    simp [-BitVec.getLsbD_eq_getElem, wHead, wSd, wSa, wY, hv, packS_53_3, packS_49_4, packS_43_6, packS_37_6, packS_0_36, packS_30_6, packS_36, packSOp, take_reg]
  · refine parse_at (n := 0x19) (congrArg BitVec.toNat (packS_56_8 ..)) ?_
    intro v hv
    have hv : v = packSOp 0x19 h sd sa (.imm y) := hv
    conv => { lhs; whnf }
    simp [-BitVec.getLsbD_eq_getElem, wHead, wSd, wSa, wY, hv, packS_53_3, packS_49_4, packS_43_6, packS_37_6, packS_0_36, packS_30_6, packS_36, packSOp, take_reg]

theorem sShr (h : Head) (sd : BitVec 6) (sa : BitVec 6) (y : SSrc) : Statement (.sShr h sd sa y) := by
  refine of_parse ?_
  rcases y with y | y
  · refine parse_at (n := 0x1A) (congrArg BitVec.toNat (packS_56_8 ..)) ?_
    intro v hv
    have hv : v = packSOp 0x1A h sd sa (.reg y) := hv
    conv => { lhs; whnf }
    simp [-BitVec.getLsbD_eq_getElem, wHead, wSd, wSa, wY, hv, packS_53_3, packS_49_4, packS_43_6, packS_37_6, packS_0_36, packS_30_6, packS_36, packSOp, take_reg]
  · refine parse_at (n := 0x1A) (congrArg BitVec.toNat (packS_56_8 ..)) ?_
    intro v hv
    have hv : v = packSOp 0x1A h sd sa (.imm y) := hv
    conv => { lhs; whnf }
    simp [-BitVec.getLsbD_eq_getElem, wHead, wSd, wSa, wY, hv, packS_53_3, packS_49_4, packS_43_6, packS_37_6, packS_0_36, packS_30_6, packS_36, packSOp, take_reg]

theorem sSar (h : Head) (sd : BitVec 6) (sa : BitVec 6) (y : SSrc) : Statement (.sSar h sd sa y) := by
  refine of_parse ?_
  rcases y with y | y
  · refine parse_at (n := 0x1B) (congrArg BitVec.toNat (packS_56_8 ..)) ?_
    intro v hv
    have hv : v = packSOp 0x1B h sd sa (.reg y) := hv
    conv => { lhs; whnf }
    simp [-BitVec.getLsbD_eq_getElem, wHead, wSd, wSa, wY, hv, packS_53_3, packS_49_4, packS_43_6, packS_37_6, packS_0_36, packS_30_6, packS_36, packSOp, take_reg]
  · refine parse_at (n := 0x1B) (congrArg BitVec.toNat (packS_56_8 ..)) ?_
    intro v hv
    have hv : v = packSOp 0x1B h sd sa (.imm y) := hv
    conv => { lhs; whnf }
    simp [-BitVec.getLsbD_eq_getElem, wHead, wSd, wSa, wY, hv, packS_53_3, packS_49_4, packS_43_6, packS_37_6, packS_0_36, packS_30_6, packS_36, packSOp, take_reg]

theorem sMin (h : Head) (sd : BitVec 6) (sa : BitVec 6) (y : SSrc) : Statement (.sMin h sd sa y) := by
  refine of_parse ?_
  rcases y with y | y
  · refine parse_at (n := 0x1C) (congrArg BitVec.toNat (packS_56_8 ..)) ?_
    intro v hv
    have hv : v = packSOp 0x1C h sd sa (.reg y) := hv
    conv => { lhs; whnf }
    simp [-BitVec.getLsbD_eq_getElem, wHead, wSd, wSa, wY, hv, packS_53_3, packS_49_4, packS_43_6, packS_37_6, packS_0_36, packS_30_6, packS_36, packSOp, take_reg]
  · refine parse_at (n := 0x1C) (congrArg BitVec.toNat (packS_56_8 ..)) ?_
    intro v hv
    have hv : v = packSOp 0x1C h sd sa (.imm y) := hv
    conv => { lhs; whnf }
    simp [-BitVec.getLsbD_eq_getElem, wHead, wSd, wSa, wY, hv, packS_53_3, packS_49_4, packS_43_6, packS_37_6, packS_0_36, packS_30_6, packS_36, packSOp, take_reg]

theorem sMax (h : Head) (sd : BitVec 6) (sa : BitVec 6) (y : SSrc) : Statement (.sMax h sd sa y) := by
  refine of_parse ?_
  rcases y with y | y
  · refine parse_at (n := 0x1D) (congrArg BitVec.toNat (packS_56_8 ..)) ?_
    intro v hv
    have hv : v = packSOp 0x1D h sd sa (.reg y) := hv
    conv => { lhs; whnf }
    simp [-BitVec.getLsbD_eq_getElem, wHead, wSd, wSa, wY, hv, packS_53_3, packS_49_4, packS_43_6, packS_37_6, packS_0_36, packS_30_6, packS_36, packSOp, take_reg]
  · refine parse_at (n := 0x1D) (congrArg BitVec.toNat (packS_56_8 ..)) ?_
    intro v hv
    have hv : v = packSOp 0x1D h sd sa (.imm y) := hv
    conv => { lhs; whnf }
    simp [-BitVec.getLsbD_eq_getElem, wHead, wSd, wSa, wY, hv, packS_53_3, packS_49_4, packS_43_6, packS_37_6, packS_0_36, packS_30_6, packS_36, packSOp, take_reg]

theorem sset (h : Head) (cc : Cmp) (sd : BitVec 6) (sa : BitVec 6) (sb : BitVec 6) : Statement (.sset h cc sd sa sb) := by
  refine of_parse ?_
  refine parse_at (n := 0x1E) (congrArg BitVec.toNat (packS_56_8 ..)) ?_
  intro v hv
  have hv : v = packS 0x1E h sd sa false (sb ++ cc.code ++ 0#26) := hv
  conv => { lhs; whnf }
  simp [wHead, wSd, wSa, hv, packS_53_3, packS_49_4, packS_26_4, packS_30_6, packS_43_6, packS_37_6, cmp_back, take_cc, take_sb, take_b16, take_c16]

theorem sPopc (h : Head) (sd : BitVec 6) (sa : BitVec 6) : Statement (.sPopc h sd sa) := by
  refine of_parse ?_
  refine parse_at (n := 0x1F) (congrArg BitVec.toNat (packS_56_8 ..)) ?_
  intro v hv
  have hv : v = packS 0x1F h sd sa false 0 := hv
  conv => { lhs; whnf }
  simp [wHead, wSd, wSa, hv, packS_53_3, packS_49_4, packS_43_6, packS_37_6]

theorem sClz (h : Head) (sd : BitVec 6) (sa : BitVec 6) : Statement (.sClz h sd sa) := by
  refine of_parse ?_
  refine parse_at (n := 0x20) (congrArg BitVec.toNat (packS_56_8 ..)) ?_
  intro v hv
  have hv : v = packS 0x20 h sd sa false 0 := hv
  conv => { lhs; whnf }
  simp [wHead, wSd, wSa, hv, packS_53_3, packS_49_4, packS_43_6, packS_37_6]

theorem mov (h : Head) (d : BitVec 8) (a : Src) : Statement (.mov h d a) := by
  refine of_parse ?_
  refine parse_at (n := 0x30) (congrArg BitVec.toNat (packV3_56_8 ..)) ?_
  intro v hv
  have hv : v = packA 0x30 h d a 0 0 false := hv
  conv => { lhs; whnf }
  simp [-BitVec.getLsbD_eq_getElem, wHead, wD, wSA, wA, hv, packV3_53_3, packV3_49_4, packV3_41_8, packV3_33_8, packV3_15, packA, src_back]

theorem movImm (h : Head) (d : BitVec 8) (imm : W32) : Statement (.movImm h d imm) := by
  refine of_parse ?_
  refine parse_at (n := 0x31) (congrArg BitVec.toNat (packVI_56_8 ..)) ?_
  intro v hv
  have hv : v = packVI 0x31 h d 0 false imm := hv
  conv => { lhs; whnf }
  simp [wHead, wD, wImm, hv, packVI_53_3, packVI_49_4, packVI_41_8, packVI_0_32]

theorem iadd (h : Head) (d : BitVec 8) (a : Src) (b : Src) : Statement (.iadd h d a b) := by
  refine of_parse ?_
  refine parse_at (n := 0x32) (congrArg BitVec.toNat (packV3_56_8 ..)) ?_
  intro v hv
  have hv : v = packAB 0x32 h d a b 0 false 0 false := hv
  conv => { lhs; whnf }
  simp [-BitVec.getLsbD_eq_getElem, wHead, wD, wSA, wSB, wA, wB, hv, packV3_53_3, packV3_49_4, packV3_41_8, packV3_33_8, packV3_25_8, packV3_15, packV3_14, packAB, src_back]

theorem iaddImm (h : Head) (d : BitVec 8) (a : Src) (imm : W32) : Statement (.iaddImm h d a imm) := by
  refine of_parse ?_
  refine parse_at (n := 0x33) (congrArg BitVec.toNat (packVI_56_8 ..)) ?_
  intro v hv
  have hv : v = packVI 0x33 h d a.field a.kind imm := hv
  conv => { lhs; whnf }
  simp [-BitVec.getLsbD_eq_getElem, wHead, wD, wVIA, wImm, wA, hv, packVI_53_3, packVI_49_4, packVI_41_8, packVI_0_32, packVI_33_8, packVI_32, src_back]

theorem isub (h : Head) (d : BitVec 8) (a : Src) (b : Src) : Statement (.isub h d a b) := by
  refine of_parse ?_
  refine parse_at (n := 0x34) (congrArg BitVec.toNat (packV3_56_8 ..)) ?_
  intro v hv
  have hv : v = packAB 0x34 h d a b 0 false 0 false := hv
  conv => { lhs; whnf }
  simp [-BitVec.getLsbD_eq_getElem, wHead, wD, wSA, wSB, wA, wB, hv, packV3_53_3, packV3_49_4, packV3_41_8, packV3_33_8, packV3_25_8, packV3_15, packV3_14, packAB, src_back]

theorem isubImm (h : Head) (d : BitVec 8) (a : Src) (imm : W32) : Statement (.isubImm h d a imm) := by
  refine of_parse ?_
  refine parse_at (n := 0x35) (congrArg BitVec.toNat (packVI_56_8 ..)) ?_
  intro v hv
  have hv : v = packVI 0x35 h d a.field a.kind imm := hv
  conv => { lhs; whnf }
  simp [-BitVec.getLsbD_eq_getElem, wHead, wD, wVIA, wImm, wA, hv, packVI_53_3, packVI_49_4, packVI_41_8, packVI_0_32, packVI_33_8, packVI_32, src_back]

theorem mul (h : Head) (d : BitVec 8) (a : Src) (b : Src) : Statement (.mul h d a b) := by
  refine of_parse ?_
  refine parse_at (n := 0x36) (congrArg BitVec.toNat (packV3_56_8 ..)) ?_
  intro v hv
  have hv : v = packAB 0x36 h d a b 0 false 0 false := hv
  conv => { lhs; whnf }
  simp [-BitVec.getLsbD_eq_getElem, wHead, wD, wSA, wSB, wA, wB, hv, packV3_53_3, packV3_49_4, packV3_41_8, packV3_33_8, packV3_25_8, packV3_15, packV3_14, packAB, src_back]

theorem mulImm (h : Head) (d : BitVec 8) (a : Src) (imm : W32) : Statement (.mulImm h d a imm) := by
  refine of_parse ?_
  refine parse_at (n := 0x37) (congrArg BitVec.toNat (packVI_56_8 ..)) ?_
  intro v hv
  have hv : v = packVI 0x37 h d a.field a.kind imm := hv
  conv => { lhs; whnf }
  simp [-BitVec.getLsbD_eq_getElem, wHead, wD, wVIA, wImm, wA, hv, packVI_53_3, packVI_49_4, packVI_41_8, packVI_0_32, packVI_33_8, packVI_32, src_back]

theorem mulhu (h : Head) (d : BitVec 8) (a : Src) (b : Src) : Statement (.mulhu h d a b) := by
  refine of_parse ?_
  refine parse_at (n := 0x38) (congrArg BitVec.toNat (packV3_56_8 ..)) ?_
  intro v hv
  have hv : v = packAB 0x38 h d a b 0 false 0 false := hv
  conv => { lhs; whnf }
  simp [-BitVec.getLsbD_eq_getElem, wHead, wD, wSA, wSB, wA, wB, hv, packV3_53_3, packV3_49_4, packV3_41_8, packV3_33_8, packV3_25_8, packV3_15, packV3_14, packAB, src_back]

theorem mulhuImm (h : Head) (d : BitVec 8) (a : Src) (imm : W32) : Statement (.mulhuImm h d a imm) := by
  refine of_parse ?_
  refine parse_at (n := 0x39) (congrArg BitVec.toNat (packVI_56_8 ..)) ?_
  intro v hv
  have hv : v = packVI 0x39 h d a.field a.kind imm := hv
  conv => { lhs; whnf }
  simp [-BitVec.getLsbD_eq_getElem, wHead, wD, wVIA, wImm, wA, hv, packVI_53_3, packVI_49_4, packVI_41_8, packVI_0_32, packVI_33_8, packVI_32, src_back]

theorem mulhi (h : Head) (d : BitVec 8) (a : Src) (b : Src) : Statement (.mulhi h d a b) := by
  refine of_parse ?_
  refine parse_at (n := 0x3A) (congrArg BitVec.toNat (packV3_56_8 ..)) ?_
  intro v hv
  have hv : v = packAB 0x3A h d a b 0 false 0 false := hv
  conv => { lhs; whnf }
  simp [-BitVec.getLsbD_eq_getElem, wHead, wD, wSA, wSB, wA, wB, hv, packV3_53_3, packV3_49_4, packV3_41_8, packV3_33_8, packV3_25_8, packV3_15, packV3_14, packAB, src_back]

theorem mulhiImm (h : Head) (d : BitVec 8) (a : Src) (imm : W32) : Statement (.mulhiImm h d a imm) := by
  refine of_parse ?_
  refine parse_at (n := 0x3B) (congrArg BitVec.toNat (packVI_56_8 ..)) ?_
  intro v hv
  have hv : v = packVI 0x3B h d a.field a.kind imm := hv
  conv => { lhs; whnf }
  simp [-BitVec.getLsbD_eq_getElem, wHead, wD, wVIA, wImm, wA, hv, packVI_53_3, packVI_49_4, packVI_41_8, packVI_0_32, packVI_33_8, packVI_32, src_back]

theorem imad (h : Head) (d : BitVec 8) (a : Src) (b : Src) (c : Src) : Statement (.imad h d a b c) := by
  refine of_parse ?_
  refine parse_at (n := 0x3C) (congrArg BitVec.toNat (packV3_56_8 ..)) ?_
  intro v hv
  have hv : v = packABC 0x3C h d a b c 0 false 0 := hv
  conv => { lhs; whnf }
  simp [-BitVec.getLsbD_eq_getElem, wHead, wD, wSA, wSB, wSC, wA, wB, wC, hv, packV3_53_3, packV3_49_4, packV3_41_8, packV3_33_8, packV3_25_8, packV3_17_8, packV3_15, packV3_14, packV3_13, packABC, src_back]

theorem and (h : Head) (d : BitVec 8) (a : Src) (b : Src) : Statement (.and h d a b) := by
  refine of_parse ?_
  refine parse_at (n := 0x3E) (congrArg BitVec.toNat (packV3_56_8 ..)) ?_
  intro v hv
  have hv : v = packAB 0x3E h d a b 0 false 0 false := hv
  conv => { lhs; whnf }
  simp [-BitVec.getLsbD_eq_getElem, wHead, wD, wSA, wSB, wA, wB, hv, packV3_53_3, packV3_49_4, packV3_41_8, packV3_33_8, packV3_25_8, packV3_15, packV3_14, packAB, src_back]

theorem andImm (h : Head) (d : BitVec 8) (a : Src) (imm : W32) : Statement (.andImm h d a imm) := by
  refine of_parse ?_
  refine parse_at (n := 0x3F) (congrArg BitVec.toNat (packVI_56_8 ..)) ?_
  intro v hv
  have hv : v = packVI 0x3F h d a.field a.kind imm := hv
  conv => { lhs; whnf }
  simp [-BitVec.getLsbD_eq_getElem, wHead, wD, wVIA, wImm, wA, hv, packVI_53_3, packVI_49_4, packVI_41_8, packVI_0_32, packVI_33_8, packVI_32, src_back]

theorem or (h : Head) (d : BitVec 8) (a : Src) (b : Src) : Statement (.or h d a b) := by
  refine of_parse ?_
  refine parse_at (n := 0x40) (congrArg BitVec.toNat (packV3_56_8 ..)) ?_
  intro v hv
  have hv : v = packAB 0x40 h d a b 0 false 0 false := hv
  conv => { lhs; whnf }
  simp [-BitVec.getLsbD_eq_getElem, wHead, wD, wSA, wSB, wA, wB, hv, packV3_53_3, packV3_49_4, packV3_41_8, packV3_33_8, packV3_25_8, packV3_15, packV3_14, packAB, src_back]

theorem orImm (h : Head) (d : BitVec 8) (a : Src) (imm : W32) : Statement (.orImm h d a imm) := by
  refine of_parse ?_
  refine parse_at (n := 0x41) (congrArg BitVec.toNat (packVI_56_8 ..)) ?_
  intro v hv
  have hv : v = packVI 0x41 h d a.field a.kind imm := hv
  conv => { lhs; whnf }
  simp [-BitVec.getLsbD_eq_getElem, wHead, wD, wVIA, wImm, wA, hv, packVI_53_3, packVI_49_4, packVI_41_8, packVI_0_32, packVI_33_8, packVI_32, src_back]

theorem xor (h : Head) (d : BitVec 8) (a : Src) (b : Src) : Statement (.xor h d a b) := by
  refine of_parse ?_
  refine parse_at (n := 0x42) (congrArg BitVec.toNat (packV3_56_8 ..)) ?_
  intro v hv
  have hv : v = packAB 0x42 h d a b 0 false 0 false := hv
  conv => { lhs; whnf }
  simp [-BitVec.getLsbD_eq_getElem, wHead, wD, wSA, wSB, wA, wB, hv, packV3_53_3, packV3_49_4, packV3_41_8, packV3_33_8, packV3_25_8, packV3_15, packV3_14, packAB, src_back]

theorem xorImm (h : Head) (d : BitVec 8) (a : Src) (imm : W32) : Statement (.xorImm h d a imm) := by
  refine of_parse ?_
  refine parse_at (n := 0x43) (congrArg BitVec.toNat (packVI_56_8 ..)) ?_
  intro v hv
  have hv : v = packVI 0x43 h d a.field a.kind imm := hv
  conv => { lhs; whnf }
  simp [-BitVec.getLsbD_eq_getElem, wHead, wD, wVIA, wImm, wA, hv, packVI_53_3, packVI_49_4, packVI_41_8, packVI_0_32, packVI_33_8, packVI_32, src_back]

theorem shl (h : Head) (d : BitVec 8) (a : Src) (b : Src) : Statement (.shl h d a b) := by
  refine of_parse ?_
  refine parse_at (n := 0x44) (congrArg BitVec.toNat (packV3_56_8 ..)) ?_
  intro v hv
  have hv : v = packAB 0x44 h d a b 0 false 0 false := hv
  conv => { lhs; whnf }
  simp [-BitVec.getLsbD_eq_getElem, wHead, wD, wSA, wSB, wA, wB, hv, packV3_53_3, packV3_49_4, packV3_41_8, packV3_33_8, packV3_25_8, packV3_15, packV3_14, packAB, src_back]

theorem shlImm (h : Head) (d : BitVec 8) (a : Src) (imm : W32) : Statement (.shlImm h d a imm) := by
  refine of_parse ?_
  refine parse_at (n := 0x45) (congrArg BitVec.toNat (packVI_56_8 ..)) ?_
  intro v hv
  have hv : v = packVI 0x45 h d a.field a.kind imm := hv
  conv => { lhs; whnf }
  simp [-BitVec.getLsbD_eq_getElem, wHead, wD, wVIA, wImm, wA, hv, packVI_53_3, packVI_49_4, packVI_41_8, packVI_0_32, packVI_33_8, packVI_32, src_back]

theorem shr (h : Head) (d : BitVec 8) (a : Src) (b : Src) : Statement (.shr h d a b) := by
  refine of_parse ?_
  refine parse_at (n := 0x46) (congrArg BitVec.toNat (packV3_56_8 ..)) ?_
  intro v hv
  have hv : v = packAB 0x46 h d a b 0 false 0 false := hv
  conv => { lhs; whnf }
  simp [-BitVec.getLsbD_eq_getElem, wHead, wD, wSA, wSB, wA, wB, hv, packV3_53_3, packV3_49_4, packV3_41_8, packV3_33_8, packV3_25_8, packV3_15, packV3_14, packAB, src_back]

theorem shrImm (h : Head) (d : BitVec 8) (a : Src) (imm : W32) : Statement (.shrImm h d a imm) := by
  refine of_parse ?_
  refine parse_at (n := 0x47) (congrArg BitVec.toNat (packVI_56_8 ..)) ?_
  intro v hv
  have hv : v = packVI 0x47 h d a.field a.kind imm := hv
  conv => { lhs; whnf }
  simp [-BitVec.getLsbD_eq_getElem, wHead, wD, wVIA, wImm, wA, hv, packVI_53_3, packVI_49_4, packVI_41_8, packVI_0_32, packVI_33_8, packVI_32, src_back]

theorem sar (h : Head) (d : BitVec 8) (a : Src) (b : Src) : Statement (.sar h d a b) := by
  refine of_parse ?_
  refine parse_at (n := 0x48) (congrArg BitVec.toNat (packV3_56_8 ..)) ?_
  intro v hv
  have hv : v = packAB 0x48 h d a b 0 false 0 false := hv
  conv => { lhs; whnf }
  simp [-BitVec.getLsbD_eq_getElem, wHead, wD, wSA, wSB, wA, wB, hv, packV3_53_3, packV3_49_4, packV3_41_8, packV3_33_8, packV3_25_8, packV3_15, packV3_14, packAB, src_back]

theorem sarImm (h : Head) (d : BitVec 8) (a : Src) (imm : W32) : Statement (.sarImm h d a imm) := by
  refine of_parse ?_
  refine parse_at (n := 0x49) (congrArg BitVec.toNat (packVI_56_8 ..)) ?_
  intro v hv
  have hv : v = packVI 0x49 h d a.field a.kind imm := hv
  conv => { lhs; whnf }
  simp [-BitVec.getLsbD_eq_getElem, wHead, wD, wVIA, wImm, wA, hv, packVI_53_3, packVI_49_4, packVI_41_8, packVI_0_32, packVI_33_8, packVI_32, src_back]

theorem min (h : Head) (u : Bool) (d : BitVec 8) (a : Src) (b : Src) : Statement (.min h u d a b) := by
  refine of_parse ?_
  refine parse_at (n := 0x4A) (congrArg BitVec.toNat (packV3_56_8 ..)) ?_
  intro v hv
  have hv : v = packAB 0x4A h d a b 0 false (fb u) false := hv
  conv => { lhs; whnf }
  simp [-BitVec.getLsbD_eq_getElem, wHead, wD, wSA, wSB, wA, wB, hv, packV3_53_3, packV3_49_4, packV3_41_8, packV3_33_8, packV3_25_8, packV3_1, packV3_15, packV3_14, packAB, fb, src_back, bit_if8]

theorem max (h : Head) (u : Bool) (d : BitVec 8) (a : Src) (b : Src) : Statement (.max h u d a b) := by
  refine of_parse ?_
  refine parse_at (n := 0x4B) (congrArg BitVec.toNat (packV3_56_8 ..)) ?_
  intro v hv
  have hv : v = packAB 0x4B h d a b 0 false (fb u) false := hv
  conv => { lhs; whnf }
  simp [-BitVec.getLsbD_eq_getElem, wHead, wD, wSA, wSB, wA, wB, hv, packV3_53_3, packV3_49_4, packV3_41_8, packV3_33_8, packV3_25_8, packV3_1, packV3_15, packV3_14, packAB, fb, src_back, bit_if8]

theorem sel (h : Head) (d : BitVec 8) (a : Src) (b : Src) (pc : BitVec 3) : Statement (.sel h d a b pc) := by
  refine of_parse ?_
  refine parse_at (n := 0x4C) (congrArg BitVec.toNat (packV3_56_8 ..)) ?_
  intro v hv
  have hv : v = packV3 0x4C h d a.field b.field (p8 pc) false a.kind b.kind false 0 false 0 false := hv
  conv => { lhs; whnf }
  simp [-BitVec.getLsbD_eq_getElem, wHead, wD, wSA, wSB, wP, wC, wA, wB, hv, packV3_53_3, packV3_49_4, packV3_41_8, packV3_17_8, packV3_33_8, packV3_25_8, packV3_15, packV3_14, p8, src_back]

theorem popc (h : Head) (d : BitVec 8) (a : Src) : Statement (.popc h d a) := by
  refine of_parse ?_
  refine parse_at (n := 0x4D) (congrArg BitVec.toNat (packV3_56_8 ..)) ?_
  intro v hv
  have hv : v = packA 0x4D h d a 0 0 false := hv
  conv => { lhs; whnf }
  simp [-BitVec.getLsbD_eq_getElem, wHead, wD, wSA, wA, hv, packV3_53_3, packV3_49_4, packV3_41_8, packV3_33_8, packV3_15, packA, src_back]

theorem clz (h : Head) (d : BitVec 8) (a : Src) : Statement (.clz h d a) := by
  refine of_parse ?_
  refine parse_at (n := 0x4E) (congrArg BitVec.toNat (packV3_56_8 ..)) ?_
  intro v hv
  have hv : v = packA 0x4E h d a 0 0 false := hv
  conv => { lhs; whnf }
  simp [-BitVec.getLsbD_eq_getElem, wHead, wD, wSA, wA, hv, packV3_53_3, packV3_49_4, packV3_41_8, packV3_33_8, packV3_15, packA, src_back]

theorem brev (h : Head) (d : BitVec 8) (a : Src) : Statement (.brev h d a) := by
  refine of_parse ?_
  refine parse_at (n := 0x4F) (congrArg BitVec.toNat (packV3_56_8 ..)) ?_
  intro v hv
  have hv : v = packA 0x4F h d a 0 0 false := hv
  conv => { lhs; whnf }
  simp [-BitVec.getLsbD_eq_getElem, wHead, wD, wSA, wA, hv, packV3_53_3, packV3_49_4, packV3_41_8, packV3_33_8, packV3_15, packA, src_back]

theorem fadd (h : Head) (rnd : Rnd) (sat : Bool) (d : BitVec 8) (a : Src) (b : Src) : Statement (.fadd h rnd sat d a b) := by
  refine of_parse ?_
  refine parse_at (n := 0x50) (congrArg BitVec.toNat (packV3_56_8 ..)) ?_
  intro v hv
  have hv : v = packAB 0x50 h d a b rnd.code sat 0 false := hv
  conv => { lhs; whnf }
  simp [-BitVec.getLsbD_eq_getElem, wHead, wRnd, wSat, wD, wSA, wSB, wA, wB, hv, packV3_53_3, packV3_49_4, packV3_10_3, packV3_41_8, packV3_33_8, packV3_25_8, packV3_9, packV3_15, packV3_14, packAB, src_back, rnd_back]

theorem fsub (h : Head) (rnd : Rnd) (sat : Bool) (d : BitVec 8) (a : Src) (b : Src) : Statement (.fsub h rnd sat d a b) := by
  refine of_parse ?_
  refine parse_at (n := 0x51) (congrArg BitVec.toNat (packV3_56_8 ..)) ?_
  intro v hv
  have hv : v = packAB 0x51 h d a b rnd.code sat 0 false := hv
  conv => { lhs; whnf }
  simp [-BitVec.getLsbD_eq_getElem, wHead, wRnd, wSat, wD, wSA, wSB, wA, wB, hv, packV3_53_3, packV3_49_4, packV3_10_3, packV3_41_8, packV3_33_8, packV3_25_8, packV3_9, packV3_15, packV3_14, packAB, src_back, rnd_back]

theorem fmul (h : Head) (rnd : Rnd) (sat : Bool) (d : BitVec 8) (a : Src) (b : Src) : Statement (.fmul h rnd sat d a b) := by
  refine of_parse ?_
  refine parse_at (n := 0x52) (congrArg BitVec.toNat (packV3_56_8 ..)) ?_
  intro v hv
  have hv : v = packAB 0x52 h d a b rnd.code sat 0 false := hv
  conv => { lhs; whnf }
  simp [-BitVec.getLsbD_eq_getElem, wHead, wRnd, wSat, wD, wSA, wSB, wA, wB, hv, packV3_53_3, packV3_49_4, packV3_10_3, packV3_41_8, packV3_33_8, packV3_25_8, packV3_9, packV3_15, packV3_14, packAB, src_back, rnd_back]

theorem ffma (h : Head) (rnd : Rnd) (sat : Bool) (d : BitVec 8) (a : Src) (b : Src) (c : Src) : Statement (.ffma h rnd sat d a b c) := by
  refine of_parse ?_
  refine parse_at (n := 0x53) (congrArg BitVec.toNat (packV3_56_8 ..)) ?_
  intro v hv
  have hv : v = packABC 0x53 h d a b c rnd.code sat 0 := hv
  conv => { lhs; whnf }
  simp [-BitVec.getLsbD_eq_getElem, wHead, wRnd, wSat, wD, wSA, wSB, wSC, wA, wB, wC, hv, packV3_53_3, packV3_49_4, packV3_10_3, packV3_41_8, packV3_33_8, packV3_25_8, packV3_17_8, packV3_9, packV3_15, packV3_14, packV3_13, packABC, src_back, rnd_back]

theorem fmin (h : Head) (d : BitVec 8) (a : Src) (b : Src) : Statement (.fmin h d a b) := by
  refine of_parse ?_
  refine parse_at (n := 0x54) (congrArg BitVec.toNat (packV3_56_8 ..)) ?_
  intro v hv
  have hv : v = packAB 0x54 h d a b 0 false 0 false := hv
  conv => { lhs; whnf }
  simp [-BitVec.getLsbD_eq_getElem, wHead, wD, wSA, wSB, wA, wB, hv, packV3_53_3, packV3_49_4, packV3_41_8, packV3_33_8, packV3_25_8, packV3_15, packV3_14, packAB, src_back]

theorem fmax (h : Head) (d : BitVec 8) (a : Src) (b : Src) : Statement (.fmax h d a b) := by
  refine of_parse ?_
  refine parse_at (n := 0x55) (congrArg BitVec.toNat (packV3_56_8 ..)) ?_
  intro v hv
  have hv : v = packAB 0x55 h d a b 0 false 0 false := hv
  conv => { lhs; whnf }
  simp [-BitVec.getLsbD_eq_getElem, wHead, wD, wSA, wSB, wA, wB, hv, packV3_53_3, packV3_49_4, packV3_41_8, packV3_33_8, packV3_25_8, packV3_15, packV3_14, packAB, src_back]

theorem faddF64 (h : Head) (rnd : Rnd) (sat : Bool) (d : BitVec 8) (a : Src) (b : Src) : Statement (.faddF64 h rnd sat d a b) := by
  refine of_parse ?_
  refine parse_at (n := 0x60) (congrArg BitVec.toNat (packV3_56_8 ..)) ?_
  intro v hv
  have hv : v = packAB 0x60 h d a b rnd.code sat 0 false := hv
  conv => { lhs; whnf }
  simp [-BitVec.getLsbD_eq_getElem, wHead, wRnd, wSat, wD, wSA, wSB, wA, wB, hv, packV3_53_3, packV3_49_4, packV3_10_3, packV3_41_8, packV3_33_8, packV3_25_8, packV3_9, packV3_15, packV3_14, packAB, src_back, rnd_back]

theorem fsubF64 (h : Head) (rnd : Rnd) (sat : Bool) (d : BitVec 8) (a : Src) (b : Src) : Statement (.fsubF64 h rnd sat d a b) := by
  refine of_parse ?_
  refine parse_at (n := 0x61) (congrArg BitVec.toNat (packV3_56_8 ..)) ?_
  intro v hv
  have hv : v = packAB 0x61 h d a b rnd.code sat 0 false := hv
  conv => { lhs; whnf }
  simp [-BitVec.getLsbD_eq_getElem, wHead, wRnd, wSat, wD, wSA, wSB, wA, wB, hv, packV3_53_3, packV3_49_4, packV3_10_3, packV3_41_8, packV3_33_8, packV3_25_8, packV3_9, packV3_15, packV3_14, packAB, src_back, rnd_back]

theorem fmulF64 (h : Head) (rnd : Rnd) (sat : Bool) (d : BitVec 8) (a : Src) (b : Src) : Statement (.fmulF64 h rnd sat d a b) := by
  refine of_parse ?_
  refine parse_at (n := 0x62) (congrArg BitVec.toNat (packV3_56_8 ..)) ?_
  intro v hv
  have hv : v = packAB 0x62 h d a b rnd.code sat 0 false := hv
  conv => { lhs; whnf }
  simp [-BitVec.getLsbD_eq_getElem, wHead, wRnd, wSat, wD, wSA, wSB, wA, wB, hv, packV3_53_3, packV3_49_4, packV3_10_3, packV3_41_8, packV3_33_8, packV3_25_8, packV3_9, packV3_15, packV3_14, packAB, src_back, rnd_back]

theorem ffmaF64 (h : Head) (rnd : Rnd) (sat : Bool) (d : BitVec 8) (a : Src) (b : Src) (c : Src) : Statement (.ffmaF64 h rnd sat d a b c) := by
  refine of_parse ?_
  refine parse_at (n := 0x63) (congrArg BitVec.toNat (packV3_56_8 ..)) ?_
  intro v hv
  have hv : v = packABC 0x63 h d a b c rnd.code sat 0 := hv
  conv => { lhs; whnf }
  simp [-BitVec.getLsbD_eq_getElem, wHead, wRnd, wSat, wD, wSA, wSB, wSC, wA, wB, wC, hv, packV3_53_3, packV3_49_4, packV3_10_3, packV3_41_8, packV3_33_8, packV3_25_8, packV3_17_8, packV3_9, packV3_15, packV3_14, packV3_13, packABC, src_back, rnd_back]

theorem fminF64 (h : Head) (d : BitVec 8) (a : Src) (b : Src) : Statement (.fminF64 h d a b) := by
  refine of_parse ?_
  refine parse_at (n := 0x64) (congrArg BitVec.toNat (packV3_56_8 ..)) ?_
  intro v hv
  have hv : v = packAB 0x64 h d a b 0 false 0 false := hv
  conv => { lhs; whnf }
  simp [-BitVec.getLsbD_eq_getElem, wHead, wD, wSA, wSB, wA, wB, hv, packV3_53_3, packV3_49_4, packV3_41_8, packV3_33_8, packV3_25_8, packV3_15, packV3_14, packAB, src_back]

theorem fmaxF64 (h : Head) (d : BitVec 8) (a : Src) (b : Src) : Statement (.fmaxF64 h d a b) := by
  refine of_parse ?_
  refine parse_at (n := 0x65) (congrArg BitVec.toNat (packV3_56_8 ..)) ?_
  intro v hv
  have hv : v = packAB 0x65 h d a b 0 false 0 false := hv
  conv => { lhs; whnf }
  simp [-BitVec.getLsbD_eq_getElem, wHead, wD, wSA, wSB, wA, wB, hv, packV3_53_3, packV3_49_4, packV3_41_8, packV3_33_8, packV3_25_8, packV3_15, packV3_14, packAB, src_back]

theorem hadd2 (h : Head) (bf : Bool) (rnd : Rnd) (sat : Bool) (d : BitVec 8) (a : Src) (b : Src) : Statement (.hadd2 h bf rnd sat d a b) := by
  refine of_parse ?_
  refine parse_at (n := 0x68) (congrArg BitVec.toNat (packV3_56_8 ..)) ?_
  intro v hv
  have hv : v = packAB 0x68 h d a b rnd.code sat (fb bf) false := hv
  conv => { lhs; whnf }
  simp [-BitVec.getLsbD_eq_getElem, wHead, wRnd, wSat, wD, wSA, wSB, wA, wB, hv, packV3_53_3, packV3_49_4, packV3_10_3, packV3_41_8, packV3_33_8, packV3_25_8, packV3_1, packV3_9, packV3_15, packV3_14, packAB, fb, src_back, rnd_back, bit_if8]

theorem hsub2 (h : Head) (bf : Bool) (rnd : Rnd) (sat : Bool) (d : BitVec 8) (a : Src) (b : Src) : Statement (.hsub2 h bf rnd sat d a b) := by
  refine of_parse ?_
  refine parse_at (n := 0x69) (congrArg BitVec.toNat (packV3_56_8 ..)) ?_
  intro v hv
  have hv : v = packAB 0x69 h d a b rnd.code sat (fb bf) false := hv
  conv => { lhs; whnf }
  simp [-BitVec.getLsbD_eq_getElem, wHead, wRnd, wSat, wD, wSA, wSB, wA, wB, hv, packV3_53_3, packV3_49_4, packV3_10_3, packV3_41_8, packV3_33_8, packV3_25_8, packV3_1, packV3_9, packV3_15, packV3_14, packAB, fb, src_back, rnd_back, bit_if8]

theorem hmul2 (h : Head) (bf : Bool) (rnd : Rnd) (sat : Bool) (d : BitVec 8) (a : Src) (b : Src) : Statement (.hmul2 h bf rnd sat d a b) := by
  refine of_parse ?_
  refine parse_at (n := 0x6A) (congrArg BitVec.toNat (packV3_56_8 ..)) ?_
  intro v hv
  have hv : v = packAB 0x6A h d a b rnd.code sat (fb bf) false := hv
  conv => { lhs; whnf }
  simp [-BitVec.getLsbD_eq_getElem, wHead, wRnd, wSat, wD, wSA, wSB, wA, wB, hv, packV3_53_3, packV3_49_4, packV3_10_3, packV3_41_8, packV3_33_8, packV3_25_8, packV3_1, packV3_9, packV3_15, packV3_14, packAB, fb, src_back, rnd_back, bit_if8]

theorem hfma2 (h : Head) (bf : Bool) (rnd : Rnd) (sat : Bool) (d : BitVec 8) (a : Src) (b : Src) (c : Src) : Statement (.hfma2 h bf rnd sat d a b c) := by
  refine of_parse ?_
  refine parse_at (n := 0x6B) (congrArg BitVec.toNat (packV3_56_8 ..)) ?_
  intro v hv
  have hv : v = packABC 0x6B h d a b c rnd.code sat (fb bf) := hv
  conv => { lhs; whnf }
  simp [-BitVec.getLsbD_eq_getElem, wHead, wRnd, wSat, wD, wSA, wSB, wSC, wA, wB, wC, hv, packV3_53_3, packV3_49_4, packV3_10_3, packV3_41_8, packV3_33_8, packV3_25_8, packV3_17_8, packV3_1, packV3_9, packV3_15, packV3_14, packV3_13, packABC, fb, src_back, rnd_back, bit_if8]

theorem hmin2 (h : Head) (bf : Bool) (d : BitVec 8) (a : Src) (b : Src) : Statement (.hmin2 h bf d a b) := by
  refine of_parse ?_
  refine parse_at (n := 0x6C) (congrArg BitVec.toNat (packV3_56_8 ..)) ?_
  intro v hv
  have hv : v = packAB 0x6C h d a b 0 false (fb bf) false := hv
  conv => { lhs; whnf }
  simp [-BitVec.getLsbD_eq_getElem, wHead, wD, wSA, wSB, wA, wB, hv, packV3_53_3, packV3_49_4, packV3_41_8, packV3_33_8, packV3_25_8, packV3_1, packV3_15, packV3_14, packAB, fb, src_back, bit_if8]

theorem hmax2 (h : Head) (bf : Bool) (d : BitVec 8) (a : Src) (b : Src) : Statement (.hmax2 h bf d a b) := by
  refine of_parse ?_
  refine parse_at (n := 0x6D) (congrArg BitVec.toNat (packV3_56_8 ..)) ?_
  intro v hv
  have hv : v = packAB 0x6D h d a b 0 false (fb bf) false := hv
  conv => { lhs; whnf }
  simp [-BitVec.getLsbD_eq_getElem, wHead, wD, wSA, wSB, wA, wB, hv, packV3_53_3, packV3_49_4, packV3_41_8, packV3_33_8, packV3_25_8, packV3_1, packV3_15, packV3_14, packAB, fb, src_back, bit_if8]

theorem rcp (h : Head) (f : Bool) (d : BitVec 8) (a : Src) : Statement (.rcp h f d a) := by
  refine of_parse ?_
  refine parse_at (n := 0x70) (congrArg BitVec.toNat (packV3_56_8 ..)) ?_
  intro v hv
  have hv : v = packA 0x70 h d a 0 0 f := hv
  conv => { lhs; whnf }
  simp [-BitVec.getLsbD_eq_getElem, wHead, wF0, wD, wSA, wA, hv, packV3_53_3, packV3_49_4, packV3_41_8, packV3_33_8, packV3_0, packV3_15, packA, src_back]

theorem rsqrt (h : Head) (f : Bool) (d : BitVec 8) (a : Src) : Statement (.rsqrt h f d a) := by
  refine of_parse ?_
  refine parse_at (n := 0x71) (congrArg BitVec.toNat (packV3_56_8 ..)) ?_
  intro v hv
  have hv : v = packA 0x71 h d a 0 0 f := hv
  conv => { lhs; whnf }
  simp [-BitVec.getLsbD_eq_getElem, wHead, wF0, wD, wSA, wA, hv, packV3_53_3, packV3_49_4, packV3_41_8, packV3_33_8, packV3_0, packV3_15, packA, src_back]

theorem sqrt (h : Head) (f : Bool) (d : BitVec 8) (a : Src) : Statement (.sqrt h f d a) := by
  refine of_parse ?_
  refine parse_at (n := 0x72) (congrArg BitVec.toNat (packV3_56_8 ..)) ?_
  intro v hv
  have hv : v = packA 0x72 h d a 0 0 f := hv
  conv => { lhs; whnf }
  simp [-BitVec.getLsbD_eq_getElem, wHead, wF0, wD, wSA, wA, hv, packV3_53_3, packV3_49_4, packV3_41_8, packV3_33_8, packV3_0, packV3_15, packA, src_back]

theorem ex2 (h : Head) (f : Bool) (d : BitVec 8) (a : Src) : Statement (.ex2 h f d a) := by
  refine of_parse ?_
  refine parse_at (n := 0x73) (congrArg BitVec.toNat (packV3_56_8 ..)) ?_
  intro v hv
  have hv : v = packA 0x73 h d a 0 0 f := hv
  conv => { lhs; whnf }
  simp [-BitVec.getLsbD_eq_getElem, wHead, wF0, wD, wSA, wA, hv, packV3_53_3, packV3_49_4, packV3_41_8, packV3_33_8, packV3_0, packV3_15, packA, src_back]

theorem lg2 (h : Head) (f : Bool) (d : BitVec 8) (a : Src) : Statement (.lg2 h f d a) := by
  refine of_parse ?_
  refine parse_at (n := 0x74) (congrArg BitVec.toNat (packV3_56_8 ..)) ?_
  intro v hv
  have hv : v = packA 0x74 h d a 0 0 f := hv
  conv => { lhs; whnf }
  simp [-BitVec.getLsbD_eq_getElem, wHead, wF0, wD, wSA, wA, hv, packV3_53_3, packV3_49_4, packV3_41_8, packV3_33_8, packV3_0, packV3_15, packA, src_back]

theorem sin (h : Head) (f : Bool) (d : BitVec 8) (a : Src) : Statement (.sin h f d a) := by
  refine of_parse ?_
  refine parse_at (n := 0x75) (congrArg BitVec.toNat (packV3_56_8 ..)) ?_
  intro v hv
  have hv : v = packA 0x75 h d a 0 0 f := hv
  conv => { lhs; whnf }
  simp [-BitVec.getLsbD_eq_getElem, wHead, wF0, wD, wSA, wA, hv, packV3_53_3, packV3_49_4, packV3_41_8, packV3_33_8, packV3_0, packV3_15, packA, src_back]

theorem cos (h : Head) (f : Bool) (d : BitVec 8) (a : Src) : Statement (.cos h f d a) := by
  refine of_parse ?_
  refine parse_at (n := 0x76) (congrArg BitVec.toNat (packV3_56_8 ..)) ?_
  intro v hv
  have hv : v = packA 0x76 h d a 0 0 f := hv
  conv => { lhs; whnf }
  simp [-BitVec.getLsbD_eq_getElem, wHead, wF0, wD, wSA, wA, hv, packV3_53_3, packV3_49_4, packV3_41_8, packV3_33_8, packV3_0, packV3_15, packA, src_back]

theorem frnd (h : Head) (f : Bool) (rnd : Rnd) (d : BitVec 8) (a : Src) : Statement (.frnd h f rnd d a) := by
  refine of_parse ?_
  refine parse_at (n := 0x7B) (congrArg BitVec.toNat (packV3_56_8 ..)) ?_
  intro v hv
  have hv : v = packA 0x7B h d a rnd.code 0 f := hv
  conv => { lhs; whnf }
  simp [-BitVec.getLsbD_eq_getElem, wHead, wF0, wRnd, wD, wSA, wA, hv, packV3_53_3, packV3_49_4, packV3_10_3, packV3_41_8, packV3_33_8, packV3_0, packV3_15, packA, src_back, rnd_back]

theorem cvt (h : Head) (f : Bool) (rnd : Rnd) (sat : Bool) (dt : TypeCode) (st : TypeCode) (fs : BitVec 3) (d : BitVec 8) (a : Src) : Statement (.cvt h f rnd sat dt st fs d a) := by
  refine of_parse ?_
  refine parse_at (n := 0x78) (congrArg BitVec.toNat (packV3_56_8 ..)) ?_
  intro v hv
  have hv : v = packV3 0x78 h d a.field 0 (p8 fs) false a.kind false false rnd.code sat (dt.code ++ st.code) f := hv
  conv => { lhs; whnf }
  simp [-BitVec.getLsbD_eq_getElem, wSub, wHead, wF0, wRnd, wSat, wP, wC, wD, wSA, wA, hv, packV3_53_3, packV3_49_4, packV3_1_8, packV3_10_3, packV3_17_8, packV3_41_8, packV3_33_8, packV3_0, packV3_9, packV3_15, p8, src_back, rnd_back, typecode_back, take_hi4, take_lo4]

theorem pack4 (h : Head) (f : Bool) (d : BitVec 8) (a : Src) (fs : BitVec 3) : Statement (.pack4 h f d a fs) := by
  refine of_parse ?_
  refine parse_at (n := 0x79) (congrArg BitVec.toNat (packV3_56_8 ..)) ?_
  intro v hv
  have hv : v = packV3 0x79 h d a.field 0 (p8 fs) false a.kind false false 0 false 0 f := hv
  conv => { lhs; whnf }
  simp [-BitVec.getLsbD_eq_getElem, wHead, wF0, wD, wSA, wP, wC, wA, hv, packV3_53_3, packV3_49_4, packV3_41_8, packV3_17_8, packV3_33_8, packV3_0, packV3_15, p8, src_back]

theorem unpack4 (h : Head) (f : Bool) (d : BitVec 8) (a : Src) (fs : BitVec 3) : Statement (.unpack4 h f d a fs) := by
  refine of_parse ?_
  refine parse_at (n := 0x7A) (congrArg BitVec.toNat (packV3_56_8 ..)) ?_
  intro v hv
  have hv : v = packV3 0x7A h d a.field 0 (p8 fs) false a.kind false false 0 false 0 f := hv
  conv => { lhs; whnf }
  simp [-BitVec.getLsbD_eq_getElem, wHead, wF0, wD, wSA, wP, wC, wA, hv, packV3_53_3, packV3_49_4, packV3_41_8, packV3_17_8, packV3_33_8, packV3_0, packV3_15, p8, src_back]

theorem icmp (h : Head) (cc : Cmp) (pd : BitVec 3) (a : Src) (b : Src) : Statement (.icmp h cc pd a b) := by
  refine of_parse ?_
  refine parse_at (n := 0x80) (congrArg BitVec.toNat (packV3_56_8 ..)) ?_
  intro v hv
  have hv : v = packAB 0x80 h (p8 pd) a b 0 false (cc.code.setWidth 8) false := hv
  conv => { lhs; whnf }
  simp [-BitVec.getLsbD_eq_getElem, wHead, wCc, wP, wD, wSA, wSB, wSub, wA, wB, hv, packV3_53_3, packV3_49_4, packV3_41_8, packV3_1_8, packV3_33_8, packV3_25_8, packV3_15, packV3_14, packAB, p8, src_back, cmp_back, take_setWidth]

theorem icmpImm (h : Head) (cc : Cmp) (pd : BitVec 3) (a : Src) (imm : W32) : Statement (.icmpImm h cc pd a imm) := by
  refine of_parse ?_
  refine parse_at (n := 0x81) (congrArg BitVec.toNat (packVI_56_8 ..)) ?_
  intro v hv
  have hv : v = packVI 0x81 h (cc.code ++ 0#1 ++ pd) a.field a.kind imm := hv
  conv => { lhs; whnf }
  simp [-BitVec.getLsbD_eq_getElem, wHead, wD, wP, wVIA, wImm, wA, hv, packVI_53_3, packVI_49_4, packVI_41_8, packVI_0_32, packVI_33_8, packVI_32, src_back, cmp_back, take_cc4, take_pd]

theorem fcmp (h : Head) (cc : Cmp) (pd : BitVec 3) (a : Src) (b : Src) : Statement (.fcmp h cc pd a b) := by
  refine of_parse ?_
  refine parse_at (n := 0x82) (congrArg BitVec.toNat (packV3_56_8 ..)) ?_
  intro v hv
  have hv : v = packAB 0x82 h (p8 pd) a b 0 false (cc.code.setWidth 8) false := hv
  conv => { lhs; whnf }
  simp [-BitVec.getLsbD_eq_getElem, wHead, wCc, wP, wD, wSA, wSB, wSub, wA, wB, hv, packV3_53_3, packV3_49_4, packV3_41_8, packV3_1_8, packV3_33_8, packV3_25_8, packV3_15, packV3_14, packAB, p8, src_back, cmp_back, take_setWidth]

theorem fcmpF64 (h : Head) (cc : Cmp) (pd : BitVec 3) (a : Src) (b : Src) : Statement (.fcmpF64 h cc pd a b) := by
  refine of_parse ?_
  refine parse_at (n := 0x83) (congrArg BitVec.toNat (packV3_56_8 ..)) ?_
  intro v hv
  have hv : v = packAB 0x83 h (p8 pd) a b 0 false (cc.code.setWidth 8) false := hv
  conv => { lhs; whnf }
  simp [-BitVec.getLsbD_eq_getElem, wHead, wCc, wP, wD, wSA, wSB, wSub, wA, wB, hv, packV3_53_3, packV3_49_4, packV3_41_8, packV3_1_8, packV3_33_8, packV3_25_8, packV3_15, packV3_14, packAB, p8, src_back, cmp_back, take_setWidth]

theorem pcomb (h : Head) (op : PredOp) (pd : BitVec 3) (pa : BitVec 3) (pb : BitVec 3) : Statement (.pcomb h op pd pa pb) := by
  refine of_parse ?_
  refine parse_at (n := 0x84) (congrArg BitVec.toNat (packV3_56_8 ..)) ?_
  intro v hv
  have hv : v = packV3 0x84 h (p8 pd) (p8 pa) (p8 pb) 0 false false false false 0 false (op.code.setWidth 8) false := hv
  conv => { lhs; whnf }
  simp [wHead, wSub, wP, wD, wA, wB, hv, packV3_53_3, packV3_49_4, packV3_1_8, packV3_41_8, packV3_33_8, packV3_25_8, p8, predop_back, take_setWidth]

theorem shflXor (h : Head) (f : Bool) (d : BitVec 8) (a : BitVec 8) (n : BitVec 5) : Statement (.shflXor h f d a n) := by
  refine of_parse ?_
  refine parse_at (n := 0x90) (congrArg BitVec.toNat (packV3_56_8 ..)) ?_
  intro v hv
  have hv : v = packV3 0x90 h d a 0 0 false false false false 0 false (n.setWidth 8) f := hv
  conv => { lhs; whnf }
  simp [-BitVec.getLsbD_eq_getElem, wHead, wF0, wD, wA, wN5, wSub, hv, packV3_53_3, packV3_49_4, packV3_41_8, packV3_33_8, packV3_1_8, packV3_0, take_setWidth]

theorem shflUp (h : Head) (f : Bool) (d : BitVec 8) (a : BitVec 8) (n : BitVec 5) : Statement (.shflUp h f d a n) := by
  refine of_parse ?_
  refine parse_at (n := 0x91) (congrArg BitVec.toNat (packV3_56_8 ..)) ?_
  intro v hv
  have hv : v = packV3 0x91 h d a 0 0 false false false false 0 false (n.setWidth 8) f := hv
  conv => { lhs; whnf }
  simp [-BitVec.getLsbD_eq_getElem, wHead, wF0, wD, wA, wN5, wSub, hv, packV3_53_3, packV3_49_4, packV3_41_8, packV3_33_8, packV3_1_8, packV3_0, take_setWidth]

theorem shflDown (h : Head) (f : Bool) (d : BitVec 8) (a : BitVec 8) (n : BitVec 5) : Statement (.shflDown h f d a n) := by
  refine of_parse ?_
  refine parse_at (n := 0x92) (congrArg BitVec.toNat (packV3_56_8 ..)) ?_
  intro v hv
  have hv : v = packV3 0x92 h d a 0 0 false false false false 0 false (n.setWidth 8) f := hv
  conv => { lhs; whnf }
  simp [-BitVec.getLsbD_eq_getElem, wHead, wF0, wD, wA, wN5, wSub, hv, packV3_53_3, packV3_49_4, packV3_41_8, packV3_33_8, packV3_1_8, packV3_0, take_setWidth]

theorem shflIdx (h : Head) (f : Bool) (d : BitVec 8) (a : BitVec 8) (n : BitVec 5) : Statement (.shflIdx h f d a n) := by
  refine of_parse ?_
  refine parse_at (n := 0x93) (congrArg BitVec.toNat (packV3_56_8 ..)) ?_
  intro v hv
  have hv : v = packV3 0x93 h d a 0 0 false false false false 0 false (n.setWidth 8) f := hv
  conv => { lhs; whnf }
  simp [-BitVec.getLsbD_eq_getElem, wHead, wF0, wD, wA, wN5, wSub, hv, packV3_53_3, packV3_49_4, packV3_41_8, packV3_33_8, packV3_1_8, packV3_0, take_setWidth]

theorem shflIdxReg (h : Head) (f : Bool) (d : BitVec 8) (a : BitVec 8) (b : BitVec 8) : Statement (.shflIdxReg h f d a b) := by
  refine of_parse ?_
  refine parse_at (n := 0x94) (congrArg BitVec.toNat (packV3_56_8 ..)) ?_
  intro v hv
  have hv : v = packV3 0x94 h d a b 0 false false false false 0 false 0 f := hv
  conv => { lhs; whnf }
  simp [-BitVec.getLsbD_eq_getElem, wHead, wF0, wD, wA, wB, hv, packV3_53_3, packV3_49_4, packV3_41_8, packV3_33_8, packV3_25_8, packV3_0]

theorem voteAll (h : Head) (f : Bool) (pd : BitVec 3) (pa : BitVec 3) : Statement (.voteAll h f pd pa) := by
  refine of_parse ?_
  refine parse_at (n := 0x95) (congrArg BitVec.toNat (packV3_56_8 ..)) ?_
  intro v hv
  have hv : v = packV3 0x95 h (p8 pd) (p8 pa) 0 0 false false false false 0 false 0 f := hv
  conv => { lhs; whnf }
  simp [-BitVec.getLsbD_eq_getElem, wSub, wHead, wF0, wP, wD, wA, wS6, hv, packV3_53_3, packV3_49_4, packV3_1_8, packV3_41_8, packV3_33_8, packV3_0, p8]

theorem voteAny (h : Head) (f : Bool) (pd : BitVec 3) (pa : BitVec 3) : Statement (.voteAny h f pd pa) := by
  refine of_parse ?_
  refine parse_at (n := 0x95) (congrArg BitVec.toNat (packV3_56_8 ..)) ?_
  intro v hv
  have hv : v = packV3 0x95 h (p8 pd) (p8 pa) 0 0 false false false false 0 false 1 f := hv
  conv => { lhs; whnf }
  simp [-BitVec.getLsbD_eq_getElem, wSub, wHead, wF0, wP, wD, wA, wS6, hv, packV3_53_3, packV3_49_4, packV3_1_8, packV3_41_8, packV3_33_8, packV3_0, p8]

theorem voteBallot (h : Head) (f : Bool) (sd : BitVec 6) (pa : BitVec 3) : Statement (.voteBallot h f sd pa) := by
  refine of_parse ?_
  refine parse_at (n := 0x95) (congrArg BitVec.toNat (packV3_56_8 ..)) ?_
  intro v hv
  have hv : v = packV3 0x95 h (s8 sd) (p8 pa) 0 0 true false false false 0 false 2 f := hv
  conv => { lhs; whnf }
  simp [-BitVec.getLsbD_eq_getElem, wSub, wHead, wF0, wP, wD, wA, wS6, hv, packV3_53_3, packV3_49_4, packV3_1_8, packV3_41_8, packV3_33_8, packV3_0, p8, s8]

theorem scan (h : Head) (f : Bool) (op : FoldOp) (incl : Bool) (d : BitVec 8) (a : BitVec 8) : Statement (.scan h f op incl d a) := by
  refine of_parse ?_
  refine parse_at (n := 0x96) (congrArg BitVec.toNat (packV3_56_8 ..)) ?_
  intro v hv
  have hv : v = packV3 0x96 h d a 0 0 false false false false 0 false (foldSub op incl) f := hv
  conv => { lhs; whnf }
  simp [-BitVec.getLsbD_eq_getElem, wHead, wF0, wFold, wSub, wD, wA, hv, packV3_53_3, packV3_49_4, packV3_1_8, packV3_41_8, packV3_33_8, packV3_0, foldSub, fold_u, fold_i, fold_c, foldop_back]

theorem redux (h : Head) (f : Bool) (op : FoldOp) (sd : BitVec 6) (a : BitVec 8) : Statement (.redux h f op sd a) := by
  refine of_parse ?_
  refine parse_at (n := 0x97) (congrArg BitVec.toNat (packV3_56_8 ..)) ?_
  intro v hv
  have hv : v = packV3 0x97 h (s8 sd) a 0 0 true false false false 0 false (foldSub op false) f := hv
  conv => { lhs; whnf }
  simp [-BitVec.getLsbD_eq_getElem, wHead, wF0, wFold, wS6, wD, wA, wSub, hv, packV3_53_3, packV3_49_4, packV3_41_8, packV3_33_8, packV3_1_8, packV3_0, s8, foldSub, fold_u, fold_i, fold_c, foldop_back]

theorem ld (h : Head) (f : Bool) (w : Width) (sc : Scope) (d : BitVec 8) (m : MemOp) : Statement (.ld h f w sc d m) := by
  refine of_parse ?_
  refine parse_at (n := 0xA0) (congrArg BitVec.toNat (packM_56_8 ..)) ?_
  intro v hv
  have hv : v = packMem 0xA0 h f w sc d m := hv
  conv => { lhs; whnf }
  simp [-BitVec.getLsbD_eq_getElem, wHead, wFm, wWidth, wScope, wD, wMem, wBase, wOff, hv, packM_53_3, packM_49_4, packM_16_3, packM_21_3, packM_41_8, packM_27_8, packM_24_3, packM_35_6, packM_0_16, packM_20, packMem, scope_back, width_back, scl_back]

theorem ldScr (h : Head) (f : Bool) (w : Width) (sc : Scope) (d : BitVec 8) (m : MemOp) : Statement (.ldScr h f w sc d m) := by
  refine of_parse ?_
  refine parse_at (n := 0xA1) (congrArg BitVec.toNat (packM_56_8 ..)) ?_
  intro v hv
  have hv : v = packMem 0xA1 h f w sc d m := hv
  conv => { lhs; whnf }
  simp [-BitVec.getLsbD_eq_getElem, wHead, wFm, wWidth, wScope, wD, wMem, wBase, wOff, hv, packM_53_3, packM_49_4, packM_16_3, packM_21_3, packM_41_8, packM_27_8, packM_24_3, packM_35_6, packM_0_16, packM_20, packMem, scope_back, width_back, scl_back]

theorem ldCon (h : Head) (f : Bool) (w : Width) (d : BitVec 8) (m : MemOp) : Statement (.ldCon h f w d m) := by
  refine of_parse ?_
  refine parse_at (n := 0xA2) (congrArg BitVec.toNat (packM_56_8 ..)) ?_
  intro v hv
  have hv : v = packMem 0xA2 h f w .th d m := hv
  conv => { lhs; whnf }
  simp [-BitVec.getLsbD_eq_getElem, wHead, wFm, wWidth, wD, wMem, wBase, wOff, hv, packM_53_3, packM_49_4, packM_16_3, packM_41_8, packM_27_8, packM_24_3, packM_35_6, packM_0_16, packM_20, packMem, width_back, scl_back]

theorem ldPrv (h : Head) (f : Bool) (w : Width) (d : BitVec 8) (m : MemOp) : Statement (.ldPrv h f w d m) := by
  refine of_parse ?_
  refine parse_at (n := 0xA3) (congrArg BitVec.toNat (packM_56_8 ..)) ?_
  intro v hv
  have hv : v = packMem 0xA3 h f w .th d m := hv
  conv => { lhs; whnf }
  simp [-BitVec.getLsbD_eq_getElem, wHead, wFm, wWidth, wD, wMem, wBase, wOff, hv, packM_53_3, packM_49_4, packM_16_3, packM_41_8, packM_27_8, packM_24_3, packM_35_6, packM_0_16, packM_20, packMem, width_back, scl_back]

theorem st (h : Head) (f : Bool) (w : Width) (sc : Scope) (d : BitVec 8) (m : MemOp) : Statement (.st h f w sc d m) := by
  intro hi hw
  have hne : w ≠ .w256 := fun e => by simp [e, Instr.wf, dataOk] at hw
  refine of_parse ?_ hi hw
  refine parse_at (n := 0xA4) (congrArg BitVec.toNat (packM_56_8 ..)) ?_
  intro v hv
  have hv : v = packMem 0xA4 h f w sc d m := hv
  rw [show parseOp 0xA4 v = (if wWidth v = .w256 then some (.copyStart (wHead v) (wFm v) (wS6 (wD v)) (wBase v) (wOff v)) else some (.st (wHead v) (wFm v) (wWidth v) (wScope v) (wD v) (wMem v))) from rfl]
  simp [hne, -BitVec.getLsbD_eq_getElem, wWidth, wHead, wFm, wS6, wD, wBase, wOff, wScope, wMem, hv, packM_53_3, packM_49_4, packM_16_3, packM_41_8, packM_35_6, packM_0_16, packM_21_3, packM_27_8, packM_24_3, packM_20, packMem, scope_back, width_back, scl_back]

theorem copyStart (h : Head) (f : Bool) (s : BitVec 6) (base : BitVec 6) (off : BitVec 16) : Statement (.copyStart h f s base off) := by
  refine of_parse ?_
  refine parse_at (n := 0xA4) (congrArg BitVec.toNat (packM_56_8 ..)) ?_
  intro v hv
  have hv : v = packM 0xA4 h (s8 s) base 0xFF 0 0 f false 7 off := hv
  rw [show parseOp 0xA4 v = (if wWidth v = .w256 then some (.copyStart (wHead v) (wFm v) (wS6 (wD v)) (wBase v) (wOff v)) else some (.st (wHead v) (wFm v) (wWidth v) (wScope v) (wD v) (wMem v))) from rfl]
  simp [-BitVec.getLsbD_eq_getElem, wWidth, wHead, wFm, wS6, wD, wBase, wOff, wScope, wMem, hv, packM_53_3, packM_49_4, packM_16_3, packM_41_8, packM_35_6, packM_0_16, packM_21_3, packM_27_8, packM_24_3, packM_20, s8, width_seven]

theorem stScr (h : Head) (f : Bool) (w : Width) (sc : Scope) (d : BitVec 8) (m : MemOp) : Statement (.stScr h f w sc d m) := by
  refine of_parse ?_
  refine parse_at (n := 0xA5) (congrArg BitVec.toNat (packM_56_8 ..)) ?_
  intro v hv
  have hv : v = packMem 0xA5 h f w sc d m := hv
  conv => { lhs; whnf }
  simp [-BitVec.getLsbD_eq_getElem, wHead, wFm, wWidth, wScope, wD, wMem, wBase, wOff, hv, packM_53_3, packM_49_4, packM_16_3, packM_21_3, packM_41_8, packM_27_8, packM_24_3, packM_35_6, packM_0_16, packM_20, packMem, scope_back, width_back, scl_back]

theorem stPrv (h : Head) (f : Bool) (w : Width) (d : BitVec 8) (m : MemOp) : Statement (.stPrv h f w d m) := by
  refine of_parse ?_
  refine parse_at (n := 0xA6) (congrArg BitVec.toNat (packM_56_8 ..)) ?_
  intro v hv
  have hv : v = packMem 0xA6 h f w .th d m := hv
  conv => { lhs; whnf }
  simp [-BitVec.getLsbD_eq_getElem, wHead, wFm, wWidth, wD, wMem, wBase, wOff, hv, packM_53_3, packM_49_4, packM_16_3, packM_41_8, packM_27_8, packM_24_3, packM_35_6, packM_0_16, packM_20, packMem, width_back, scl_back]

theorem lds (h : Head) (f : Bool) (sc : Scope) (sd : BitVec 6) (base : BitVec 6) (off : BitVec 16) : Statement (.lds h f sc sd base off) := by
  refine of_parse ?_
  refine parse_at (n := 0xA7) (congrArg BitVec.toNat (packM_56_8 ..)) ?_
  intro v hv
  have hv : v = packM 0xA7 h (s8 sd) base 0xFF 0 sc.code f false 5 off := hv
  conv => { lhs; whnf }
  simp [-BitVec.getLsbD_eq_getElem, wHead, wFm, wScope, wS6, wD, wBase, wOff, hv, packM_53_3, packM_49_4, packM_21_3, packM_41_8, packM_35_6, packM_0_16, packM_20, s8, scope_back]

theorem atomAdd (h : Head) (f : Bool) (m : AMem) (d : BitVec 8) (b : BitVec 8) : Statement (.atomAdd h f m d b) := by
  refine of_parse ?_
  refine parse_at (n := 0xB0) (congrArg BitVec.toNat (packM_56_8 ..)) ?_
  intro v hv
  have hv : v = packAmem 0xB0 h f m d (b ++ 0#8) := hv
  conv => { lhs; whnf }
  simp [-BitVec.getLsbD_eq_getElem, wHead, wFm, wAmem, wD, wAb, wBase, wScope, hv, packM_53_3, packM_49_4, packM_27_8, packM_24_3, packM_41_8, packM_8_8, packM_35_6, packM_21_3, packM_20, packM_19, packM_16, packAmem, scl_back, scope_back, bit_if3, take_b16, take_c16]

theorem atomMin (h : Head) (f : Bool) (m : AMem) (d : BitVec 8) (b : BitVec 8) : Statement (.atomMin h f m d b) := by
  refine of_parse ?_
  refine parse_at (n := 0xB1) (congrArg BitVec.toNat (packM_56_8 ..)) ?_
  intro v hv
  have hv : v = packAmem 0xB1 h f m d (b ++ 0#8) := hv
  conv => { lhs; whnf }
  simp [-BitVec.getLsbD_eq_getElem, wHead, wFm, wAmem, wD, wAb, wBase, wScope, hv, packM_53_3, packM_49_4, packM_27_8, packM_24_3, packM_41_8, packM_8_8, packM_35_6, packM_21_3, packM_20, packM_19, packM_16, packAmem, scl_back, scope_back, bit_if3, take_b16, take_c16]

theorem atomMax (h : Head) (f : Bool) (m : AMem) (d : BitVec 8) (b : BitVec 8) : Statement (.atomMax h f m d b) := by
  refine of_parse ?_
  refine parse_at (n := 0xB2) (congrArg BitVec.toNat (packM_56_8 ..)) ?_
  intro v hv
  have hv : v = packAmem 0xB2 h f m d (b ++ 0#8) := hv
  conv => { lhs; whnf }
  simp [-BitVec.getLsbD_eq_getElem, wHead, wFm, wAmem, wD, wAb, wBase, wScope, hv, packM_53_3, packM_49_4, packM_27_8, packM_24_3, packM_41_8, packM_8_8, packM_35_6, packM_21_3, packM_20, packM_19, packM_16, packAmem, scl_back, scope_back, bit_if3, take_b16, take_c16]

theorem atomMinu (h : Head) (f : Bool) (m : AMem) (d : BitVec 8) (b : BitVec 8) : Statement (.atomMinu h f m d b) := by
  refine of_parse ?_
  refine parse_at (n := 0xB3) (congrArg BitVec.toNat (packM_56_8 ..)) ?_
  intro v hv
  have hv : v = packAmem 0xB3 h f m d (b ++ 0#8) := hv
  conv => { lhs; whnf }
  simp [-BitVec.getLsbD_eq_getElem, wHead, wFm, wAmem, wD, wAb, wBase, wScope, hv, packM_53_3, packM_49_4, packM_27_8, packM_24_3, packM_41_8, packM_8_8, packM_35_6, packM_21_3, packM_20, packM_19, packM_16, packAmem, scl_back, scope_back, bit_if3, take_b16, take_c16]

theorem atomMaxu (h : Head) (f : Bool) (m : AMem) (d : BitVec 8) (b : BitVec 8) : Statement (.atomMaxu h f m d b) := by
  refine of_parse ?_
  refine parse_at (n := 0xB4) (congrArg BitVec.toNat (packM_56_8 ..)) ?_
  intro v hv
  have hv : v = packAmem 0xB4 h f m d (b ++ 0#8) := hv
  conv => { lhs; whnf }
  simp [-BitVec.getLsbD_eq_getElem, wHead, wFm, wAmem, wD, wAb, wBase, wScope, hv, packM_53_3, packM_49_4, packM_27_8, packM_24_3, packM_41_8, packM_8_8, packM_35_6, packM_21_3, packM_20, packM_19, packM_16, packAmem, scl_back, scope_back, bit_if3, take_b16, take_c16]

theorem atomAnd (h : Head) (f : Bool) (m : AMem) (d : BitVec 8) (b : BitVec 8) : Statement (.atomAnd h f m d b) := by
  refine of_parse ?_
  refine parse_at (n := 0xB5) (congrArg BitVec.toNat (packM_56_8 ..)) ?_
  intro v hv
  have hv : v = packAmem 0xB5 h f m d (b ++ 0#8) := hv
  conv => { lhs; whnf }
  simp [-BitVec.getLsbD_eq_getElem, wHead, wFm, wAmem, wD, wAb, wBase, wScope, hv, packM_53_3, packM_49_4, packM_27_8, packM_24_3, packM_41_8, packM_8_8, packM_35_6, packM_21_3, packM_20, packM_19, packM_16, packAmem, scl_back, scope_back, bit_if3, take_b16, take_c16]

theorem atomOr (h : Head) (f : Bool) (m : AMem) (d : BitVec 8) (b : BitVec 8) : Statement (.atomOr h f m d b) := by
  refine of_parse ?_
  refine parse_at (n := 0xB6) (congrArg BitVec.toNat (packM_56_8 ..)) ?_
  intro v hv
  have hv : v = packAmem 0xB6 h f m d (b ++ 0#8) := hv
  conv => { lhs; whnf }
  simp [-BitVec.getLsbD_eq_getElem, wHead, wFm, wAmem, wD, wAb, wBase, wScope, hv, packM_53_3, packM_49_4, packM_27_8, packM_24_3, packM_41_8, packM_8_8, packM_35_6, packM_21_3, packM_20, packM_19, packM_16, packAmem, scl_back, scope_back, bit_if3, take_b16, take_c16]

theorem atomXor (h : Head) (f : Bool) (m : AMem) (d : BitVec 8) (b : BitVec 8) : Statement (.atomXor h f m d b) := by
  refine of_parse ?_
  refine parse_at (n := 0xB7) (congrArg BitVec.toNat (packM_56_8 ..)) ?_
  intro v hv
  have hv : v = packAmem 0xB7 h f m d (b ++ 0#8) := hv
  conv => { lhs; whnf }
  simp [-BitVec.getLsbD_eq_getElem, wHead, wFm, wAmem, wD, wAb, wBase, wScope, hv, packM_53_3, packM_49_4, packM_27_8, packM_24_3, packM_41_8, packM_8_8, packM_35_6, packM_21_3, packM_20, packM_19, packM_16, packAmem, scl_back, scope_back, bit_if3, take_b16, take_c16]

theorem atomExch (h : Head) (f : Bool) (m : AMem) (d : BitVec 8) (b : BitVec 8) : Statement (.atomExch h f m d b) := by
  refine of_parse ?_
  refine parse_at (n := 0xB8) (congrArg BitVec.toNat (packM_56_8 ..)) ?_
  intro v hv
  have hv : v = packAmem 0xB8 h f m d (b ++ 0#8) := hv
  conv => { lhs; whnf }
  simp [-BitVec.getLsbD_eq_getElem, wHead, wFm, wAmem, wD, wAb, wBase, wScope, hv, packM_53_3, packM_49_4, packM_27_8, packM_24_3, packM_41_8, packM_8_8, packM_35_6, packM_21_3, packM_20, packM_19, packM_16, packAmem, scl_back, scope_back, bit_if3, take_b16, take_c16]

theorem atomCas (h : Head) (f : Bool) (m : AMem) (d : BitVec 8) (b : BitVec 8) (c : BitVec 8) : Statement (.atomCas h f m d b c) := by
  refine of_parse ?_
  refine parse_at (n := 0xB9) (congrArg BitVec.toNat (packM_56_8 ..)) ?_
  intro v hv
  have hv : v = packAmem 0xB9 h f m d (b ++ c) := hv
  conv => { lhs; whnf }
  simp [-BitVec.getLsbD_eq_getElem, wHead, wFm, wAmem, wD, wAb, wAc, wBase, wScope, hv, packM_53_3, packM_49_4, packM_27_8, packM_24_3, packM_41_8, packM_8_8, packM_0_8, packM_35_6, packM_21_3, packM_20, packM_19, packM_16, packAmem, scl_back, scope_back, bit_if3, take_b16, take_c16]

theorem atomFadd (h : Head) (f : Bool) (m : AMem) (d : BitVec 8) (b : BitVec 8) : Statement (.atomFadd h f m d b) := by
  refine of_parse ?_
  refine parse_at (n := 0xBA) (congrArg BitVec.toNat (packM_56_8 ..)) ?_
  intro v hv
  have hv : v = packAmem 0xBA h f m d (b ++ 0#8) := hv
  conv => { lhs; whnf }
  simp [-BitVec.getLsbD_eq_getElem, wHead, wFm, wAmem, wD, wAb, wBase, wScope, hv, packM_53_3, packM_49_4, packM_27_8, packM_24_3, packM_41_8, packM_8_8, packM_35_6, packM_21_3, packM_20, packM_19, packM_16, packAmem, scl_back, scope_back, bit_if3, take_b16, take_c16]

theorem redAdd (h : Head) (f : Bool) (m : AMem) (d : BitVec 8) : Statement (.redAdd h f m d) := by
  refine of_parse ?_
  refine parse_at (n := 0xBB) (congrArg BitVec.toNat (packM_56_8 ..)) ?_
  intro v hv
  have hv : v = packAmem 0xBB h f m d 0 := hv
  conv => { lhs; whnf }
  simp [-BitVec.getLsbD_eq_getElem, wHead, wFm, wAmem, wD, wBase, wScope, hv, packM_53_3, packM_49_4, packM_27_8, packM_24_3, packM_41_8, packM_35_6, packM_21_3, packM_20, packM_19, packM_16, packAmem, scl_back, scope_back, bit_if3]

theorem redMin (h : Head) (f : Bool) (m : AMem) (d : BitVec 8) : Statement (.redMin h f m d) := by
  refine of_parse ?_
  refine parse_at (n := 0xBC) (congrArg BitVec.toNat (packM_56_8 ..)) ?_
  intro v hv
  have hv : v = packAmem 0xBC h f m d 0 := hv
  conv => { lhs; whnf }
  simp [-BitVec.getLsbD_eq_getElem, wHead, wFm, wAmem, wD, wBase, wScope, hv, packM_53_3, packM_49_4, packM_27_8, packM_24_3, packM_41_8, packM_35_6, packM_21_3, packM_20, packM_19, packM_16, packAmem, scl_back, scope_back, bit_if3]

theorem redMax (h : Head) (f : Bool) (m : AMem) (d : BitVec 8) : Statement (.redMax h f m d) := by
  refine of_parse ?_
  refine parse_at (n := 0xBD) (congrArg BitVec.toNat (packM_56_8 ..)) ?_
  intro v hv
  have hv : v = packAmem 0xBD h f m d 0 := hv
  conv => { lhs; whnf }
  simp [-BitVec.getLsbD_eq_getElem, wHead, wFm, wAmem, wD, wBase, wScope, hv, packM_53_3, packM_49_4, packM_27_8, packM_24_3, packM_41_8, packM_35_6, packM_21_3, packM_20, packM_19, packM_16, packAmem, scl_back, scope_back, bit_if3]

theorem redFadd (h : Head) (f : Bool) (m : AMem) (d : BitVec 8) : Statement (.redFadd h f m d) := by
  refine of_parse ?_
  refine parse_at (n := 0xBE) (congrArg BitVec.toNat (packM_56_8 ..)) ?_
  intro v hv
  have hv : v = packAmem 0xBE h f m d 0 := hv
  conv => { lhs; whnf }
  simp [-BitVec.getLsbD_eq_getElem, wHead, wFm, wAmem, wD, wBase, wScope, hv, packM_53_3, packM_49_4, packM_27_8, packM_24_3, packM_41_8, packM_35_6, packM_21_3, packM_20, packM_19, packM_16, packAmem, scl_back, scope_back, bit_if3]

theorem redOr (h : Head) (f : Bool) (m : AMem) (d : BitVec 8) : Statement (.redOr h f m d) := by
  refine of_parse ?_
  refine parse_at (n := 0xBF) (congrArg BitVec.toNat (packM_56_8 ..)) ?_
  intro v hv
  have hv : v = packAmem 0xBF h f m d 0 := hv
  conv => { lhs; whnf }
  simp [-BitVec.getLsbD_eq_getElem, wHead, wFm, wAmem, wD, wBase, wScope, hv, packM_53_3, packM_49_4, packM_27_8, packM_24_3, packM_41_8, packM_35_6, packM_21_3, packM_20, packM_19, packM_16, packAmem, scl_back, scope_back, bit_if3]

theorem fence (h : Head) (f : Bool) (sc : Scope) : Statement (.fence h f sc) := by
  refine of_parse ?_
  refine parse_at (n := 0xC0) (congrArg BitVec.toNat (packM_56_8 ..)) ?_
  intro v hv
  have hv : v = packM 0xC0 h 0 0 0 0 sc.code f false 0 0 := hv
  conv => { lhs; whnf }
  simp [-BitVec.getLsbD_eq_getElem, wHead, wFm, wScope, hv, packM_53_3, packM_49_4, packM_21_3, packM_20, scope_back]

theorem acq (h : Head) (f : Bool) (sc : Scope) : Statement (.acq h f sc) := by
  refine of_parse ?_
  refine parse_at (n := 0xC1) (congrArg BitVec.toNat (packM_56_8 ..)) ?_
  intro v hv
  have hv : v = packM 0xC1 h 0 0 0 0 sc.code f false 0 0 := hv
  conv => { lhs; whnf }
  simp [-BitVec.getLsbD_eq_getElem, wHead, wFm, wScope, hv, packM_53_3, packM_49_4, packM_21_3, packM_20, scope_back]

theorem rel (h : Head) (f : Bool) (sc : Scope) : Statement (.rel h f sc) := by
  refine of_parse ?_
  refine parse_at (n := 0xC2) (congrArg BitVec.toNat (packM_56_8 ..)) ?_
  intro v hv
  have hv : v = packM 0xC2 h 0 0 0 0 sc.code f false 0 0 := hv
  conv => { lhs; whnf }
  simp [-BitVec.getLsbD_eq_getElem, wHead, wFm, wScope, hv, packM_53_3, packM_49_4, packM_21_3, packM_20, scope_back]

theorem relN (h : Head) (f : Bool) (wide : Bool) (d : BitVec 8) (base : BitVec 6) (off : BitVec 16) : Statement (.relN h f wide d base off) := by
  refine of_parse ?_
  refine parse_at (n := 0xC3) (congrArg BitVec.toNat (packM_56_8 ..)) ?_
  intro v hv
  have hv : v = packM 0xC3 h d base 0 0 5 f false (if wide then 5 else 4) off := hv
  conv => { lhs; whnf }
  simp [-BitVec.getLsbD_eq_getElem, wHead, wFm, wD, wBase, wOff, hv, packM_53_3, packM_49_4, packM_41_8, packM_35_6, packM_0_16, packM_16, packM_20, bit_if3]

theorem bar (h : Head) (f : Bool) (n : BitVec 5) : Statement (.bar h f n) := by
  refine of_parse ?_
  refine parse_at (n := 0xC4) (congrArg BitVec.toNat (packM_56_8 ..)) ?_
  intro v hv
  have hv : v = packM 0xC4 h 0 0 0 0 0 f false 0 (n.setWidth 16) := hv
  conv => { lhs; whnf }
  simp [-BitVec.getLsbD_eq_getElem, wHead, wFm, wBar, hv, packM_53_3, packM_49_4, packM_0_5, packM_20, take_setWidth]

theorem barArrive (h : Head) (f : Bool) (n : BitVec 5) : Statement (.barArrive h f n) := by
  refine of_parse ?_
  refine parse_at (n := 0xC5) (congrArg BitVec.toNat (packM_56_8 ..)) ?_
  intro v hv
  have hv : v = packM 0xC5 h 0 0 0 0 0 f false 0 (n.setWidth 16) := hv
  conv => { lhs; whnf }
  simp [-BitVec.getLsbD_eq_getElem, wHead, wFm, wBar, hv, packM_53_3, packM_49_4, packM_0_5, packM_20, take_setWidth]

theorem barWait (h : Head) (f : Bool) (n : BitVec 5) : Statement (.barWait h f n) := by
  refine of_parse ?_
  refine parse_at (n := 0xC6) (congrArg BitVec.toNat (packM_56_8 ..)) ?_
  intro v hv
  have hv : v = packM 0xC6 h 0 0 0 0 0 f false 0 (n.setWidth 16) := hv
  conv => { lhs; whnf }
  simp [-BitVec.getLsbD_eq_getElem, wHead, wFm, wBar, hv, packM_53_3, packM_49_4, packM_0_5, packM_20, take_setWidth]

theorem pbarArrive (h : Head) (f : Bool) (n : BitVec 5) : Statement (.pbarArrive h f n) := by
  refine of_parse ?_
  refine parse_at (n := 0xC7) (congrArg BitVec.toNat (packM_56_8 ..)) ?_
  intro v hv
  have hv : v = packM 0xC7 h 0 0 0 0 0 f false 0 (n.setWidth 16) := hv
  conv => { lhs; whnf }
  simp [-BitVec.getLsbD_eq_getElem, wHead, wFm, wBar, hv, packM_53_3, packM_49_4, packM_0_5, packM_20, take_setWidth]

theorem pbarWait (h : Head) (f : Bool) (n : BitVec 5) : Statement (.pbarWait h f n) := by
  refine of_parse ?_
  refine parse_at (n := 0xC8) (congrArg BitVec.toNat (packM_56_8 ..)) ?_
  intro v hv
  have hv : v = packM 0xC8 h 0 0 0 0 0 f false 0 (n.setWidth 16) := hv
  conv => { lhs; whnf }
  simp [-BitVec.getLsbD_eq_getElem, wHead, wFm, wBar, hv, packM_53_3, packM_49_4, packM_0_5, packM_20, take_setWidth]

theorem mwait (h : Head) (f : Bool) (scr : Bool) (wide : Bool) (sc : Scope) (cc : Cmp) (base : BitVec 6) (off : BitVec 16) (x : MX) : Statement (.mwait h f scr wide sc cc base off x) := by
  refine of_parse ?_
  rcases x with r | y
  · refine parse_at (n := 0xC9) (congrArg BitVec.toNat (packM_56_8 ..)) ?_
    intro v hv
    have hv : v = packM 0xC9 h (cc.code.setWidth 8) base (r.setWidth 8) 0 sc.code f scr (if wide then 5 else 4) off := hv
    conv => { lhs; whnf }
    simp [-BitVec.getLsbD_eq_getElem, wHead, wFm, wScope, wD, wBase, wOff, hv, packM_53_3, packM_49_4, packM_27_7, packM_27_6, packM_21_3, packM_41_8, packM_35_6, packM_0_16, packM_19, packM_16, packM_34, packM_20, cmp_back, scope_back, take_setWidth, bit_if3, bit_r, take_r]
  · refine parse_at (n := 0xC9) (congrArg BitVec.toNat (packM_56_8 ..)) ?_
    intro v hv
    have hv : v = packM 0xC9 h (cc.code.setWidth 8) base (1#1 ++ y) 0 sc.code f scr (if wide then 5 else 4) off := hv
    conv => { lhs; whnf }
    simp [-BitVec.getLsbD_eq_getElem, wHead, wFm, wScope, wD, wBase, wOff, hv, packM_53_3, packM_49_4, packM_27_7, packM_27_6, packM_21_3, packM_41_8, packM_35_6, packM_0_16, packM_19, packM_16, packM_34, packM_20, cmp_back, scope_back, take_setWidth, bit_if3, bit_x, take_x]

theorem cwait (h : Head) (f : Bool) (ms : BitVec 6) (base : BitVec 6) (off : BitVec 16) : Statement (.cwait h f ms base off) := by
  refine of_parse ?_
  refine parse_at (n := 0xD0) (congrArg BitVec.toNat (packC_56_8 ..)) ?_
  intro v hv
  have hv : v = packC 0xD0 h 0 base ms 0 false 0 f off := hv
  rw [show parseOp 0xD0 v = (if wTk v then some (.cwaitTile (wHead v) (wFm v) (wMs v) (wTile v) (v.getLsbD 0)) else some (.cwait (wHead v) (wFm v) (wMs v) (wCbase v) (wOff v))) from rfl]
  simp [-BitVec.getLsbD_eq_getElem, wTk, wHead, wFm, wMs, wTile, wCbase, wOff, hv, packC_53_3, packC_49_4, packC_31_6, packC_25_6, packC_37_6, packC_0_16, packC_0, packC_24, packC_20]

theorem cwaitTile (h : Head) (f : Bool) (ms : BitVec 6) (tile : BitVec 6) (hi : Bool) : Statement (.cwaitTile h f ms tile hi) := by
  refine of_parse ?_
  refine parse_at (n := 0xD0) (congrArg BitVec.toNat (packC_56_8 ..)) ?_
  intro v hv
  have hv : v = packC 0xD0 h 0 0 ms tile true 0 f ((b1 hi).setWidth 16) := hv
  rw [show parseOp 0xD0 v = (if wTk v then some (.cwaitTile (wHead v) (wFm v) (wMs v) (wTile v) (v.getLsbD 0)) else some (.cwait (wHead v) (wFm v) (wMs v) (wCbase v) (wOff v))) from rfl]
  simp [-BitVec.getLsbD_eq_getElem, wTk, wHead, wFm, wMs, wTile, wCbase, wOff, hv, packC_53_3, packC_49_4, packC_31_6, packC_25_6, packC_37_6, packC_0_16, packC_0, packC_24, packC_20, take_setWidth, bit_b1, bit_hi]

theorem ctest (h : Head) (f : Bool) (sd : BitVec 6) (ms : BitVec 6) (base : BitVec 6) (off : BitVec 16) : Statement (.ctest h f sd ms base off) := by
  refine of_parse ?_
  refine parse_at (n := 0xD1) (congrArg BitVec.toNat (packC_56_8 ..)) ?_
  intro v hv
  have hv : v = packC 0xD1 h sd base ms 0 false 0 f off := hv
  rw [show parseOp 0xD1 v = (if wTk v then some (.ctestTile (wHead v) (wFm v) (wSd v) (wMs v) (wTile v) (v.getLsbD 0)) else some (.ctest (wHead v) (wFm v) (wSd v) (wMs v) (wCbase v) (wOff v))) from rfl]
  simp [-BitVec.getLsbD_eq_getElem, wTk, wHead, wFm, wSd, wMs, wTile, wCbase, wOff, hv, packC_53_3, packC_49_4, packC_43_6, packC_31_6, packC_25_6, packC_37_6, packC_0_16, packC_0, packC_24, packC_20]

theorem ctestTile (h : Head) (f : Bool) (sd : BitVec 6) (ms : BitVec 6) (tile : BitVec 6) (hi : Bool) : Statement (.ctestTile h f sd ms tile hi) := by
  refine of_parse ?_
  refine parse_at (n := 0xD1) (congrArg BitVec.toNat (packC_56_8 ..)) ?_
  intro v hv
  have hv : v = packC 0xD1 h sd 0 ms tile true 0 f ((b1 hi).setWidth 16) := hv
  rw [show parseOp 0xD1 v = (if wTk v then some (.ctestTile (wHead v) (wFm v) (wSd v) (wMs v) (wTile v) (v.getLsbD 0)) else some (.ctest (wHead v) (wFm v) (wSd v) (wMs v) (wCbase v) (wOff v))) from rfl]
  simp [-BitVec.getLsbD_eq_getElem, wTk, wHead, wFm, wSd, wMs, wTile, wCbase, wOff, hv, packC_53_3, packC_49_4, packC_43_6, packC_31_6, packC_25_6, packC_37_6, packC_0_16, packC_0, packC_24, packC_20, take_setWidth, bit_b1, bit_hi]

theorem publish (h : Head) (f : Bool) (sc : Scope) (nm1 : BitVec 6) (base : BitVec 6) (off : BitVec 16) : Statement (.publish h f sc nm1 base off) := by
  refine of_parse ?_
  refine parse_at (n := 0xD2) (congrArg BitVec.toNat (packC_56_8 ..)) ?_
  intro v hv
  have hv : v = packC 0xD2 h 0 base nm1 0 false sc.code f off := hv
  conv => { lhs; whnf }
  simp [-BitVec.getLsbD_eq_getElem, wHead, wFm, wScope, wMs, wCbase, wOff, hv, packC_53_3, packC_49_4, packC_21_3, packC_31_6, packC_37_6, packC_0_16, packC_20, scope_back]

theorem tdef (h : Head) (f : Bool) (tile : BitVec 6) (base : BitVec 6) (off : BitVec 16) (ms : BitVec 6) : Statement (.tdef h f tile base off ms) := by
  refine of_parse ?_
  refine parse_at (n := 0xD3) (congrArg BitVec.toNat (packC_56_8 ..)) ?_
  intro v hv
  have hv : v = packC 0xD3 h 0 base ms tile false 0 f off := hv
  conv => { lhs; whnf }
  simp [-BitVec.getLsbD_eq_getElem, wHead, wFm, wTile, wCbase, wOff, wMs, hv, packC_53_3, packC_49_4, packC_25_6, packC_37_6, packC_0_16, packC_31_6, packC_20]

theorem twait (h : Head) (f : Bool) (tile : BitVec 6) : Statement (.twait h f tile) := by
  refine of_parse ?_
  refine parse_at (n := 0xD4) (congrArg BitVec.toNat (packC_56_8 ..)) ?_
  intro v hv
  have hv : v = packC 0xD4 h 0 0 0 tile false 0 f 0 := hv
  conv => { lhs; whnf }
  simp [-BitVec.getLsbD_eq_getElem, wHead, wFm, wTile, hv, packC_53_3, packC_49_4, packC_25_6, packC_20]

theorem tfree (h : Head) (tile : BitVec 6) : Statement (.tfree h tile) := by
  refine of_parse ?_
  refine parse_at (n := 0xD5) (congrArg BitVec.toNat (packC_56_8 ..)) ?_
  intro v hv
  have hv : v = packC 0xD5 h 0 0 0 tile false 0 false 0 := hv
  conv => { lhs; whnf }
  simp [wHead, wTile, hv, packC_53_3, packC_49_4, packC_25_6]

theorem mldb (ta : BitVec 6) (fs : BitVec 3) : Statement (.mldb ta fs) := by
  refine of_parse ?_
  refine parse_at (n := 0xE0) (congrArg BitVec.toNat (packX_56_8 ..)) ?_
  intro v hv
  have hv : v = packX 0xE0 0 ta 0 fs 0 0 0 0 := hv
  conv => { lhs; whnf }
  simp [wTa, wFs, hv, packX_40_6, packX_31_3]

theorem mmaP (acc : BitVec 3) (ta : BitVec 6) (fs : BitVec 3) (rows : BitVec 2) : Statement (.mmaP acc ta fs rows) := by
  refine of_parse ?_
  refine parse_at (n := 0xE1) (congrArg BitVec.toNat (packX_56_8 ..)) ?_
  intro v hv
  have hv : v = packX 0xE1 acc ta 0 fs 0 (rows.setWidth 8) 0 0 := hv
  conv => { lhs; whnf }
  simp [wAcc, wTa, wFs, hv, packX_20_2, packX_46_3, packX_40_6, packX_31_3, take_setWidth]

theorem mclr (acc : BitVec 3) (km1 : BitVec 3) : Statement (.mclr acc km1) := by
  refine of_parse ?_
  refine parse_at (n := 0xE2) (congrArg BitVec.toNat (packX_56_8 ..)) ?_
  intro v hv
  have hv : v = packX 0xE2 acc 0 0 0 0 (km1.setWidth 8) 0 0 := hv
  conv => { lhs; whnf }
  simp [wAcc, hv, packX_20_3, packX_46_3, take_setWidth]

theorem mscl (acc : BitVec 3) (ss : BitVec 6) : Statement (.mscl acc ss) := by
  refine of_parse ?_
  refine parse_at (n := 0xE3) (congrArg BitVec.toNat (packX_56_8 ..)) ?_
  intro v hv
  have hv : v = packX 0xE3 acc 0 0 0 0 0 ss 0 := hv
  conv => { lhs; whnf }
  simp [wAcc, wSs, hv, packX_46_3, packX_14_6]

theorem accst (acc : BitVec 3) (ss : BitVec 6) (imm : BitVec 14) (fs : BitVec 3) : Statement (.accst acc ss imm fs) := by
  refine of_parse ?_
  refine parse_at (n := 0xE4) (congrArg BitVec.toNat (packX_56_8 ..)) ?_
  intro v hv
  have hv : v = packX 0xE4 acc 0 0 fs 0 0 ss imm := hv
  conv => { lhs; whnf }
  simp [wAcc, wSs, wImm14, wFs, hv, packX_46_3, packX_14_6, packX_0_14, packX_31_3]

theorem accld (acc : BitVec 3) (ss : BitVec 6) (imm : BitVec 14) (fs : BitVec 3) : Statement (.accld acc ss imm fs) := by
  refine of_parse ?_
  refine parse_at (n := 0xE5) (congrArg BitVec.toNat (packX_56_8 ..)) ?_
  intro v hv
  have hv : v = packX 0xE5 acc 0 0 fs 0 0 ss imm := hv
  conv => { lhs; whnf }
  simp [wAcc, wSs, wImm14, wFs, hv, packX_46_3, packX_14_6, packX_0_14, packX_31_3]

theorem accq (acc : BitVec 3) (rm1 : BitVec 6) : Statement (.accq acc rm1) := by
  refine of_parse ?_
  refine parse_at (n := 0xE6) (congrArg BitVec.toNat (packX_56_8 ..)) ?_
  intro v hv
  have hv : v = packX 0xE6 acc 0 0 0 0 (rm1.setWidth 8) 0 0 := hv
  conv => { lhs; whnf }
  simp [wAcc, hv, packX_20_6, packX_46_3, take_setWidth]

theorem mbarArrive (n : BitVec 5) : Statement (.mbarArrive n) := by
  refine of_parse ?_
  refine parse_at (n := 0xE7) (congrArg BitVec.toNat (packX_56_8 ..)) ?_
  intro v hv
  have hv : v = packX 0xE7 0 0 0 0 1 0 0 (n.setWidth 14) := hv
  rw [show parseOp 0xE7 v = (if v.getLsbD 28 then some (.mbarArrive (wBar v)) else some (.mbarWait (wBar v))) from rfl]
  simp [-BitVec.getLsbD_eq_getElem, wBar, hv, packX_0_5, packX_28, take_setWidth]

theorem mbarWait (n : BitVec 5) : Statement (.mbarWait n) := by
  refine of_parse ?_
  refine parse_at (n := 0xE7) (congrArg BitVec.toNat (packX_56_8 ..)) ?_
  intro v hv
  have hv : v = packX 0xE7 0 0 0 0 0 0 0 (n.setWidth 14) := hv
  rw [show parseOp 0xE7 v = (if v.getLsbD 28 then some (.mbarArrive (wBar v)) else some (.mbarWait (wBar v))) from rfl]
  simp [-BitVec.getLsbD_eq_getElem, wBar, hv, packX_0_5, packX_28, take_setWidth]

theorem mloop (km1 : BitVec 8) (imm : BitVec 14) : Statement (.mloop km1 imm) := by
  refine of_parse ?_
  refine parse_at (n := 0xE8) (congrArg BitVec.toNat (packX_56_8 ..)) ?_
  intro v hv
  have hv : v = packX 0xE8 0 0 0 0 0 km1 0 imm := hv
  conv => { lhs; whnf }
  simp [wCnt, wImm14, hv, packX_20_8, packX_0_14]

theorem mend : Statement .mend := of_parse rfl

theorem packp (h : Head) (f : Bool) (a : Src) (s : BitVec 6) (fs : BitVec 3) (r : BitVec 8) : Statement (.packp h f a s fs r) := by
  refine of_parse ?_
  refine parse_at (n := 0xEA) (congrArg BitVec.toNat (packV3_56_8 ..)) ?_
  intro v hv
  have hv : v = packV3 0xEA h 0 a.field (s8 s) (p8 fs) false a.kind true false 0 false r f := hv
  conv => { lhs; whnf }
  simp [-BitVec.getLsbD_eq_getElem, wHead, wF0, wSA, wS6, wB, wP, wC, wSub, wA, hv, packV3_53_3, packV3_49_4, packV3_25_8, packV3_17_8, packV3_1_8, packV3_33_8, packV3_0, packV3_15, p8, s8, src_back]

theorem unpackp (h : Head) (f : Bool) (d : BitVec 8) (s : BitVec 6) (fs : BitVec 3) (r : BitVec 8) : Statement (.unpackp h f d s fs r) := by
  refine of_parse ?_
  refine parse_at (n := 0xEB) (congrArg BitVec.toNat (packV3_56_8 ..)) ?_
  intro v hv
  have hv : v = packV3 0xEB h d 0 (s8 s) (p8 fs) false false true false 0 false r f := hv
  conv => { lhs; whnf }
  simp [-BitVec.getLsbD_eq_getElem, wHead, wF0, wD, wS6, wB, wP, wC, wSub, hv, packV3_53_3, packV3_49_4, packV3_41_8, packV3_25_8, packV3_17_8, packV3_1_8, packV3_0, p8, s8]

theorem mfsr (h : Head) (d : MDst) (sel : BitVec 8) : Statement (.mfsr h d sel) := by
  refine of_parse ?_
  rcases d with r | r
  · refine parse_at (n := 0xF0) (congrArg BitVec.toNat (packV3_56_8 ..)) ?_
    intro v hv
    have hv : v = packV3 0xF0 h r 0 0 0 false false false false 0 false sel false := hv
    conv => { lhs; whnf }
    simp [-BitVec.getLsbD_eq_getElem, wHead, wS6, wD, wSub, hv, packV3_53_3, packV3_49_4, packV3_41_8, packV3_1_8, packV3_16, s8]
  · refine parse_at (n := 0xF0) (congrArg BitVec.toNat (packV3_56_8 ..)) ?_
    intro v hv
    have hv : v = packV3 0xF0 h (s8 r) 0 0 0 true false false false 0 false sel false := hv
    conv => { lhs; whnf }
    simp [-BitVec.getLsbD_eq_getElem, wHead, wS6, wD, wSub, hv, packV3_53_3, packV3_49_4, packV3_41_8, packV3_1_8, packV3_16, s8]

theorem mtsr (h : Head) (sel : BitVec 8) (a : Src) : Statement (.mtsr h sel a) := by
  refine of_parse ?_
  refine parse_at (n := 0xF1) (congrArg BitVec.toNat (packV3_56_8 ..)) ?_
  intro v hv
  have hv : v = packV3 0xF1 h 0 a.field 0 0 false a.kind false false 0 false sel false := hv
  conv => { lhs; whnf }
  simp [-BitVec.getLsbD_eq_getElem, wHead, wSub, wSA, wA, hv, packV3_53_3, packV3_49_4, packV3_1_8, packV3_33_8, packV3_15, src_back]

theorem yield (h : Head) (d : BitVec 8) (k : BitVec 8) : Statement (.yield h d k) := by
  refine of_parse ?_
  refine parse_at (n := 0xF2) (congrArg BitVec.toNat (packVI_56_8 ..)) ?_
  intro v hv
  have hv : v = packVI 0xF2 h 0 0 false (0#16 ++ d ++ k) := hv
  conv => { lhs; whnf }
  simp [wHead, hv, packVI_53_3, packVI_49_4, packVI_8_8, packVI_0_8, take_d8, take_k8]

theorem syscall (h : Head) (n : BitVec 16) : Statement (.syscall h n) := by
  refine of_parse ?_
  refine parse_at (n := 0xF3) (congrArg BitVec.toNat (packVI_56_8 ..)) ?_
  intro v hv
  have hv : v = packVI 0xF3 h 0 0 false (n.setWidth 32) := hv
  conv => { lhs; whnf }
  simp [wHead, wOff, hv, packVI_53_3, packVI_49_4, packVI_0_16, take_setWidth]

theorem trap (h : Head) (n : BitVec 16) : Statement (.trap h n) := by
  refine of_parse ?_
  refine parse_at (n := 0xF4) (congrArg BitVec.toNat (packVI_56_8 ..)) ?_
  intro v hv
  have hv : v = packVI 0xF4 h 0 0 false (n.setWidth 32) := hv
  conv => { lhs; whnf }
  simp [wHead, wOff, hv, packVI_53_3, packVI_49_4, packVI_0_16, take_setWidth]

theorem brk (h : Head) (n : BitVec 16) : Statement (.brk h n) := by
  refine of_parse ?_
  refine parse_at (n := 0xF5) (congrArg BitVec.toNat (packVI_56_8 ..)) ?_
  intro v hv
  have hv : v = packVI 0xF5 h 0 0 false (n.setWidth 32) := hv
  conv => { lhs; whnf }
  simp [wHead, wOff, hv, packVI_53_3, packVI_49_4, packVI_0_16, take_setWidth]

theorem ipf (h : Head) (base : BitVec 6) (off : BitVec 16) (nm1 : BitVec 8) : Statement (.ipf h base off nm1) := by
  refine of_parse ?_
  refine parse_at (n := 0xF6) (congrArg BitVec.toNat (packM_56_8 ..)) ?_
  intro v hv
  have hv : v = packM 0xF6 h nm1 base 0xFF 0 0 false false 0 off := hv
  conv => { lhs; whnf }
  simp [wHead, wBase, wOff, wD, hv, packM_53_3, packM_49_4, packM_35_6, packM_0_16, packM_41_8]

theorem regq (h : Head) (w1 : BitVec 5) (w2 : BitVec 5) (k : BitVec 36) : Statement (.regq h w1 w2 k) := by
  refine of_parse ?_
  refine parse_at (n := 0xF7) (congrArg BitVec.toNat (packS_56_8 ..)) ?_
  intro v hv
  have hv : v = packS 0xF7 h (w1.setWidth 6) (w2.setWidth 6) true k := hv
  conv => { lhs; whnf }
  simp [wHead, hv, packS_53_3, packS_49_4, packS_43_5, packS_37_5, packS_0_36, take_setWidth]

theorem cctlWb (h : Head) (sc : Scope) (base : BitVec 6) (off : BitVec 16) : Statement (.cctlWb h sc base off) := by
  refine of_parse ?_
  refine parse_at (n := 0xF8) (congrArg BitVec.toNat (packM_56_8 ..)) ?_
  intro v hv
  have hv : v = packM 0xF8 h 0 base 0xFF 0 sc.code false false 0 off := hv
  conv => { lhs; whnf }
  simp [wD, wHead, wScope, wBase, wOff, hv, packM_53_3, packM_49_4, packM_41_8, packM_21_3, packM_35_6, packM_0_16, scope_back]

theorem cctlInv (h : Head) (sc : Scope) (base : BitVec 6) (off : BitVec 16) : Statement (.cctlInv h sc base off) := by
  refine of_parse ?_
  refine parse_at (n := 0xF8) (congrArg BitVec.toNat (packM_56_8 ..)) ?_
  intro v hv
  have hv : v = packM 0xF8 h 1 base 0xFF 0 sc.code false false 0 off := hv
  conv => { lhs; whnf }
  simp [wD, wHead, wScope, wBase, wOff, hv, packM_53_3, packM_49_4, packM_41_8, packM_21_3, packM_35_6, packM_0_16, scope_back]

theorem cctlWbinv (h : Head) (sc : Scope) (base : BitVec 6) (off : BitVec 16) : Statement (.cctlWbinv h sc base off) := by
  refine of_parse ?_
  refine parse_at (n := 0xF8) (congrArg BitVec.toNat (packM_56_8 ..)) ?_
  intro v hv
  have hv : v = packM 0xF8 h 2 base 0xFF 0 sc.code false false 0 off := hv
  conv => { lhs; whnf }
  simp [wD, wHead, wScope, wBase, wOff, hv, packM_53_3, packM_49_4, packM_41_8, packM_21_3, packM_35_6, packM_0_16, scope_back]

theorem qstat (h : Head) (sd : BitVec 6) (qm : Bool) : Statement (.qstat h sd qm) := by
  refine of_parse ?_
  refine parse_at (n := 0xF9) (congrArg BitVec.toNat (packS_56_8 ..)) ?_
  intro v hv
  have hv : v = packS 0xF9 h sd 0 false (0#6 ++ (if qm then 1#4 else 0#4) ++ 0#26) := hv
  conv => { lhs; whnf }
  simp [-BitVec.getLsbD_eq_getElem, wHead, wSd, hv, packS_53_3, packS_49_4, packS_43_6, packS_26, bit_qm]

theorem clauseStart (core slice : Nat) : Statement (.clauseStart core slice) := fun h => Bool.noConfusion h

theorem longLatencyCompletion (op : Nat) (lanes : Mask) : Statement (.longLatencyCompletion op lanes) := fun h => Bool.noConfusion h

theorem accessPerform (op idx : Nat) : Statement (.accessPerform op idx) := fun h => Bool.noConfusion h

theorem icacheMissFill (warp : Nat) : Statement (.icacheMissFill warp) := fun h => Bool.noConfusion h

theorem watchdogFault (warp : Nat) : Statement (.watchdogFault warp) := fun h => Bool.noConfusion h

theorem quotaTransferApply (wg : Nat) : Statement (.quotaTransferApply wg) := fun h => Bool.noConfusion h

theorem workgroupDeadlock (wg : Nat) : Statement (.workgroupDeadlock wg) := fun h => Bool.noConfusion h

theorem sequencerTaskLoad (wg : Nat) : Statement (.sequencerTaskLoad wg) := fun h => Bool.noConfusion h

theorem monitorWake (mon : Nat) : Statement (.monitorWake mon) := fun h => Bool.noConfusion h

theorem monitorEntryArm (mon : Nat) : Statement (.monitorEntryArm mon) := fun h => Bool.noConfusion h

theorem monitorSwapOut (cluster : Nat) : Statement (.monitorSwapOut cluster) := fun h => Bool.noConfusion h

theorem clusterRequeue (cluster : Nat) : Statement (.clusterRequeue cluster) := fun h => Bool.noConfusion h

theorem diffApply (pkt : Nat) : Statement (.diffApply pkt) := fun h => Bool.noConfusion h

theorem diffAck (pkt : Nat) : Statement (.diffAck pkt) := fun h => Bool.noConfusion h

theorem lockHandoffReceive (msg : Nat) : Statement (.lockHandoffReceive msg) := fun h => Bool.noConfusion h

theorem bteChunkStart (copy chunk : Nat) : Statement (.bteChunkStart copy chunk) := fun h => Bool.noConfusion h

theorem chunkComplete (copy chunk : Nat) : Statement (.chunkComplete copy chunk) := fun h => Bool.noConfusion h

theorem copyFault (copy chunk : Nat) : Statement (.copyFault copy chunk) := fun h => Bool.noConfusion h

theorem tileDrainDone (copy : Nat) : Statement (.tileDrainDone copy) := fun h => Bool.noConfusion h

theorem publishSwitch (op : Nat) : Statement (.publishSwitch op) := fun h => Bool.noConfusion h

theorem pageRetire (ctx page : Nat) : Statement (.pageRetire ctx page) := fun h => Bool.noConfusion h

theorem rtailWrite (ctx : BitVec 6) (ring : BitVec 3) (x : BitVec 32) : Statement (.rtailWrite ctx ring x) := fun h => Bool.noConfusion h

theorem ringEntryAdmit (ctx : BitVec 6) (ring : BitVec 3) : Statement (.ringEntryAdmit ctx ring) := fun h => Bool.noConfusion h

theorem haltClear (ctx : BitVec 6) (ring : BitVec 3) : Statement (.haltClear ctx ring) := fun h => Bool.noConfusion h

theorem gridEligible (grid : Nat) : Statement (.gridEligible grid) := fun h => Bool.noConfusion h

theorem clusterPull (die : BitVec 3) (group : Nat) (cores : List Nat) : Statement (.clusterPull die group cores) := fun h => Bool.noConfusion h

theorem starvationPreempt (grid : Nat) : Statement (.starvationPreempt grid) := fun h => Bool.noConfusion h

theorem gridComplete (grid : Nat) : Statement (.gridComplete grid) := fun h => Bool.noConfusion h

theorem preRequest (ctx : BitVec 6) : Statement (.preRequest ctx) := fun h => Bool.noConfusion h

theorem clusterSave (cluster : Nat) : Statement (.clusterSave cluster) := fun h => Bool.noConfusion h

theorem clusterRestore (cluster : Nat) (die : BitVec 3) (group : Nat) (cores : List Nat) : Statement (.clusterRestore cluster die group cores) := fun h => Bool.noConfusion h

theorem trapRecordEnqueue (core : Nat) : Statement (.trapRecordEnqueue core) := fun h => Bool.noConfusion h

theorem replay (core : Nat) : Statement (.replay core) := fun h => Bool.noConfusion h

theorem skip (core : Nat) : Statement (.skip core) := fun h => Bool.noConfusion h

theorem jump (core : Nat) (a : W64) : Statement (.jump core a) := fun h => Bool.noConfusion h

theorem endRecord (core : Nat) : Statement (.endRecord core) := fun h => Bool.noConfusion h

theorem answer (core : Nat) : Statement (.answer core) := fun h => Bool.noConfusion h

theorem singleStep (warp : Nat) (splitB : Bool) : Statement (.singleStep warp splitB) := fun h => Bool.noConfusion h

theorem growFaultService (warp : Nat) (ans : GrowAnswer) : Statement (.growFaultService warp ans) := fun h => Bool.noConfusion h

theorem farPageFault (warp : Nat) (cold : Nat) : Statement (.farPageFault warp cold) := fun h => Bool.noConfusion h

theorem swapComplete (swap : Nat) : Statement (.swapComplete swap) := fun h => Bool.noConfusion h

theorem ctmigBringNear (ctx : BitVec 6) (x : W64) : Statement (.ctmigBringNear ctx x) := fun h => Bool.noConfusion h

theorem ctmigMoveFar (ctx : BitVec 6) (x : W64) : Statement (.ctmigMoveFar ctx x) := fun h => Bool.noConfusion h

theorem ctmigOffline (ctx : BitVec 6) (x : W64) : Statement (.ctmigOffline ctx x) := fun h => Bool.noConfusion h

theorem ctmigReserved (ctx : BitVec 6) (x : W64) : Statement (.ctmigReserved ctx x) := fun h => Bool.noConfusion h

theorem tlbinv (ctx : BitVec 6) (x : W64) : Statement (.tlbinv ctx x) := fun h => Bool.noConfusion h

theorem tlbinvComplete (ctx : BitVec 6) : Statement (.tlbinvComplete ctx) := fun h => Bool.noConfusion h

theorem contextEnable (ctx : BitVec 6) (x : W64) : Statement (.contextEnable ctx x) := fun h => Bool.noConfusion h

theorem contextDisable (ctx : BitVec 6) (x : W64) : Statement (.contextDisable ctx x) := fun h => Bool.noConfusion h

theorem ogctlGo (g : Nat) (x : W64) : Statement (.ogctlGo g x) := fun h => Bool.noConfusion h

theorem drainingMarkAck (g core : Nat) : Statement (.drainingMarkAck g core) := fun h => Bool.noConfusion h

theorem ogDrainDone (g : Nat) : Statement (.ogDrainDone g) := fun h => Bool.noConfusion h

theorem ogDrainTimeout (g : Nat) : Statement (.ogDrainTimeout g) := fun h => Bool.noConfusion h

theorem ogDarkTimer (g : Nat) : Statement (.ogDarkTimer g) := fun h => Bool.noConfusion h

theorem ogTrainUp (g : Nat) (lanes : BitVec 16) : Statement (.ogTrainUp g lanes) := fun h => Bool.noConfusion h

theorem ogTrainTimeout (g : Nat) : Statement (.ogTrainTimeout g) := fun h => Bool.noConfusion h

theorem ogMappingDone (g : Nat) : Statement (.ogMappingDone g) := fun h => Bool.noConfusion h

theorem moduleReset (bad : Option (BitVec 3)) : Statement (.moduleReset bad) := fun h => Bool.noConfusion h

theorem registerWrite (off : Nat) (x : W64) : Statement (.registerWrite off x) := fun h => Bool.noConfusion h

theorem scarabWrite (id : Nat) (e : ScarabEffect) : Statement (.scarabWrite id e) := fun h => Bool.noConfusion h

theorem bflipSetCtx (x : W64) : Statement (.bflipSetCtx x) := fun h => Bool.noConfusion h

theorem bflipToHost (x : W64) : Statement (.bflipToHost x) := fun h => Bool.noConfusion h

theorem bflipToDev (x : W64) : Statement (.bflipToDev x) := fun h => Bool.noConfusion h

theorem bflipReserved (x : W64) : Statement (.bflipReserved x) := fun h => Bool.noConfusion h

theorem d2hDrainComplete (page : Nat) : Statement (.d2hDrainComplete page) := fun h => Bool.noConfusion h

theorem h2dDrainComplete (page : Nat) : Statement (.h2dDrainComplete page) := fun h => Bool.noConfusion h

theorem biasSnoopTimeout (line : Nat) : Statement (.biasSnoopTimeout line) := fun h => Bool.noConfusion h

theorem memrd (pa : Nat) (cache : Bool) : Statement (.memrd pa cache) := fun h => Bool.noConfusion h

theorem memwr (pa : Nat) (data : List Byte) : Statement (.memwr pa data) := fun h => Bool.noConfusion h

theorem birsp (line : Nat) (shared : Bool) (writeback : Option (List Byte)) : Statement (.birsp line shared writeback) := fun h => Bool.noConfusion h

theorem bisnpdataMonitor (line : Nat) : Statement (.bisnpdataMonitor line) := fun h => Bool.noConfusion h

theorem poolBisnpinv (line : Nat) : Statement (.poolBisnpinv line) := fun h => Bool.noConfusion h

theorem poolBisnpdata (line : Nat) : Statement (.poolBisnpdata line) := fun h => Bool.noConfusion h

theorem linkDown (g link : Nat) : Statement (.linkDown g link) := fun h => Bool.noConfusion h

theorem meshLinkFail (link : Nat) (parts : BitVec 4) : Statement (.meshLinkFail link parts) := fun h => Bool.noConfusion h

theorem cdieFence (die : BitVec 3) : Statement (.cdieFence die) := fun h => Bool.noConfusion h

theorem poisonErrorEvict (die : BitVec 3) (ctx pa : Nat) (twin : Bool) : Statement (.poisonErrorEvict die ctx pa twin) := fun h => Bool.noConfusion h

theorem reductionContribution (red who : Nat) (x : Contribution) : Statement (.reductionContribution red who x) := fun h => Bool.noConfusion h

theorem reductionTimeout (red : Nat) : Statement (.reductionTimeout red) := fun h => Bool.noConfusion h

theorem measext (x : W64) : Statement (.measext x) := fun h => Bool.noConfusion h

theorem meassel (x : W64) : Statement (.meassel x) := fun h => Bool.noConfusion h

theorem attcmdGo (x : W64) : Statement (.attcmdGo x) := fun h => Bool.noConfusion h

theorem quoteDone : Statement (.quoteDone) := fun h => Bool.noConfusion h

theorem pwrreq (x : W64) : Statement (.pwrreq x) := fun h => Bool.noConfusion h

theorem powerCapThrottle : Statement (.powerCapThrottle) := fun h => Bool.noConfusion h

theorem fireflyBeacon : Statement (.fireflyBeacon) := fun h => Bool.noConfusion h

theorem retm (x : W64) : Statement (.retm x) := fun h => Bool.noConfusion h

theorem uncorrectableError (site : ErrSite) : Statement (.uncorrectableError site) := fun h => Bool.noConfusion h

theorem linkRetrain (g link : Nat) : Statement (.linkRetrain g link) := fun h => Bool.noConfusion h

theorem peerTransaction (g port : Nat) (pa : Nat) (op : PeerReq) : Statement (.peerTransaction g port pa op) := fun h => Bool.noConfusion h

end Sys2Proof.Laws.RoundTrip
end

