-- ==== Sys2Proof/Laws/Regs.lean ====
section
/-! SUPPORT. What the register writes do: the register named and every other register, after vector, scalar and predicate writes. -/

namespace Sys2Proof.Machine

theorem get_setLanes_aux {α : Type} [DecidableEq α] (d : α) (r : Nat) (f : Nat → α) (ls : List Nat) (hl : ∀ x ∈ ls, x < 32) (t : Tab α) (k : Nat) :
    Tab.get d (ls.foldl (fun t l => Tab.set d t (32 * r + l) (f l)) t) k =
      if k / 32 = r ∧ k % 32 ∈ ls then f (k % 32) else Tab.get d t k := by
  induction ls generalizing t with
  | nil => simp
  | cons x xs ih =>
    have hx := hl x List.mem_cons_self
    rw [List.foldl_cons, ih (fun y hy => hl y (List.mem_cons_of_mem _ hy)), Tab.get_set]
    by_cases h : k = 32 * r + x
    · have h1 : k / 32 = r := by omega
      have h2 : k % 32 = x := by omega
      simp only [h1, h2, true_and, if_pos h, List.mem_cons, true_or, if_true]
      split <;> rfl
    · by_cases h1 : k / 32 = r
      · have h2 : k % 32 ≠ x := by omega
        simp [h, h1, h2]
      · simp [h, h1]

section
variable (w : Warp) (lat r : Nat) (m : Mask)

/-- A vector write changes the named register in the lanes of the mask and no other. -/
theorem vreg_writeV (f : Nat → W32) (q l : Nat) (hl : l < 32) :
    (w.writeV lat r m f).vreg q l = if q = r ∧ inMask m l then f l else w.vreg q l := by
  unfold Warp.writeV Warp.vreg
  have := get_setLanes_aux (0 : W32) r f (maskLanes m) (fun x hx => inMask_lt (mem_maskLanes.1 hx)) w.v (32 * q + l)
  rw [show (32 * q + l) / 32 = q by omega, show (32 * q + l) % 32 = l by omega] at this
  simpa only [mem_maskLanes] using this

@[simp] theorem sreg_writeV (f : Nat → W32) (q : Nat) : (w.writeV lat r m f).sreg q = w.sreg q := rfl
@[simp] theorem preg_writeV (f : Nat → W32) (q l : Nat) : (w.writeV lat r m f).preg q l = w.preg q l := rfl

/-- Writing a register ends the poison of the lanes written. -/
theorem mem_vPoison_writeV (f : Nat → W32) (k : Nat) :
    k ∈ (w.writeV lat r m f).vPoison ↔ k ∈ w.vPoison ∧ ¬ (k / 32 = r ∧ inMask m (k % 32) = true) := by
  simp only [Warp.writeV, List.mem_filter, Bool.not_eq_true', Bool.and_eq_false_iff, beq_eq_false_iff_ne]
  by_cases h : k / 32 = r <;> cases inMask m (k % 32) <;> simp [h]

/-- A scalar write changes the named scalar; s0 stays zero. -/
theorem sreg_writeS (x : W64) (q : Nat) : (w.writeS lat r m x).sreg q = if q = r ∧ q ≠ 0 then x else w.sreg q := by
  unfold Warp.writeS Warp.sreg sregOf
  by_cases h0 : r = 0
  · subst h0
    by_cases hq : q = 0 <;> simp [hq]
  · by_cases hq : q = 0
    · subst hq; simp
    · by_cases hr : q = r
      · subst hr; simp [h0, Tab.get_set]
      · simp [h0, hq, hr, Tab.get_set]

@[simp] theorem vreg_writeS (x : W64) (q l : Nat) : (w.writeS lat r m x).vreg q l = w.vreg q l := by
  unfold Warp.writeS; split <;> rfl

@[simp] theorem preg_writeS (x : W64) (q l : Nat) : (w.writeS lat r m x).preg q l = w.preg q l := by
  unfold Warp.writeS; split <;> rfl

/-- A predicate write changes the named predicate in the lanes of the mask; p7 stays true. -/
theorem preg_writeP (f : Nat → Bool) (q l : Nat) :
    (w.writeP lat r m f).preg q l = if q = r ∧ q ≠ 7 ∧ inMask m l then f l else w.preg q l := by
  unfold Warp.writeP Warp.preg
  by_cases h7 : r = 7
  · subst h7
    by_cases hq : q = 7 <;> simp [hq]
  · by_cases hq : q = 7
    · subst hq; simp
    · by_cases hr : q = r
      · subst hr
        simp only [h7, if_false, Tab.get_set, if_true]
        cases hm : inMask m l
        · simp only [inMask_or, inMask_and, inMask_not, hm]
          by_cases hl : l < 32
          · simp [hl]
          · have : inMask (Tab.get 0 w.p q) l = false := by
              cases h : inMask (Tab.get 0 w.p q) l
              · rfl
              · exact absurd (inMask_lt h) hl
            simpa [hl] using this
        · simp [hm, inMask_lt hm, inMask_not, hq]
      · simp [h7, hq, hr, Tab.get_set]

@[simp] theorem vreg_writeP (f : Nat → Bool) (q l : Nat) : (w.writeP lat r m f).vreg q l = w.vreg q l := by
  unfold Warp.writeP; split <;> rfl

@[simp] theorem sreg_writeP (f : Nat → Bool) (q : Nat) : (w.writeP lat r m f).sreg q = w.sreg q := by
  unfold Warp.writeP; split <;> rfl

end

end Sys2Proof.Machine
end

