-- ==== Sys2Proof/Laws/Wf.lean ====
section
/-! SUPPORT. The canonical form of memory is kept by every operation that writes memory: bytes at a home, the runs of a packet, a frame's contents moved, a word placed. Nothing else assigns memory. -/

namespace Sys2Proof.Machine

theorem pokeHome_wf {s : State} (key : Nat) (bs : List Byte) (h : Memory.wf s.mem = true) : Memory.wf (s.pokeHome key bs).mem = true :=
  wf_writeBytes key bs h

theorem writeHome_wf {s : State} (key : Nat) (bs : List Byte) (h : Memory.wf s.mem = true) : Memory.wf (s.writeHome key bs).mem = true :=
  wf_writeBytes key bs h

theorem poke8_wf {s : State} (pa x : Nat) (h : Memory.wf s.mem = true) : Memory.wf (s.poke8 pa x).mem = true :=
  wf_writeBytes (cellOf pa) (natToBytes 8 x) h

theorem writeRuns_wf {s : State} (runs : List (Nat × List Byte)) (h : Memory.wf s.mem = true) : Memory.wf (s.writeRuns runs).mem = true := by
  rw [writeRuns_mem]
  generalize s.mem = m at h
  induction runs generalizing m with
  | nil => exact h
  | cons r rs ih => exact ih _ (wf_writeBytes r.1 r.2 h)

/-- Entries of a canonical memory put elsewhere: no value of them is the value of an unlisted byte. -/
theorem wf_foldl_put {m l : Tab Byte} (f : Nat × Byte → Nat) (hl : ∀ e ∈ l, e.2 ≠ 0) (h : Tab.wf 0 m = true) :
    Tab.wf 0 (l.foldl (fun m e => Tab.put m (f e) e.2) m) = true := by
  induction l generalizing m with
  | nil => exact h
  | cons e l ih =>
    exact ih (fun x hx => hl x (List.mem_cons_of_mem _ hx)) (Tab.wf_put (f e) (hl e List.mem_cons_self) h)

theorem moveFrame_wf {s : State} (src dst : Nat) (swap : Bool) (h : Memory.wf s.mem = true) : Memory.wf (s.moveFrame src dst swap).mem = true := by
  have v : ∀ (p : Nat × Byte → Bool), ∀ e ∈ s.mem.filter p, e.2 ≠ 0 := by
    intro p e he
    have h2 := (Bool.and_eq_true _ _ ▸ h : Tab.risingFrom 0 s.mem = true ∧ s.mem.all (fun e => decide (e.2 ≠ 0)) = true).2
    exact of_decide_eq_true (List.all_eq_true.1 h2 e (List.mem_filter.1 he).1)
  unfold State.moveFrame
  dsimp only
  split
  · exact wf_foldl_put _ (v _) (wf_foldl_put _ (v _) (Tab.wf_filter _ h))
  · exact wf_foldl_put _ (v _) (wf_foldl_put _ (v _) (Tab.wf_filter _ h))

end Sys2Proof.Machine
end

