-- ==== Sys2Proof/Safety.lean ====
section
/-! DEFINITION. What counts as a safe step: no trap of the SV7 stops the model, so only the model's own faults and refusals do. -/

namespace Sys2Proof

/-- The step answers a next state. -/
def stepsOn (s : Machine.State) : Prop := ∃ t, Machine.step s = .next t

/-- The machine goes on for n steps. -/
def runsOn : Nat → Machine.State → Prop
  | 0, _ => True
  | n + 1, s => ∃ t, Machine.step s = .next t ∧ runsOn n t

end Sys2Proof
end

