-- ==== Sys2Proof/Tests/Slice0.lean ====
section
/-! SUPPORT. Tests: what the checks of well-formedness refuse, the decoder on words written out from the encoding tables, results the manual's examples give, and for each statement a case that meets all its hypotheses. -/

namespace Sys2Proof.Tests

open Sys2Proof.Machine Sys2Proof.Claims

set_option Elab.async false

/-! Well-formedness: one ill-formed term, or more, for each check. -/

/-- The guard 0xF, in a word of each kind (R81). -/
theorem test_wf_refuses_guard : ∀ i ∈ ([
    .nop ⟨1, 0xF⟩,
    .bnz ⟨1, 0xF⟩ 1 0,
    .tstat ⟨1, 0xF⟩ 1 0,
    .movh ⟨1, 0xF⟩ 1 0,
    .sIadd ⟨1, 0xF⟩ 1 2 (.reg 3),
    .iadd ⟨1, 0xF⟩ 3 (.v 4) (.v 5),
    .pcomb ⟨1, 0xF⟩ .and 1 2 3,
    .fence ⟨1, 0xF⟩ false .dev,
    .tfree ⟨1, 0xF⟩ 1,
    .qstat ⟨1, 0xF⟩ 1 false] : List Instr), i.wf = false := by decide

/-- qa as a destination, qm as a source, and queues where none may stand (R91, R97). -/
theorem test_wf_refuses_queues : ∀ i ∈ ([
    .iadd ⟨1, 7⟩ 254 (.v 4) (.v 5),
    .iadd ⟨1, 7⟩ 3 (.v 255) (.v 5),
    .imad ⟨1, 7⟩ 3 (.v 4) (.v 5) (.v 255),
    .hadd2 ⟨1, 7⟩ false .rn false 3 (.v 254) (.v 5),
    .hfma2 ⟨1, 7⟩ false .rn false 3 (.v 4) (.v 5) (.v 254),
    .shflXor ⟨1, 7⟩ false 255 4 1,
    .shflIdxReg ⟨1, 7⟩ false 3 4 254,
    .scan ⟨1, 7⟩ false .add true 3 254,
    .redux ⟨1, 7⟩ false .add 3 254,
    .ld ⟨1, 7⟩ false .w32 .dev 254 ⟨2, 0xFF, .x1, 0⟩,
    .packp ⟨1, 7⟩ false (.v 254) 1 0 0,
    .unpackp ⟨1, 7⟩ false 255 1 0 0,
    .mtsr ⟨1, 7⟩ 13 (.v 254),
    .relN ⟨1, 7⟩ false false 254 2 0] : List Instr), i.wf = false := by decide

/-- Odd pairs, the pair that is the queues, quads that are not aligned or reach past the registers (R90). -/
theorem test_wf_refuses_pairs : ∀ i ∈ ([
    .faddF64 ⟨1, 7⟩ .rn false 3 (.v 4) (.v 6),
    .faddF64 ⟨1, 7⟩ .rn false 254 (.v 4) (.v 6),
    .ffmaF64 ⟨1, 7⟩ .rn false 2 (.v 4) (.v 6) (.v 9),
    .fcmpF64 ⟨1, 7⟩ .eq 1 (.v 5) (.v 6),
    .call ⟨1, 7⟩ 7 0,
    .ret ⟨1, 7⟩ 254,
    .ld ⟨1, 7⟩ false .w64 .dev 3 ⟨2, 0xFF, .x1, 0⟩,
    .ld ⟨1, 7⟩ false .w128 .dev 6 ⟨2, 0xFF, .x1, 0⟩,
    .ld ⟨1, 7⟩ false .w128 .dev 252 ⟨2, 0xFF, .x1, 0⟩,
    .relN ⟨1, 7⟩ false true 3 2 0,
    .mfsr ⟨1, 7⟩ (.v 3) 0x0C] : List Instr), i.wf = false := by decide

/-- IDX 254, IDX 255 with a scale, width 256, sign-extending stores, wide scopes in scratch (R86, R88, R138). -/
theorem test_wf_refuses_memory : ∀ i ∈ ([
    .ld ⟨1, 7⟩ false .w32 .dev 3 ⟨2, 254, .x1, 0⟩,
    .ld ⟨1, 7⟩ false .w32 .dev 3 ⟨2, 0xFF, .x2, 0⟩,
    .ld ⟨1, 7⟩ false .w256 .dev 0 ⟨2, 0xFF, .x1, 0⟩,
    .st ⟨1, 7⟩ false .s8 .dev 3 ⟨2, 0xFF, .x1, 0⟩,
    .st ⟨1, 7⟩ false .s16 .dev 3 ⟨2, 0xFF, .x1, 0⟩,
    .ldScr ⟨1, 7⟩ false .w32 .cl 3 ⟨2, 0xFF, .x1, 0⟩,
    .stScr ⟨1, 7⟩ false .w32 .sys 3 ⟨2, 0xFF, .x1, 0⟩,
    .stPrv ⟨1, 7⟩ false .s16 3 ⟨2, 0xFF, .x1, 0⟩,
    .copyStart ⟨1, 7⟩ false 0 2 0,
    .copyStart ⟨1, 7⟩ false 6 2 0] : List Instr), i.wf = false := by decide

/-- A wide scope in scratch, an index scaled without an index, odd pairs, and a 64-bit FP32 addition (R147, R148). -/
theorem test_wf_refuses_atomics : ∀ i ∈ ([
    .atomAdd ⟨1, 7⟩ false ⟨2, 0xFF, .x1, .cl, true, false⟩ 3 4,
    .redAdd ⟨1, 7⟩ false ⟨2, 255, .x16, .dev, false, false⟩ 3,
    .atomAdd ⟨1, 7⟩ false ⟨2, 0xFF, .x1, .dev, false, true⟩ 3 4,
    .atomCas ⟨1, 7⟩ false ⟨2, 0xFF, .x1, .dev, false, true⟩ 2 4 7,
    .atomFadd ⟨1, 7⟩ false ⟨2, 0xFF, .x1, .dev, false, true⟩ 2 4,
    .redFadd ⟨1, 7⟩ false ⟨2, 0xFF, .x1, .dev, false, true⟩ 2] : List Instr), i.wf = false := by decide

/-- Unsigned comparisons of FP numbers (R86, R110). -/
theorem test_wf_refuses_compares : ∀ i ∈ ([
    .fcmp ⟨1, 7⟩ .ltu 1 (.v 3) (.v 4),
    .fcmpF64 ⟨1, 7⟩ .geu 1 (.v 2) (.v 4)] : List Instr), i.wf = false := by decide

/-- Two slots, a rounding mode or saturation with a slot, a slot number without one, odd pairs (R202). -/
theorem test_wf_refuses_cvt : ∀ i ∈ ([
    .cvt ⟨1, 7⟩ false .rn false .slot .slot 1 3 (.v 4),
    .cvt ⟨1, 7⟩ false .rz false .slot .f32 1 3 (.v 4),
    .cvt ⟨1, 7⟩ false .rn true .slot .f32 1 3 (.v 4),
    .cvt ⟨1, 7⟩ false .rn false .f16 .f32 1 3 (.v 4),
    .cvt ⟨1, 7⟩ false .rn false .f64 .f32 0 3 (.v 4),
    .cvt ⟨1, 7⟩ false .rn false .f32 .s64 0 3 (.v 5)] : List Instr), i.wf = false := by decide

/-- MWAIT at .sys, or in scratch at .dev, and PUBLISH at .cl (R162, R179). -/
theorem test_wf_refuses_scopes : ∀ i ∈ ([
    .mwait ⟨1, 7⟩ false false false .sys .eq 2 0 (.imm 0),
    .mwait ⟨1, 7⟩ false true false .dev .eq 2 0 (.imm 0),
    .publish ⟨1, 7⟩ false .cl 0 2 0] : List Instr), i.wf = false := by decide

/-- A triple that starts inside a quad, a clear past the eighth tile, a loop that goes forward (R189, R190, R196). -/
theorem test_wf_refuses_stream : ∀ i ∈ ([
    .mmaP 2 1 0 0,
    .mclr 7 1,
    .mloop 3 5] : List Instr), i.wf = false := by decide

/-- Per-thread selectors into a scalar, and YIELD's quota of no registers (R67, R207, R211). -/
theorem test_wf_refuses_system : ∀ i ∈ ([
    .mfsr ⟨1, 7⟩ (.s 3) 0,
    .mfsr ⟨1, 7⟩ (.s 3) 9,
    .yield ⟨1, 7⟩ 0 8] : List Instr), i.wf = false := by decide

/-- Operands of events out of their ranges: cores, slices, groups, links, ports; command registers with another OP, GO or EN. -/
theorem test_wf_refuses_events : ∀ i ∈ ([
    .clauseStart 192 0,
    .clauseStart 0 4,
    .clusterPull 0 3 [],
    .clusterRestore 0 0 3 [],
    .trapRecordEnqueue 192,
    .jump 192 0,
    .bflipSetCtx 0x4000000000000000,
    .bflipToHost 0,
    .bflipToDev 0xC000000000000000,
    .bflipReserved 0,
    .ctmigBringNear 0 0x4000000000000000,
    .ctmigMoveFar 0 0,
    .ctmigOffline 0 0,
    .ctmigReserved 0 0,
    .contextEnable 0 0,
    .contextDisable 0 1,
    .ogctlGo 12 0x80,
    .ogctlGo 0 0,
    .drainingMarkAck 0 192,
    .ogTrainUp 12 0,
    .linkDown 0 2,
    .linkRetrain 12 0,
    .peerTransaction 0 4 0 ⟨0, .read 1⟩,
    .attcmdGo 0] : List Instr), i.wf = false := by decide

/-! Decoding: every instruction word, written out from the encoding tables of the manual (R75, R81-R93). -/

/-- Control and team words, class 0 (R93). -/
theorem test_decode_control :
    decode 0x000E000000000000#64 = some (.nop ⟨0, 7⟩) ∧
    decode 0x010E0000FFFFFFED#64 = some (.bra ⟨0, 7⟩ 0xFFFFFFED) ∧
    decode 0x010E003100000005#64 = some (.bnz ⟨0, 7⟩ 6 5) ∧
    decode 0x010E003200000005#64 = some (.bz ⟨0, 7⟩ 6 5) ∧
    decode 0x020E100000000009#64 = some (.call ⟨0, 7⟩ 8 9) ∧
    decode 0x030E100000000000#64 = some (.ret ⟨0, 7⟩ 8) ∧
    decode 0x040E000000000000#64 = some (.exit ⟨0, 7⟩) ∧
    decode 0x050E000000000009#64 = some (.tcall ⟨0, 7⟩ 9) ∧
    decode 0x060E000000000009#64 = some (.tcallW ⟨0, 7⟩ 9) ∧
    decode 0x070E000000000000#64 = some (.tret ⟨0, 7⟩) ∧
    decode 0x080E000000000000#64 = some (.tquit ⟨0, 7⟩) ∧
    decode 0x090E410000000000#64 = some (.tstat ⟨0, 7⟩ 8 1) ∧
    decode 0x090E408000000000#64 = some (.tstatCancel ⟨0, 7⟩ 8) ∧
    decode 0x0A0E000000000000#64 = some (.tbar ⟨0, 7⟩) := by decide +kernel

/-- Scalar words, class 0 (R93, R100). -/
theorem test_decode_scalar :
    decode 0x10421002C0000000#64 = some (.sMov ⟨2, 1⟩ 2 (.reg 11)) ∧
    decode 0x110E101001234567#64 = some (.movh ⟨0, 7⟩ 2 0x01234567) ∧
    decode 0x130E30D000000001#64 = some (.sIsub ⟨0, 7⟩ 6 6 (.imm 1)) ∧
    decode 0x120E10E2C0000000#64 = some (.sIadd ⟨0, 7⟩ 2 7 (.reg 11)) ∧
    decode 0x130E10E2C0000000#64 = some (.sIsub ⟨0, 7⟩ 2 7 (.reg 11)) ∧
    decode 0x140E10E2C0000000#64 = some (.sMul ⟨0, 7⟩ 2 7 (.reg 11)) ∧
    decode 0x150E10E2C0000000#64 = some (.sMulhu ⟨0, 7⟩ 2 7 (.reg 11)) ∧
    decode 0x160E10E2C0000000#64 = some (.sAnd ⟨0, 7⟩ 2 7 (.reg 11)) ∧
    decode 0x170E10E2C0000000#64 = some (.sOr ⟨0, 7⟩ 2 7 (.reg 11)) ∧
    decode 0x180E10E2C0000000#64 = some (.sXor ⟨0, 7⟩ 2 7 (.reg 11)) ∧
    decode 0x190E10E2C0000000#64 = some (.sShl ⟨0, 7⟩ 2 7 (.reg 11)) ∧
    decode 0x1A0E10E2C0000000#64 = some (.sShr ⟨0, 7⟩ 2 7 (.reg 11)) ∧
    decode 0x1B0E10E2C0000000#64 = some (.sSar ⟨0, 7⟩ 2 7 (.reg 11)) ∧
    decode 0x1C0E10E2C0000000#64 = some (.sMin ⟨0, 7⟩ 2 7 (.reg 11)) ∧
    decode 0x1D0E10E2C0000000#64 = some (.sMax ⟨0, 7⟩ 2 7 (.reg 11)) ∧
    decode 0x1E0E10E2E0000000#64 = some (.sset ⟨0, 7⟩ .gtu 2 7 11) ∧
    decode 0x1F0E10E000000000#64 = some (.sPopc ⟨0, 7⟩ 2 7) ∧
    decode 0x200E10E000000000#64 = some (.sClz ⟨0, 7⟩ 2 7) := by decide +kernel

/-- Vector integer words, class 1 (R93, R101). -/
theorem test_decode_integer :
    decode 0x300E060A00000000#64 = some (.mov ⟨0, 7⟩ 3 (.v 5)) ∧
    decode 0x310E06000000001C#64 = some (.movImm ⟨0, 7⟩ 3 0x1C) ∧
    decode 0x320E060A12000000#64 = some (.iadd ⟨0, 7⟩ 3 (.v 5) (.v 9)) ∧
    decode 0x330E060A0000001C#64 = some (.iaddImm ⟨0, 7⟩ 3 (.v 5) 0x1C) ∧
    decode 0x340E060A12000000#64 = some (.isub ⟨0, 7⟩ 3 (.v 5) (.v 9)) ∧
    decode 0x350E060A0000001C#64 = some (.isubImm ⟨0, 7⟩ 3 (.v 5) 0x1C) ∧
    decode 0x360E060A12000000#64 = some (.mul ⟨0, 7⟩ 3 (.v 5) (.v 9)) ∧
    decode 0x370E060A0000001C#64 = some (.mulImm ⟨0, 7⟩ 3 (.v 5) 0x1C) ∧
    decode 0x380E060A12000000#64 = some (.mulhu ⟨0, 7⟩ 3 (.v 5) (.v 9)) ∧
    decode 0x390E060A0000001C#64 = some (.mulhuImm ⟨0, 7⟩ 3 (.v 5) 0x1C) ∧
    decode 0x3A0E060A12000000#64 = some (.mulhi ⟨0, 7⟩ 3 (.v 5) (.v 9)) ∧
    decode 0x3B0E060A0000001C#64 = some (.mulhiImm ⟨0, 7⟩ 3 (.v 5) 0x1C) ∧
    decode 0x3C0FFFFC12224000#64 = some (.imad ⟨0, 7⟩ 255 (.v 254) (.s 9) (.v 17)) ∧
    decode 0x3E0E060A12000000#64 = some (.and ⟨0, 7⟩ 3 (.v 5) (.v 9)) ∧
    decode 0x3F0E060A0000001C#64 = some (.andImm ⟨0, 7⟩ 3 (.v 5) 0x1C) ∧
    decode 0x400E060A12000000#64 = some (.or ⟨0, 7⟩ 3 (.v 5) (.v 9)) ∧
    decode 0x410E060A0000001C#64 = some (.orImm ⟨0, 7⟩ 3 (.v 5) 0x1C) ∧
    decode 0x420E060A12000000#64 = some (.xor ⟨0, 7⟩ 3 (.v 5) (.v 9)) ∧
    decode 0x430E060A0000001C#64 = some (.xorImm ⟨0, 7⟩ 3 (.v 5) 0x1C) ∧
    decode 0x440E060A12000000#64 = some (.shl ⟨0, 7⟩ 3 (.v 5) (.v 9)) ∧
    decode 0x450E060A0000001C#64 = some (.shlImm ⟨0, 7⟩ 3 (.v 5) 0x1C) ∧
    decode 0x460E060A12000000#64 = some (.shr ⟨0, 7⟩ 3 (.v 5) (.v 9)) ∧
    decode 0x470E060A0000001C#64 = some (.shrImm ⟨0, 7⟩ 3 (.v 5) 0x1C) ∧
    decode 0x480E060A12000000#64 = some (.sar ⟨0, 7⟩ 3 (.v 5) (.v 9)) ∧
    decode 0x490E060A0000001C#64 = some (.sarImm ⟨0, 7⟩ 3 (.v 5) 0x1C) ∧
    decode 0x4A0E060A12000002#64 = some (.min ⟨0, 7⟩ true 3 (.v 5) (.v 9)) ∧
    decode 0x4B0E060A12000000#64 = some (.max ⟨0, 7⟩ false 3 (.v 5) (.v 9)) ∧
    decode 0x4C0E060A120C0000#64 = some (.sel ⟨0, 7⟩ 3 (.v 5) (.v 9) 6) ∧
    decode 0x4D0E060A00000000#64 = some (.popc ⟨0, 7⟩ 3 (.v 5)) ∧
    decode 0x4E0E060A00000000#64 = some (.clz ⟨0, 7⟩ 3 (.v 5)) ∧
    decode 0x4F0E060A00000000#64 = some (.brev ⟨0, 7⟩ 3 (.v 5)) := by decide +kernel

/-- FP32, FP64 and packed words, classes 1 and 2 (R93, R103-R106). -/
theorem test_decode_float :
    decode 0x506E4C4C40000000#64 = some (.fadd ⟨3, 7⟩ .rn false 38 (.v 38) (.v 32)) ∧
    decode 0x510E060A12001200#64 = some (.fsub ⟨0, 7⟩ .rna true 3 (.v 5) (.v 9)) ∧
    decode 0x520E060A12000400#64 = some (.fmul ⟨0, 7⟩ .rz false 3 (.v 5) (.v 9)) ∧
    decode 0x530E060A12228800#64 = some (.ffma ⟨0, 7⟩ .ru false 3 (.s 5) (.v 9) (.v 17)) ∧
    decode 0x540E060A12000000#64 = some (.fmin ⟨0, 7⟩ 3 (.v 5) (.v 9)) ∧
    decode 0x550E060A12000000#64 = some (.fmax ⟨0, 7⟩ 3 (.v 5) (.v 9)) ∧
    decode 0x600E04080C000C00#64 = some (.faddF64 ⟨0, 7⟩ .rd false 2 (.v 4) (.v 6)) ∧
    decode 0x610E04080C000C00#64 = some (.fsubF64 ⟨0, 7⟩ .rd false 2 (.v 4) (.v 6)) ∧
    decode 0x620E04080C000C00#64 = some (.fmulF64 ⟨0, 7⟩ .rd false 2 (.v 4) (.v 6)) ∧
    decode 0x630E04080C102200#64 = some (.ffmaF64 ⟨0, 7⟩ .rn true 2 (.v 4) (.v 6) (.s 8)) ∧
    decode 0x640E04080C000000#64 = some (.fminF64 ⟨0, 7⟩ 2 (.v 4) (.v 6)) ∧
    decode 0x650E04080C000000#64 = some (.fmaxF64 ⟨0, 7⟩ 2 (.v 4) (.v 6)) ∧
    decode 0x680E060A12000402#64 = some (.hadd2 ⟨0, 7⟩ true .rz false 3 (.v 5) (.v 9)) ∧
    decode 0x690E060A12000402#64 = some (.hsub2 ⟨0, 7⟩ true .rz false 3 (.v 5) (.v 9)) ∧
    decode 0x6A0E060A12000402#64 = some (.hmul2 ⟨0, 7⟩ true .rz false 3 (.v 5) (.v 9)) ∧
    decode 0x6B0E060A12220200#64 = some (.hfma2 ⟨0, 7⟩ false .rn true 3 (.v 5) (.v 9) (.v 17)) ∧
    decode 0x6C0E060A12000000#64 = some (.hmin2 ⟨0, 7⟩ false 3 (.v 5) (.v 9)) ∧
    decode 0x6D0E060A12000002#64 = some (.hmax2 ⟨0, 7⟩ true 3 (.v 5) (.v 9)) := by decide +kernel

/-- SFU, conversion and block words, class 3, compares and predicates (R93, R107-R111). -/
theorem test_decode_sfu :
    decode 0x700E060A00000001#64 = some (.rcp ⟨0, 7⟩ true 3 (.v 5)) ∧
    decode 0x710E060A00000001#64 = some (.rsqrt ⟨0, 7⟩ true 3 (.v 5)) ∧
    decode 0x720E060A00000001#64 = some (.sqrt ⟨0, 7⟩ true 3 (.v 5)) ∧
    decode 0x730E060A00000001#64 = some (.ex2 ⟨0, 7⟩ true 3 (.v 5)) ∧
    decode 0x740E060A00000001#64 = some (.lg2 ⟨0, 7⟩ true 3 (.v 5)) ∧
    decode 0x750E060A00000001#64 = some (.sin ⟨0, 7⟩ true 3 (.v 5)) ∧
    decode 0x760E060A00000001#64 = some (.cos ⟨0, 7⟩ true 3 (.v 5)) ∧
    decode 0x780E121000000152#64 = some (.cvt ⟨0, 7⟩ false .rn false .f16 .f32 0 9 (.v 8)) ∧
    decode 0x790E060A00040000#64 = some (.pack4 ⟨0, 7⟩ false 3 (.v 5) 2) ∧
    decode 0x7A0E060A00040000#64 = some (.unpack4 ⟨0, 7⟩ false 3 (.v 5) 2) ∧
    decode 0x7B0E060A00000400#64 = some (.frnd ⟨0, 7⟩ false .rz 3 (.v 5)) ∧
    decode 0x800E020A12000012#64 = some (.icmp ⟨0, 7⟩ .geu 1 (.v 5) (.v 9)) ∧
    decode 0x810E620A00000007#64 = some (.icmpImm ⟨0, 7⟩ .le 1 (.v 5) 7) ∧
    decode 0x820E020A12000004#64 = some (.fcmp ⟨0, 7⟩ .lt 1 (.v 5) (.v 9)) ∧
    decode 0x830E02080C00000A#64 = some (.fcmpF64 ⟨0, 7⟩ .ge 1 (.v 4) (.v 6)) ∧
    decode 0x840E020406000006#64 = some (.pcomb ⟨0, 7⟩ .andn 1 2 3) := by decide +kernel

/-- Lane exchange words, class 4 (R93, R112-R116). -/
theorem test_decode_exchange :
    decode 0x900E2A2800000002#64 = some (.shflXor ⟨0, 7⟩ false 21 20 1) ∧
    decode 0x910E2A2800000002#64 = some (.shflUp ⟨0, 7⟩ false 21 20 1) ∧
    decode 0x920E2A2800000002#64 = some (.shflDown ⟨0, 7⟩ false 21 20 1) ∧
    decode 0x930E2A2800000002#64 = some (.shflIdx ⟨0, 7⟩ false 21 20 1) ∧
    decode 0x940E2A2812000000#64 = some (.shflIdxReg ⟨0, 7⟩ false 21 20 9) ∧
    decode 0x950E020400000000#64 = some (.voteAll ⟨0, 7⟩ false 1 2) ∧
    decode 0x950E020400000002#64 = some (.voteAny ⟨0, 7⟩ false 1 2) ∧
    decode 0x950E120400010004#64 = some (.voteBallot ⟨0, 7⟩ false 9 2) ∧
    decode 0x960E060A00000034#64 = some (.scan ⟨0, 7⟩ false .maxu true 3 5) ∧
    decode 0x970E120A0001000A#64 = some (.redux ⟨0, 7⟩ false .xor 9 5) := by decide +kernel

/-- Loads and stores, class 5 (R93, R138-R142, R35). -/
theorem test_decode_memory :
    decode 0xA00E06080A040000#64 = some (.ld ⟨0, 7⟩ false .w32 .th 3 { base := 1, idx := 1, scl := .x4, off := 0 }) ∧
    decode 0xA10E08080A450000#64 = some (.ldScr ⟨0, 7⟩ false .w64 .wg 4 { base := 1, idx := 1, scl := .x4, off := 0 }) ∧
    decode 0xA20E08080A060000#64 = some (.ldCon ⟨0, 7⟩ false .w128 4 { base := 1, idx := 1, scl := .x4, off := 0 }) ∧
    decode 0xA30E06080A030000#64 = some (.ldPrv ⟨0, 7⟩ false .s16 3 { base := 1, idx := 1, scl := .x4, off := 0 }) ∧
    decode 0xA40E0C180A040000#64 = some (.st ⟨0, 7⟩ false .w32 .th 6 { base := 3, idx := 1, scl := .x4, off := 0 }) ∧
    decode 0xA4000E27F8A40000#64 = some (.st ⟨0, 0⟩ false .w32 .dev 7 { base := 4, idx := 0xFF, scl := .x1, off := 0 }) ∧
    decode 0xA40E184FF80700C0#64 = some (.copyStart ⟨0, 7⟩ false 12 9 0xC0) ∧
    decode 0xA50E06080A000000#64 = some (.stScr ⟨0, 7⟩ false .u8 .th 3 { base := 1, idx := 1, scl := .x4, off := 0 }) ∧
    decode 0xA60E06080A020000#64 = some (.stPrv ⟨0, 7⟩ false .u16 3 { base := 1, idx := 1, scl := .x4, off := 0 }) ∧
    decode 0xA70E1227F8C5FFF8#64 = some (.lds ⟨0, 7⟩ false .sys 9 4 0xFFF8) := by decide +kernel

/-- Atomics and reductions, class 6 (R93, R147). -/
theorem test_decode_atomic :
    decode 0xB00E12200AA40700#64 = some (.atomAdd ⟨0, 7⟩ false { base := 4, idx := 1, scl := .x4, sc := .dev, scr := false, wide := false } 9 7) ∧
    decode 0xB10E12200AA40700#64 = some (.atomMin ⟨0, 7⟩ false { base := 4, idx := 1, scl := .x4, sc := .dev, scr := false, wide := false } 9 7) ∧
    decode 0xB20E12200AA40700#64 = some (.atomMax ⟨0, 7⟩ false { base := 4, idx := 1, scl := .x4, sc := .dev, scr := false, wide := false } 9 7) ∧
    decode 0xB30E12200AA40700#64 = some (.atomMinu ⟨0, 7⟩ false { base := 4, idx := 1, scl := .x4, sc := .dev, scr := false, wide := false } 9 7) ∧
    decode 0xB40E12200AA40700#64 = some (.atomMaxu ⟨0, 7⟩ false { base := 4, idx := 1, scl := .x4, sc := .dev, scr := false, wide := false } 9 7) ∧
    decode 0xB50E12200AA40700#64 = some (.atomAnd ⟨0, 7⟩ false { base := 4, idx := 1, scl := .x4, sc := .dev, scr := false, wide := false } 9 7) ∧
    decode 0xB60E12200AA40700#64 = some (.atomOr ⟨0, 7⟩ false { base := 4, idx := 1, scl := .x4, sc := .dev, scr := false, wide := false } 9 7) ∧
    decode 0xB70E12200AA40700#64 = some (.atomXor ⟨0, 7⟩ false { base := 4, idx := 1, scl := .x4, sc := .dev, scr := false, wide := false } 9 7) ∧
    decode 0xB80E12200AA40700#64 = some (.atomExch ⟨0, 7⟩ false { base := 4, idx := 1, scl := .x4, sc := .dev, scr := false, wide := false } 9 7) ∧
    decode 0xB90E1427F85D0E10#64 = some (.atomCas ⟨0, 7⟩ true { base := 4, idx := 0xFF, scl := .x1, sc := .wg, scr := true, wide := true } 10 14 16) ∧
    decode 0xBA0E12200AA40700#64 = some (.atomFadd ⟨0, 7⟩ false { base := 4, idx := 1, scl := .x4, sc := .dev, scr := false, wide := false } 9 7) ∧
    decode 0xBB0E12200AA40000#64 = some (.redAdd ⟨0, 7⟩ false { base := 4, idx := 1, scl := .x4, sc := .dev, scr := false, wide := false } 9) ∧
    decode 0xBC0E12200AA40000#64 = some (.redMin ⟨0, 7⟩ false { base := 4, idx := 1, scl := .x4, sc := .dev, scr := false, wide := false } 9) ∧
    decode 0xBD0E12200AA40000#64 = some (.redMax ⟨0, 7⟩ false { base := 4, idx := 1, scl := .x4, sc := .dev, scr := false, wide := false } 9) ∧
    decode 0xBE0E12200AA40000#64 = some (.redFadd ⟨0, 7⟩ false { base := 4, idx := 1, scl := .x4, sc := .dev, scr := false, wide := false } 9) ∧
    decode 0xBF0E12200AA40000#64 = some (.redOr ⟨0, 7⟩ false { base := 4, idx := 1, scl := .x4, sc := .dev, scr := false, wide := false } 9) := by decide +kernel

/-- Order and synchronisation words, class 6 (R93, R152-R163). -/
theorem test_decode_order :
    decode 0xC00E000000A00000#64 = some (.fence ⟨0, 7⟩ false .dev) ∧
    decode 0xC10E000000A00000#64 = some (.acq ⟨0, 7⟩ false .dev) ∧
    decode 0xC20E000000A00000#64 = some (.rel ⟨0, 7⟩ false .dev) ∧
    decode 0xC30E102000A50008#64 = some (.relN ⟨0, 7⟩ false true 8 4 8) ∧
    decode 0xC40E000000000011#64 = some (.bar ⟨0, 7⟩ false 17) ∧
    decode 0xC50E000000000011#64 = some (.barArrive ⟨0, 7⟩ false 17) ∧
    decode 0xC60E000000000011#64 = some (.barWait ⟨0, 7⟩ false 17) ∧
    decode 0xC70E000000000011#64 = some (.pbarArrive ⟨0, 7⟩ false 17) ∧
    decode 0xC80E000000000011#64 = some (.pbarWait ⟨0, 7⟩ false 17) ∧
    decode 0xC90E002408A40000#64 = some (.mwait ⟨0, 7⟩ false false false .dev .eq 4 0 (.imm 1)) ∧
    decode 0xC90E1220304D0008#64 = some (.mwait ⟨0, 7⟩ false true true .wg .geu 4 8 (.reg 6)) := by decide +kernel

/-- Copy and tile words, and plane packing, class 7 (R93, R174-R179, R198, R199). -/
theorem test_decode_tile :
    decode 0xD00E00C500000000#64 = some (.cwait ⟨0, 7⟩ false 10 6 0) ∧
    decode 0xD00E00050B000001#64 = some (.cwaitTile ⟨0, 7⟩ false 10 5 true) ∧
    decode 0xD10E48C500000000#64 = some (.ctest ⟨0, 7⟩ false 9 10 6 0) ∧
    decode 0xD10E48050B000000#64 = some (.ctestTile ⟨0, 7⟩ false 9 10 5 false) ∧
    decode 0xD20E010080A00000#64 = some (.publish ⟨0, 7⟩ false .dev 1 8 0) ∧
    decode 0xD30E00C50A000200#64 = some (.tdef ⟨0, 7⟩ false 5 6 0x200 10) ∧
    decode 0xD40E00000A100000#64 = some (.twait ⟨0, 7⟩ true 5) ∧
    decode 0xD50E00000A000000#64 = some (.tfree ⟨0, 7⟩ 5) ∧
    decode 0xEA0E000A0C024006#64 = some (.packp ⟨0, 7⟩ false (.v 5) 6 1 3) ∧
    decode 0xEB0E0A000C024006#64 = some (.unpackp ⟨0, 7⟩ false 5 6 1 3) := by decide +kernel

/-- Matrix-stream words, class 8 (R93, R188-R197). -/
theorem test_decode_stream :
    decode 0xE00E020280000000#64 = some (.mldb 2 5) ∧
    decode 0xE10E020080300000#64 = some (.mmaP 0 2 1 3) ∧
    decode 0xE20EC00000200000#64 = some (.mclr 3 2) ∧
    decode 0xE30EC00000084000#64 = some (.mscl 3 33) ∧
    decode 0xE40EC00300087FF8#64 = some (.accst 3 33 0x3FF8 6) ∧
    decode 0xE50EC00300084008#64 = some (.accld 3 33 8 6) ∧
    decode 0xE60E400003F00000#64 = some (.accq 1 63) ∧
    decode 0xE70E000010000002#64 = some (.mbarArrive 2) ∧
    decode 0xE70E000000000001#64 = some (.mbarWait 1) ∧
    decode 0xE80E000000103FFB#64 = some (.mloop 1 0x3FFB) ∧
    decode 0xE90E000000000000#64 = some (.mend) := by decide +kernel

/-- System words, class 9 (R93, R205-R215). -/
theorem test_decode_system :
    decode 0xF00E020000000000#64 = some (.mfsr ⟨0, 7⟩ (.v 1) 0) ∧
    decode 0xF10E000A0000801A#64 = some (.mtsr ⟨0, 7⟩ 0x0D (.s 5)) ∧
    decode 0xF20E000000000418#64 = some (.yield ⟨0, 7⟩ 4 24) ∧
    decode 0xF30E000000001234#64 = some (.syscall ⟨0, 7⟩ 0x1234) ∧
    decode 0xF40E000000001234#64 = some (.trap ⟨0, 7⟩ 0x1234) ∧
    decode 0xF50E000000001234#64 = some (.brk ⟨0, 7⟩ 0x1234) ∧
    decode 0xF60E0627F8000080#64 = some (.ipf ⟨0, 7⟩ 4 0x80 3) ∧
    decode 0xF70E003000000002#64 = some (.regq ⟨0, 7⟩ 0 1 2) ∧
    decode 0xF80E0027F8800080#64 = some (.cctlWb ⟨0, 7⟩ .die 4 0x80) ∧
    decode 0xF80E0227F8800080#64 = some (.cctlInv ⟨0, 7⟩ .die 4 0x80) ∧
    decode 0xF80E0427F8800080#64 = some (.cctlWbinv ⟨0, 7⟩ .die 4 0x80) ∧
    decode 0xF90E480004000000#64 = some (.qstat ⟨0, 7⟩ 9 true) := by decide +kernel

/-- The header of R27's example: class 1, 16 instructions, waiting on f0, no set. -/
theorem test_decode_header : isHeader 0xFC7C004000000000#64 = true ∧ headerOk 0xFC7C004000000000#64 = true ∧
    parseHeader 0xFC7C004000000000#64 = ⟨1, 15, 1, false, 0, false, 0⟩ := by decide

/-! States for the witnesses. -/

/-- The state after reset in which i's word is placed where the next step fetches it. -/
@[irreducible] def at0 (i : Instr) : State := State.reset.withFetchWord 64 (encode i).toNat

/-- The view of the warp that holds the issue. -/
@[irreducible] def vw (s : State) : View :=
  match s.curView with
  | some v => v
  | none => ⟨0, launchWarp (placedGrid false) 0 0 0, 0, launchWg (placedGrid false) 0 0 0, 0,
      { grid := 0, clid := 0, die := 0, group := 0, st := .resident, frame := 0, frameLen := 0, marked := false, swapped := false,
        offeredAt := 0, published := false }, 0, placedGrid false⟩

theorem vw_eq {s : State} (h : s.curView.isSome = true) : s.curView = some (vw s) := by
  unfold vw; split
  · assumption
  · rename_i h'; rw [h'] at h; cases h

/-- The conditions of Ready, as tests. -/
@[irreducible] def readyB (i : Instr) (h : Head) (pre : Pre) (s : State) : Bool :=
  s.curView.isSome && (vw s).w.hazards.isEmpty && decide (enabled (vw s) h ≠ 0) &&
    decide (pre.check (vw s) (vw s).w.split (encode i) = none) && decide (pre.waits (vw s) = none) && decide ((vw s).w.cost ≤ (vw s).w.budget) && decide ((vw s).w.gone = none)

theorem ready_of {i : Instr} {h : Head} {pre : Pre} {s : State} (r : readyB i h pre s = true) : Ready i h pre s (vw s) := by
  unfold readyB at r; simp only [Bool.and_eq_true, decide_eq_true_eq, List.isEmpty_iff] at r
  obtain ⟨⟨⟨⟨⟨⟨a, b⟩, c⟩, d⟩, e⟩, f⟩, g⟩ := r
  exact ⟨vw_eq a, (by rw [b]; intro z hz; cases hz), c, d, e, f, (by rw [g]; intro _ _ hg; cases hg)⟩

theorem clean_of {v : View} {h : Head} {regs : List Nat} (p : v.w.vPoison.isEmpty = true) : Clean v h regs := by
  intro l r _ _; rw [List.isEmpty_iff.mp p]; exact List.not_mem_nil

/-- A value word is ready at its placed state. -/
def valueB (f : Instr → Option ValueRow) (i : Instr) : Bool :=
  match f i with
  | some row => readyB i row.head (valuePre none row.dst row.os) (at0 i) && (vw (at0 i)).w.vPoison.isEmpty
  | none => false

theorem value_of {f : Instr → Option ValueRow} {i : Instr} (h : valueB f i = true) :
    ∃ row, f i = some row ∧ ValueReady i row (at0 i) (vw (at0 i)) := by
  unfold valueB at h; split at h
  · rename_i row hr; rw [Bool.and_eq_true] at h; exact ⟨row, hr, ready_of h.1, clean_of h.2⟩
  · cases h

theorem values_of {f : Instr → Option ValueRow} {is : List Instr} (h : is.all (valueB f) = true) :
    ∀ i ∈ is, ∃ row, f i = some row ∧ ValueReady i row (at0 i) (vw (at0 i)) :=
  fun i hi => value_of (List.all_eq_true.mp h i hi)

/-! Results that the manual's examples give. -/

/-- The warp of the issuing state, changed. -/
def withWarp (i : Instr) (f : Warp → Warp) : State := { at0 i with warps := (at0 i).warps.map (fun e => (e.1, f e.2)) }

/-- The state that an outcome goes on with. -/
def goes (x : Host.Outcome State Fault Refusal) : State :=
  match x with
  | .next s => s
  | _ => State.reset

/-- Warp 0 after one word. -/
def warpAfter (i : Instr) (f : Warp → Warp) : Warp := (vw (goes (exec i (withWarp i f)))).w

/-- R100's example: movh completes 0x0123_4567_89AB_CDEF. -/
theorem test_movh : (warpAfter (.movh ⟨0, 7⟩ 9 0x01234567) (fun w => { w with s := Tab.put w.s 9 0x89ABCDEF })).sreg 9 = 0x0123456789ABCDEF#64 := by decide +kernel

/-- A scalar of an immediate, from the example before it. -/
theorem test_mov_imm : (warpAfter (.sMov ⟨0, 7⟩ 9 (.imm 0x89ABCDEF)) id).sreg 9 = 0x89ABCDEF#64 := by decide +kernel

/-- Lane 31 of the operands and the result of R106's examples. -/
def hadd2After (rnd : Rnd) (sat : Bool) : W32 × BitVec 6 :=
  let w := warpAfter (.hadd2 ⟨0, 7⟩ false rnd sat 3 (.v 4) (.v 5))
    (fun w => { w with v := Tab.put (Tab.put w.v (32 * 4 + 31) 0x3C007BFF#32) (32 * 5 + 31) 0x3C003C00#32 })
  (w.vreg 3 31, w.fpflags)

/-- R106's examples: NX; OF and NX; SAT, OF and NX. -/
theorem test_hadd2 : hadd2After .rn false = (0x40007BFF#32, 0x10#6) ∧ hadd2After .ru false = (0x40007C00#32, 0x14#6) ∧ hadd2After .ru true = (0x40007BFF#32, 0x34#6) := by
  decide +kernel

/-- The values that a long-latency word has in flight for lanes 0 to 7, where lanes 0 to 7 alone are enabled and v4 holds 3, 9, 5, 2, 7, 1, 4, 6. -/
def exchanged (i : Instr) : List W64 :=
  let f := fun (w : Warp) => { w with
    p := Tab.put w.p 1 0xFF#32
    v := [(128, 3#32), (129, 9#32), (130, 5#32), (131, 2#32), (132, 7#32), (133, 1#32), (134, 4#32), (135, 6#32)] }
  match Tab.look (goes (exec i (withWarp i f))).ops 1 with
  | some o => (match o.kind with
    | .regs _ _ vals _ => (List.range 8).map (fun l => Tab.get 0 vals l)
    | _ => [])
  | none => []

/-- R116's table of examples: the scans. -/
theorem test_scan : exchanged (.scan ⟨0, 1⟩ false .add true 3 4) = [3, 12, 17, 19, 26, 27, 31, 37] ∧
    exchanged (.scan ⟨0, 1⟩ false .add false 3 4) = [0, 3, 12, 17, 19, 26, 27, 31] ∧
    exchanged (.scan ⟨0, 1⟩ false .min true 3 4) = [3, 3, 3, 2, 2, 1, 1, 1] ∧
    exchanged (.scan ⟨0, 1⟩ false .min false 3 4) = [0x7FFFFFFF, 3, 3, 3, 2, 2, 1, 1] := by decide +kernel

/-- R203's examples of conversions of FP32 numbers; an s8 is sign-extended (R202). -/
theorem test_cvt : convert .rn false .f16 .f32 0x3F801000 = (0x3C00, flNX) ∧ (convert .ru false .f16 .f32 0x3F801000).1 = 0x3C01 ∧
    convert .rn false .s8 .f32 0xC3960000 = (0xFFFFFF80, flNV) ∧ convert .rn true .s8 .f32 0xC3960000 = (0xFFFFFF80, flNV ||| flSAT) := by decide +kernel

/-- The slot and the scale byte of the examples of R229 and R230: FP32, 5 planes, SBASE 0x7000, SHIFT 2; 0x2034 has its scale at 0x780D. -/
theorem test_slot : slotOf 0x4A00400000000007#64 = ⟨9, 5, .rn, false, 2, 0x7000⟩ ∧ (slotOf 0x4A00400000000007#64).scaleAddr 0x2034 = 0x780D ∧
    slotOf 0x9785000000000000#64 = ⟨18, 16, .rn, false, 40, 0⟩ := by decide

/-- R335's example of a private address: offset 20 of lane 3, warp 2, workgroup 0, cluster 1. -/
theorem test_private : (Run.of ((at0 (.nop ⟨0, 7⟩)).setCtx 0 { Ctx.reset with prvb := 0x40, prvg := 0x100, psz := 256 })
    { vw (at0 (.nop ⟨0, 7⟩)) with cl := { grid := 0, clid := 1, die := 0, group := 0, st := .resident, frame := 0, frameLen := 0, marked := false, swapped := false, offeredAt := 0, published := false }, w := { (vw (at0 (.nop ⟨0, 7⟩))).w with wid := 2 } } ⟨0, 7⟩).privateVa 1 20 3 = 0x0160428C := by
  decide +kernel

/-! Witnesses: for each statement with hypotheses, a state and operands that meet them. -/

/-- Obligations.IntResults: each of its instructions meets the hypotheses. -/
theorem witness_IntResults : ∀ i ∈ ([.mov ⟨1, 7⟩ 8 (.v 8),
     .movImm ⟨1, 7⟩ 8 0x40,
     .iadd ⟨1, 7⟩ 8 (.v 8) (.v 12),
     .iaddImm ⟨1, 7⟩ 8 (.v 8) 0x40,
     .isub ⟨1, 7⟩ 8 (.v 8) (.v 12),
     .isubImm ⟨1, 7⟩ 8 (.v 8) 0x40,
     .mul ⟨1, 7⟩ 8 (.v 8) (.v 12),
     .mulImm ⟨1, 7⟩ 8 (.v 8) 0x40,
     .mulhu ⟨1, 7⟩ 8 (.v 8) (.v 12),
     .mulhuImm ⟨1, 7⟩ 8 (.v 8) 0x40,
     .mulhi ⟨1, 7⟩ 8 (.v 8) (.v 12),
     .mulhiImm ⟨1, 7⟩ 8 (.v 8) 0x40,
     .imad ⟨1, 7⟩ 8 (.v 8) (.v 12) (.v 16),
     .and ⟨1, 7⟩ 8 (.v 8) (.v 12),
     .andImm ⟨1, 7⟩ 8 (.v 8) 0x40,
     .or ⟨1, 7⟩ 8 (.v 8) (.v 12),
     .orImm ⟨1, 7⟩ 8 (.v 8) 0x40,
     .xor ⟨1, 7⟩ 8 (.v 8) (.v 12),
     .xorImm ⟨1, 7⟩ 8 (.v 8) 0x40,
     .shl ⟨1, 7⟩ 8 (.v 8) (.v 12),
     .shlImm ⟨1, 7⟩ 8 (.v 8) 0x40,
     .shr ⟨1, 7⟩ 8 (.v 8) (.v 12),
     .shrImm ⟨1, 7⟩ 8 (.v 8) 0x40,
     .sar ⟨1, 7⟩ 8 (.v 8) (.v 12),
     .sarImm ⟨1, 7⟩ 8 (.v 8) 0x40,
     .min ⟨1, 7⟩ false 8 (.v 8) (.v 12),
     .max ⟨1, 7⟩ false 8 (.v 8) (.v 12),
     .sel ⟨1, 7⟩ 8 (.v 8) (.v 12) 1,
     .popc ⟨1, 7⟩ 8 (.v 8),
     .clz ⟨1, 7⟩ 8 (.v 8),
     .brev ⟨1, 7⟩ 8 (.v 8)] : List Instr),
    ∃ row, intRow i = some row ∧ ValueReady i row (at0 i) (vw (at0 i)) :=
  values_of (by decide +kernel)

/-- Obligations.Fp32Results: each of its instructions meets the hypotheses. -/
theorem witness_Fp32Results : ∀ i ∈ ([.fadd ⟨1, 7⟩ .rn false 8 (.v 8) (.v 12),
     .fsub ⟨1, 7⟩ .rn false 8 (.v 8) (.v 12),
     .fmul ⟨1, 7⟩ .rn false 8 (.v 8) (.v 12),
     .ffma ⟨1, 7⟩ .rn false 8 (.v 8) (.v 12) (.v 16),
     .fmin ⟨1, 7⟩ 8 (.v 8) (.v 12),
     .fmax ⟨1, 7⟩ 8 (.v 8) (.v 12)] : List Instr),
    ∃ row, fp32Row i = some row ∧ ValueReady i row (at0 i) (vw (at0 i)) :=
  values_of (by decide +kernel)

/-- Obligations.Fp64Results: each of its instructions meets the hypotheses. -/
theorem witness_Fp64Results : ∀ i ∈ ([.faddF64 ⟨1, 7⟩ .rn false 8 (.v 8) (.v 12),
     .fsubF64 ⟨1, 7⟩ .rn false 8 (.v 8) (.v 12),
     .fmulF64 ⟨1, 7⟩ .rn false 8 (.v 8) (.v 12),
     .ffmaF64 ⟨1, 7⟩ .rn false 8 (.v 8) (.v 12) (.v 16),
     .fminF64 ⟨1, 7⟩ 8 (.v 8) (.v 12),
     .fmaxF64 ⟨1, 7⟩ 8 (.v 8) (.v 12)] : List Instr),
    ∃ row, fp64Row i = some row ∧ ValueReady i row (at0 i) (vw (at0 i)) :=
  values_of (by decide +kernel)

/-- Obligations.PackedResults: each of its instructions meets the hypotheses. -/
theorem witness_PackedResults : ∀ i ∈ ([.hadd2 ⟨1, 7⟩ false .rn false 8 (.v 8) (.v 12),
     .hsub2 ⟨1, 7⟩ false .rn false 8 (.v 8) (.v 12),
     .hmul2 ⟨1, 7⟩ false .rn false 8 (.v 8) (.v 12),
     .hfma2 ⟨1, 7⟩ false .rn false 8 (.v 8) (.v 12) (.v 16),
     .hmin2 ⟨1, 7⟩ false 8 (.v 8) (.v 12),
     .hmax2 ⟨1, 7⟩ false 8 (.v 8) (.v 12)] : List Instr),
    ∃ row, packedRow i = some row ∧ ValueReady i row (at0 i) (vw (at0 i)) :=
  values_of (by decide +kernel)

/-- Obligations.PredResults: each of its instructions meets the hypotheses. -/
theorem witness_PredResults : ∀ i ∈ ([.icmp ⟨1, 7⟩ .eq 1 (.v 4) (.v 8),
     .icmpImm ⟨1, 7⟩ .eq 1 (.v 4) 0x40,
     .fcmp ⟨1, 7⟩ .eq 1 (.v 4) (.v 8),
     .fcmpF64 ⟨1, 7⟩ .eq 1 (.v 4) (.v 8),
     .pcomb ⟨1, 7⟩ .and 1 1 1] : List Instr),
    ∃ row, predRow i = some row ∧ ValueReady i row (at0 i) (vw (at0 i)) :=
  values_of (by decide +kernel)

def scalarB (i : Instr) : Bool :=
  match scalarRow (vw (at0 i)) i with
  | some (h, _, _) => readyB i h Pre.none (at0 i)
  | none => false

/-- Obligations.ScalarResults. -/
theorem witness_ScalarResults : ∀ i ∈ ([.tstat ⟨1, 7⟩ 1 1,
     .tstatCancel ⟨1, 7⟩ 1,
     .sMov ⟨1, 7⟩ 1 (.reg 3),
     .movh ⟨1, 7⟩ 1 1,
     .sIadd ⟨1, 7⟩ 1 1 (.reg 3),
     .sIsub ⟨1, 7⟩ 1 1 (.reg 3),
     .sMul ⟨1, 7⟩ 1 1 (.reg 3),
     .sMulhu ⟨1, 7⟩ 1 1 (.reg 3),
     .sAnd ⟨1, 7⟩ 1 1 (.reg 3),
     .sOr ⟨1, 7⟩ 1 1 (.reg 3),
     .sXor ⟨1, 7⟩ 1 1 (.reg 3),
     .sShl ⟨1, 7⟩ 1 1 (.reg 3),
     .sShr ⟨1, 7⟩ 1 1 (.reg 3),
     .sSar ⟨1, 7⟩ 1 1 (.reg 3),
     .sMin ⟨1, 7⟩ 1 1 (.reg 3),
     .sMax ⟨1, 7⟩ 1 1 (.reg 3),
     .sset ⟨1, 7⟩ .eq 1 1 1,
     .sPopc ⟨1, 7⟩ 1 1,
     .sClz ⟨1, 7⟩ 1 1,
     .qstat ⟨1, 7⟩ 1 false] : List Instr),
    ∃ h d x, scalarRow (vw (at0 i)) i = some (h, d, x) ∧ Ready i h Pre.none (at0 i) (vw (at0 i)) := by
  have h : ([.tstat ⟨1, 7⟩ 1 1,
     .tstatCancel ⟨1, 7⟩ 1,
     .sMov ⟨1, 7⟩ 1 (.reg 3),
     .movh ⟨1, 7⟩ 1 1,
     .sIadd ⟨1, 7⟩ 1 1 (.reg 3),
     .sIsub ⟨1, 7⟩ 1 1 (.reg 3),
     .sMul ⟨1, 7⟩ 1 1 (.reg 3),
     .sMulhu ⟨1, 7⟩ 1 1 (.reg 3),
     .sAnd ⟨1, 7⟩ 1 1 (.reg 3),
     .sOr ⟨1, 7⟩ 1 1 (.reg 3),
     .sXor ⟨1, 7⟩ 1 1 (.reg 3),
     .sShl ⟨1, 7⟩ 1 1 (.reg 3),
     .sShr ⟨1, 7⟩ 1 1 (.reg 3),
     .sSar ⟨1, 7⟩ 1 1 (.reg 3),
     .sMin ⟨1, 7⟩ 1 1 (.reg 3),
     .sMax ⟨1, 7⟩ 1 1 (.reg 3),
     .sset ⟨1, 7⟩ .eq 1 1 1,
     .sPopc ⟨1, 7⟩ 1 1,
     .sClz ⟨1, 7⟩ 1 1,
     .qstat ⟨1, 7⟩ 1 false] : List Instr).all scalarB = true := by decide +kernel
  intro i hi
  have h := List.all_eq_true.mp h i hi
  unfold scalarB at h; split at h
  · exact ⟨_, _, _, ‹_›, ready_of h⟩
  · cases h

/-! Memory mapped for the witnesses: a data page at VA 0x2000, an aperture page at VA 0x3000, a 64 KiB window at VA 0x10000, which is also the private memory of context 0. -/

/-- Memory that holds the tables of those pages, a team table at VA 0x1010 (R62) and copy template 0 (R71: one byte from VA 0x2200 to VA 0x2300). -/
def mem1 : List (Nat × BitVec 8) :=
  [(0x10000001000, 0x1), (0x10000001001, 0x10), (0x10000001002, 0x1), (0x10000002010, 0x1), (0x10000002018, 0x4), (0x1000000201f, 0x5), (0x10000002020, 0x6), (0x10000003005, 0xb0), (0x10000003009, 0x22), (0x10000003011, 0x23), (0x10000003018, 0x8), (0x10000003019, 0x21), (0x10000003028, 0x1), (0x11000001000, 0x1), (0x11000001001, 0x20), (0x11000001002, 0x1)] ++
   [(0x12000001000, 0x1), (0x12000001001, 0x30), (0x12000001002, 0x1), (0x13000001000, 0x1), (0x13000001001, 0x40), (0x13000001002, 0x1), (0x14000001008, 0x2b), (0x1400000100a, 0x2), (0x14000001010, 0x2f), (0x14000001012, 0x3), (0x14000001018, 0x27), (0x14000001019, 0x3), (0x14000001080, 0x2f), (0x14000001082, 0x4), (0x14000001088, 0x2f), (0x14000001089, 0x10)] ++
   [(0x1400000108a, 0x4), (0x14000001090, 0x2f), (0x14000001091, 0x20), (0x14000001092, 0x4), (0x14000001098, 0x2f), (0x14000001099, 0x30), (0x1400000109a, 0x4), (0x140000010a0, 0x2f), (0x140000010a1, 0x40), (0x140000010a2, 0x4), (0x140000010a8, 0x2f), (0x140000010a9, 0x50), (0x140000010aa, 0x4), (0x140000010b0, 0x2f), (0x140000010b1, 0x60), (0x140000010b2, 0x4)] ++
   [(0x140000010b8, 0x2f), (0x140000010b9, 0x70), (0x140000010ba, 0x4), (0x140000010c0, 0x2f), (0x140000010c1, 0x80), (0x140000010c2, 0x4), (0x140000010c8, 0x2f), (0x140000010c9, 0x90), (0x140000010ca, 0x4), (0x140000010d0, 0x2f), (0x140000010d1, 0xa0), (0x140000010d2, 0x4), (0x140000010d8, 0x2f), (0x140000010d9, 0xb0), (0x140000010da, 0x4), (0x140000010e0, 0x2f)] ++
   [(0x140000010e1, 0xc0), (0x140000010e2, 0x4), (0x140000010e8, 0x2f), (0x140000010e9, 0xd0), (0x140000010ea, 0x4), (0x140000010f0, 0x2f), (0x140000010f1, 0xe0), (0x140000010f2, 0x4), (0x140000010f8, 0x2f), (0x140000010f9, 0xf0), (0x140000010fa, 0x4)]

/-- The placed state with that memory, a constant window, private memory, tile 1 and a slot of a block format. -/
@[irreducible] def at1 (i : Instr) : State :=
  let s : State := { at0 i with mem := mem1 }
  let s := s.setCtx 0 { s.ctxAt 0 with prvb := 1, prvg := 1, psz := 32, conb := 0, conn := 3, tplb := 2 }
  let g := placedGrid false
  let s := s.setGrid 0 { g with slot := some 0, words := g.words.set 9 0x8180000000000000#64 }
  let s := s.modWg 0 (fun wg => { wg with tiles := Tab.put wg.tiles 1 { st := .filling, base := 0, count := 128, bits := 0 } })
  s.modWarp 0 (fun w => { w with s := [(2, 0x2000)], pair := some { a := 0x80000001#32, b := 0, turnB := false } })

@[irreducible] def isOk : Site → Bool
  | .ok _ _ => true
  | _ => false

@[irreducible] def siteAt : Site → Nat × Nat
  | .ok key va => (key, va)
  | _ => (0, 0)

theorem site_of {x : Site} (h : isOk x = true) : x = .ok (siteAt x).1 (siteAt x).2 := by
  unfold isOk at h; unfold siteAt; split at h
  · rfl
  · cases h

/-- Lanes 0 and 31, which the split at1 has, pass a test. -/
theorem lanes_of {p : Nat → Bool} {m : Mask} (hm : m = 0x80000001#32) (h : p 0 = true ∧ p 31 = true) (l : Nat) (hl : inMask m l = true) : p l = true := by
  have h2 : ∀ k, k < 32 → inMask 0x80000001#32 k = true → k = 0 ∨ k = 31 := by decide
  rcases h2 l (inMask_lt hl) (hm ▸ hl) with rfl | rfl
  · exact h.1
  · exact h.2

/-- Obligations.SfuResults. -/
theorem witness_SfuResults : ∀ i ∈ ([.rcp ⟨1, 7⟩ false 8 (.v 8),
     .rsqrt ⟨1, 7⟩ false 8 (.v 8),
     .sqrt ⟨1, 7⟩ false 8 (.v 8),
     .ex2 ⟨1, 7⟩ false 8 (.v 8),
     .lg2 ⟨1, 7⟩ false 8 (.v 8),
     .sin ⟨1, 7⟩ false 8 (.v 8),
     .cos ⟨1, 7⟩ false 8 (.v 8),
     .frnd ⟨1, 7⟩ false .rn 8 (.v 8),
     .cvt ⟨1, 7⟩ false .rn false .s32 .f32 0 8 (.v 8)] : List Instr),
    ∃ row, sfuRow (vw (at1 i)) i = some row ∧ Ready i row.head row.pre (at1 i) (vw (at1 i)) ∧ row.clean := by
  intro i hi
  simp only [List.mem_cons, List.not_mem_nil, or_false] at hi
  rcases hi with rfl | rfl | rfl | rfl | rfl | rfl | rfl | rfl | rfl <;>
    exact ⟨_, rfl, ready_of (by decide +kernel), clean_of (by decide +kernel)⟩

/-- Obligations.BlockResults, under a slot of format 16. -/
theorem witness_BlockResults : ∀ i ∈ ([.pack4 ⟨1, 7⟩ false 8 (.v 8) 1,
     .unpack4 ⟨1, 7⟩ false 8 (.v 8) 1] : List Instr),
    ∃ row, blockRow (vw (at1 i)) i = some row ∧ Ready i row.head row.pre (at1 i) (vw (at1 i)) ∧ row.clean := by
  intro i hi
  simp only [List.mem_cons, List.not_mem_nil, or_false] at hi
  rcases hi with rfl | rfl
  · exact ⟨_, rfl, ready_of (by decide +kernel), by decide +kernel, by decide +kernel, clean_of (by decide +kernel)⟩
  · exact ⟨_, rfl, ready_of (by decide +kernel), by decide +kernel, by decide +kernel,
      fun l r _ _ => by rw [show (vw (at1 (.unpack4 ⟨1, 7⟩ false 8 (.v 8) 1))).w.vPoison = [] by decide +kernel]; exact List.not_mem_nil, by decide +kernel⟩

theorem no_poison {i : Instr} (h : (vw (at1 i)).w.vPoison.isEmpty = true) (k : Nat) : k ∉ (vw (at1 i)).w.vPoison := by
  rw [List.isEmpty_iff.mp h]; exact List.not_mem_nil

/-- Obligations.ExchangeResults. -/
theorem witness_ExchangeResults : ∀ i ∈ ([.shflXor ⟨1, 7⟩ false 8 16 1,
     .shflUp ⟨1, 7⟩ false 8 16 1,
     .shflDown ⟨1, 7⟩ false 8 16 1,
     .shflIdx ⟨1, 7⟩ false 8 16 1,
     .shflIdxReg ⟨1, 7⟩ false 8 16 20,
     .voteAll ⟨1, 7⟩ false 1 1,
     .voteAny ⟨1, 7⟩ false 1 1,
     .voteBallot ⟨1, 7⟩ false 1 1,
     .scan ⟨1, 7⟩ false .add false 8 16,
     .redux ⟨1, 7⟩ false .add 1 12,
     .ctestTile ⟨1, 7⟩ false 1 1 1 false] : List Instr),
    ∃ row, exchangeRow (vw (at1 i)) i = some row ∧ Ready i row.head row.pre (at1 i) (vw (at1 i)) ∧ row.clean := by
  intro i hi
  simp only [List.mem_cons, List.not_mem_nil, or_false] at hi
  rcases hi with rfl | rfl | rfl | rfl | rfl | rfl | rfl | rfl | rfl | rfl | rfl
  iterate 5 exact ⟨_, rfl, ready_of (by decide +kernel), fun l _ => no_poison (by decide +kernel) _, clean_of (by decide +kernel), by decide +kernel⟩
  iterate 3 exact ⟨_, rfl, ready_of (by decide +kernel), trivial⟩
  iterate 2 exact ⟨_, rfl, ready_of (by decide +kernel), clean_of (by decide +kernel)⟩
  · have h : Tab.look (vw (at1 (.ctestTile ⟨1, 7⟩ false 1 1 1 false))).wg.tiles (BitVec.toNat (1 : BitVec 6)) =
      some { st := .filling, base := 0, count := 128, bits := 0 } := by decide +kernel
    refine ⟨?row, ?eq, ?a, ?b⟩
    case eq => simp only [exchangeRow]; rw [h]
    case a => exact ready_of (by decide +kernel)
    case b => exact ⟨show (128 : Nat) ≠ 0 by decide, .inl rfl⟩

def memB (i : Instr) : Bool :=
  match memRow (vw (at1 i)) i with
  | some row => i.wf && readyB i row.head (Pre.long row.fsel row.regs) (at1 i) && (vw (at1 i)).w.vPoison.isEmpty &&
      decide (enabled (vw (at1 i)) row.head = 0x80000001#32) &&
      isOk (row.site (Run.of (at1 i) (vw (at1 i)) row.head) (row.addr 0) 0) && isOk (row.site (Run.of (at1 i) (vw (at1 i)) row.head) (row.addr 31) 31)
  | none => false

/-- Obligations.MemoryWords. -/
theorem witness_MemoryWords : ∀ i ∈ ([.ld ⟨1, 7⟩ false .w32 .dev 8 ⟨2, 0xFF, .x1, 0⟩,
     .ldCon ⟨1, 7⟩ false .w32 8 ⟨2, 0xFF, .x1, 0⟩,
     .st ⟨1, 7⟩ false .w32 .dev 8 ⟨2, 0xFF, .x1, 0⟩,
     .stScr ⟨1, 7⟩ false .w32 .wg 8 ⟨2, 0xFF, .x1, 0⟩,
     .atomAdd ⟨1, 7⟩ false ⟨2, 0xFF, .x1, .dev, false, false⟩ 8 16,
     .atomCas ⟨1, 7⟩ false ⟨2, 0xFF, .x1, .dev, false, false⟩ 8 16 20,
     .redAdd ⟨1, 7⟩ false ⟨2, 0xFF, .x1, .dev, false, false⟩ 8,
     .redOr ⟨1, 7⟩ false ⟨2, 0xFF, .x1, .dev, false, false⟩ 8] : List Instr),
    ∃ row at_, i.wf = true ∧ memRow (vw (at1 i)) i = some row ∧ Ready i row.head (Pre.long row.fsel row.regs) (at1 i) (vw (at1 i)) ∧
      Clean (vw (at1 i)) row.head row.reads ∧ row.Passes (at1 i) (vw (at1 i)) at_ := by
  have h : ([.ld ⟨1, 7⟩ false .w32 .dev 8 ⟨2, 0xFF, .x1, 0⟩,
     .ldCon ⟨1, 7⟩ false .w32 8 ⟨2, 0xFF, .x1, 0⟩,
     .st ⟨1, 7⟩ false .w32 .dev 8 ⟨2, 0xFF, .x1, 0⟩,
     .stScr ⟨1, 7⟩ false .w32 .wg 8 ⟨2, 0xFF, .x1, 0⟩,
     .atomAdd ⟨1, 7⟩ false ⟨2, 0xFF, .x1, .dev, false, false⟩ 8 16,
     .atomCas ⟨1, 7⟩ false ⟨2, 0xFF, .x1, .dev, false, false⟩ 8 16 20,
     .redAdd ⟨1, 7⟩ false ⟨2, 0xFF, .x1, .dev, false, false⟩ 8,
     .redOr ⟨1, 7⟩ false ⟨2, 0xFF, .x1, .dev, false, false⟩ 8] : List Instr).all memB = true := by decide +kernel
  intro i hi
  have h := List.all_eq_true.mp h i hi
  unfold memB at h; split at h
  · rename_i row hr
    simp only [Bool.and_eq_true] at h
    exact ⟨row, fun l => siteAt (row.site (Run.of (at1 i) (vw (at1 i)) row.head) (row.addr l) l), h.1.1.1.1.1, hr, ready_of h.1.1.1.1.2, clean_of h.1.1.1.2,
      fun l hl => site_of (lanes_of (p := fun l => isOk (row.site (Run.of (at1 i) (vw (at1 i)) row.head) (row.addr l) l)) (of_decide_eq_true h.1.1.2) ⟨h.1.2, h.2⟩ l hl)⟩
  · cases h

/-- Where part p of lane l's private access of 16 bytes at offset 16 goes. -/
@[irreducible] def prvSite (need : Need) (i : Instr) (l p : Nat) : Site :=
  (Run.of (at1 i) (vw (at1 i)) ⟨1, 7⟩).privateSite need (addressOf (vw (at1 i)) 1 0xFF .x1 16 l) 16 p l

@[irreducible] def prvB (need : Need) (i : Instr) (l : Nat) : Bool := (privateParts .w128).all (fun p => isOk (prvSite need i l p))

theorem prv_of {need : Need} {i : Instr} (h : enabled (vw (at1 i)) ⟨1, 7⟩ = 0x80000001#32 ∧ prvB need i 0 = true ∧ prvB need i 31 = true) :
    PrivatePasses (at1 i) (vw (at1 i)) ⟨1, 7⟩ need .w128 ⟨1, 0xFF, .x1, 16⟩ (fun l p => siteAt (prvSite need i l p)) := by
  intro l p hl hp
  have h2 := lanes_of (p := prvB need i) h.1 h.2 l hl
  unfold prvB at h2
  have h3 := site_of (List.all_eq_true.mp h2 p hp)
  rw [← h3]; unfold prvSite; rfl

/-- Obligations.PrivateWords. -/
theorem witness_PrivateWords :
    (∃ h fsel w d m at_, let i := Instr.ldPrv h fsel w d m; let s := at1 i
      Ready i h (Pre.long fsel (groupRegs d w.regs ++ indexRegs m.idx)) s (vw s) ∧ Clean (vw s) h (indexRegs m.idx) ∧ PrivatePasses s (vw s) h .read w m at_) ∧
    (∃ h fsel w d m at_, let i := Instr.stPrv h fsel w d m; let s := at1 i
      i.wf = true ∧ Ready i h (Pre.long fsel (groupRegs d w.regs ++ indexRegs m.idx)) s (vw s) ∧
      Clean (vw s) h (groupRegs d w.regs ++ indexRegs m.idx) ∧ PrivatePasses s (vw s) h .write w m at_) :=
  ⟨⟨⟨1, 7⟩, false, .w128, 8, ⟨1, 0xFF, .x1, 16⟩, _, ready_of (by decide +kernel), clean_of (by decide +kernel), prv_of (by decide +kernel)⟩,
    ⟨⟨1, 7⟩, true, .w128, 8, ⟨1, 0xFF, .x1, 16⟩, _, by decide, ready_of (by decide +kernel), clean_of (by decide +kernel), prv_of (by decide +kernel)⟩⟩

/-- Obligations.OnceWords. -/
theorem witness_OnceWords :
    (∃ h fsel sc sd base off key va, let s := at1 (.lds h fsel sc sd base off)
      Ready (.lds h fsel sc sd base off) h (Pre.long fsel []) s (vw s) ∧
      (Run.of s (vw s) h).globalSite .read sc true (onceAddr (vw s) base off) 8 = .ok key va) ∧
    (∃ h fsel sd ms base off key va, let s := at1 (.ctest h fsel sd ms base off)
      Ready (.ctest h fsel sd ms base off) h (Pre.long fsel []) s (vw s) ∧
      (Run.of s (vw s) h).monSite .dev (onceAddr (vw s) base off) 8 = .ok key va) ∧
    (∃ h fsel a ss fs row, let s := at1 (.packp h fsel a ss fs row); let v := vw s; let f := slotOf (v.g.slotWord fs.toNat); let b := (scalarOf v ss).toNat
      Ready (.packp h fsel a ss fs row) h { Pre.long fsel (opndRegs (.r32 a)) with pop := pops [.r32 a] } s v ∧ Clean v h (opndRegs (.r32 a)) ∧
      PlanesReached v f b row.toNat (if f.isBlock then (planeSites f b row.toNat).take 1 else [])) ∧
    (∃ h fsel d ss fs row, let s := at1 (.unpackp h fsel d ss fs row); let v := vw s; let f := slotOf (v.g.slotWord fs.toNat); let b := (scalarOf v ss).toNat
      Ready (.unpackp h fsel d ss fs row) h (Pre.long fsel [d.toNat]) s v ∧ PlanesReached v f b row.toNat (planeSites f b row.toNat)) :=
  ⟨⟨⟨1, 7⟩, false, .dev, 1, 2, 8, _, _, ready_of (by decide +kernel), site_of (by decide +kernel)⟩,
   ⟨⟨1, 7⟩, false, 1, 2, 2, 8, _, _, ready_of (by decide +kernel), site_of (by decide +kernel)⟩,
   ⟨⟨1, 7⟩, false, .v 4, 2, 1, 255, ready_of (by decide +kernel), clean_of (by decide +kernel), by decide +kernel, by decide +kernel, by decide +kernel, by decide +kernel⟩,
   ⟨⟨1, 7⟩, false, 8, 2, 1, 255, ready_of (by decide +kernel), by decide +kernel, by decide +kernel, by decide +kernel, by decide +kernel⟩⟩

/-- What holds of lanes 0 and 31 holds of every lane of their mask. -/
theorem two_of {P : Nat → Prop} {m : Mask} (h : m = 0x80000001#32 ∧ P 0 ∧ P 31) : ∀ l, inMask m l = true → P l := by
  have h2 : ∀ k, k < 32 → inMask 0x80000001#32 k = true → k = 0 ∨ k = 31 := by decide
  intro l hl
  rcases h2 l (inMask_lt hl) (h.1 ▸ hl) with rfl | rfl
  · exact h.2.1
  · exact h.2.2

theorem ok_of {ε α : Type} {x : Except ε α} {a : α} (h : x.toOption = some a) : x = .ok a := by
  cases x
  · cases h
  · exact congrArg _ (Option.some.inj h)

/-- at1 with the threads outside the split gone, and its workgroup and warp changed. -/
@[irreducible] def at2 (f : Wg → Wg) (g : Thread → Thread) (i : Instr) : State :=
  ((at1 i).modWg 0 f).modWarp 0 (fun w => { w with
    threads := w.threads.mapIdx (fun l t => if l = 0 ∨ l = 31 then g t else { t with st := .exited }) })

/-- Obligations.ControlWords. -/
theorem witness_ControlWords :
    (∃ h s v, Ready (.nop h) h Pre.none s v) ∧
    (∃ h base off n s v, Ready (.ipf h base off n) h Pre.none s v) ∧
    (∃ h off s v, Ready (.bra h off) h Pre.none s v) ∧
    (∃ h sc off s v, Ready (.bnz h sc off) h Pre.none s v ∧ scalarOf v sc = 0) ∧
    (∃ h sc off s v, Ready (.bnz h sc off) h Pre.none s v ∧ scalarOf v sc ≠ 0) ∧
    (∃ h sc off s v, Ready (.bz h sc off) h Pre.none s v ∧ scalarOf v sc = 0) ∧
    (∃ h sc off s v, Ready (.bz h sc off) h Pre.none s v ∧ scalarOf v sc ≠ 0) ∧
    (∃ h lv off s v, Ready (.call h lv off) h { Pre.none with regs := [lv.toNat, lv.toNat + 1] } s v ∧ LastOfClause v) ∧
    (∃ h lv s v, Ready (.ret h lv) h { Pre.none with regs := [lv.toNat, lv.toNat + 1] } s v ∧ Clean v h [lv.toNat, lv.toNat + 1]) :=
  ⟨⟨⟨0, 7⟩, at1 (.nop ⟨0, 7⟩), _, ready_of (by decide +kernel)⟩,
   ⟨⟨7, 7⟩, 63, 0x8000, 0, at1 (.ipf ⟨7, 7⟩ 63 0x8000 0), _, ready_of (by decide +kernel)⟩,
   ⟨⟨1, 7⟩, 0x80000000, at1 (.bra ⟨1, 7⟩ 0x80000000), _, ready_of (by decide +kernel)⟩,
   ⟨⟨1, 7⟩, 0, 1, at1 (.bnz ⟨1, 7⟩ 0 1), _, ready_of (by decide +kernel), by decide +kernel⟩,
   ⟨⟨1, 7⟩, 2, 1, at1 (.bnz ⟨1, 7⟩ 2 1), _, ready_of (by decide +kernel), by decide +kernel⟩,
   ⟨⟨1, 7⟩, 0, 1, at1 (.bz ⟨1, 7⟩ 0 1), _, ready_of (by decide +kernel), by decide +kernel⟩,
   ⟨⟨1, 7⟩, 2, 1, at1 (.bz ⟨1, 7⟩ 2 1), _, ready_of (by decide +kernel), by decide +kernel⟩,
   ⟨⟨1, 7⟩, 246, 1, at1 (.call ⟨1, 7⟩ 246 1), _, ready_of (by decide +kernel), fun c hc => by
      have h2 : ((vw (at1 (.call ⟨1, 7⟩ 246 1))).w.thread (lowLane (vw (at1 (.call ⟨1, 7⟩ 246 1))).w.split)).cl = some (placedClause 0) := by decide +kernel
      have h3 : ((vw (at1 (.call ⟨1, 7⟩ 246 1))).w.thread (lowLane (vw (at1 (.call ⟨1, 7⟩ 246 1))).w.split)).pc = 0x1008 := by decide +kernel
      rw [h2] at hc; cases hc; rw [h3]; decide⟩,
   ⟨⟨1, 7⟩, 246, at1 (.ret ⟨1, 7⟩ 246), _, ready_of (by decide +kernel), clean_of (by decide +kernel)⟩⟩

/-- The threads of the split are in team 1, called by team 0. -/
def inTeam1 (wg : Wg) : Wg :=
  { wg with teams := [(0, { Team.root 2 with st := .blocked, callees := 1 }), (1, { Team.root 2 with parent := some 0, depth := 1 })] }

theorem team_of {s : State} {t0 t : Nat} {x y : Team} (h : (vw s).wg.teams = [(t0, y)]) (hx : Tab.look (vw s).wg.teams t = some x) : t = t0 ∧ x = y := by
  rw [h] at hx
  simp only [Tab.look] at hx
  split at hx
  · rename_i e; exact ⟨e.symm, (Option.some.inj hx).symm⟩
  · cases hx

theorem mayArrive_of {s : State} {h : Head} {call : Bool} (hw : (vw s).wg.teams = [(0, Team.root 32)] ∧
    ∀ l, l < 32 → ((vw s).w.thread l).live = true → ((vw s).w.thread l).team = 0 → inMask (enabled (vw s) h) l = true) : MayArrive (vw s) h call := by
  intro t x _ hx
  obtain ⟨rfl, rfl⟩ := team_of hw.1 hx
  exact ⟨fun _ => by decide, hw.2, by decide, .inl rfl⟩

/-- Obligations.TeamWords. -/
theorem witness_TeamWords :
    (∃ h s v, Ready (.exit h) h Pre.none s v) ∧
    (∃ h s v, Ready (.tbar h) h Pre.none s v ∧ MayArrive v h false) ∧
    (∃ h off s v table, Ready (.tcall h off) h Pre.none s v ∧ MayArrive v h true ∧ TableAt (counted s v h) v (target v off) table) ∧
    (∃ h off s v table, Ready (.tcallW h off) h Pre.none s v ∧ MayArrive v h true ∧ TableAt (counted s v h) v (target v off) table) ∧
    (∃ h s v, Ready (.tret h) h Pre.none s v ∧
      ∀ t x, teamHere v h t = true → Tab.look v.wg.teams t = some x → x.parent ≠ none ∧ x.pending = none) ∧
    (∃ h s v, Ready (.tquit h) h Pre.none s v) :=
  ⟨⟨⟨1, 7⟩, at1 (.exit ⟨1, 7⟩), _, ready_of (by decide +kernel)⟩,
   ⟨⟨1, 7⟩, at2 id id (.tbar ⟨1, 7⟩), _, ready_of (by decide +kernel), mayArrive_of (by decide +kernel)⟩,
   ⟨⟨1, 7⟩, 1, at2 id id (.tcall ⟨1, 7⟩ 1), _, [(5, 0x1030), (0, 0x1040)], ready_of (by decide +kernel), mayArrive_of (by decide +kernel),
     by decide +kernel, 1, [0x0500000000000004, 6], by decide +kernel, ok_of (by decide +kernel), by decide +kernel⟩,
   ⟨⟨1, 7⟩, 1, at2 id id (.tcallW ⟨1, 7⟩ 1), _, [(5, 0x1030), (0, 0x1040)], ready_of (by decide +kernel), mayArrive_of (by decide +kernel),
     by decide +kernel, 1, [0x0500000000000004, 6], by decide +kernel, ok_of (by decide +kernel), by decide +kernel⟩,
   ⟨⟨1, 7⟩, at2 inTeam1 (fun t => { t with team := 1 }) (.tret ⟨1, 7⟩), _, ready_of (by decide +kernel), fun t x ht hx => by
      have h0 : teamHere (vw (at2 inTeam1 (fun t => { t with team := 1 }) (.tret ⟨1, 7⟩))) ⟨1, 7⟩ 0 = false := by decide +kernel
      have h1 : (vw (at2 inTeam1 (fun t => { t with team := 1 }) (.tret ⟨1, 7⟩))).wg.teams =
        [(0, { Team.root 2 with st := .blocked, callees := 1 }), (1, { Team.root 2 with parent := some 0, depth := 1 })] := by decide +kernel
      rw [h1] at hx
      simp only [Tab.look] at hx
      split at hx
      · rename_i e; rw [← e, h0] at ht; cases ht
      · split at hx
        · cases hx; exact ⟨by decide, rfl⟩
        · cases hx⟩,
   ⟨⟨1, 7⟩, at1 (.tquit ⟨1, 7⟩), _, ready_of (by decide +kernel)⟩⟩

/-- Obligations.OrderWords. -/
theorem witness_OrderWords :
    (∃ h fsel sc s v, Ready (.fence h fsel sc) h (Pre.long fsel []) s v) ∧
    (∃ h fsel sc s v, Ready (.acq h fsel sc) h (Pre.long fsel []) s v) ∧
    (∃ h fsel sc s v, Ready (.rel h fsel sc) h (Pre.long fsel []) s v) ∧
    (∃ h fsel wide d base off s v key va, let n := if wide then 2 else 1
      Ready (.relN h fsel wide d base off) h (Pre.long fsel (groupRegs d n)) s v ∧ (∀ r ∈ groupRegs d n, 32 * r + lowLane (enabled v h) ∉ v.w.vPoison) ∧
      (Run.of s v h).globalSite .write .dev false (onceAddr v base off) (4 * n) = .ok key va) :=
  ⟨⟨⟨1, 7⟩, false, .sys, at1 (.fence ⟨1, 7⟩ false .sys), _, ready_of (by decide +kernel)⟩,
   ⟨⟨1, 7⟩, true, .cl, at1 (.acq ⟨1, 7⟩ true .cl), _, ready_of (by decide +kernel)⟩,
   ⟨⟨1, 7⟩, false, .dev, at1 (.rel ⟨1, 7⟩ false .dev), _, ready_of (by decide +kernel)⟩,
   ⟨⟨1, 7⟩, false, true, 246, 2, 0xFF8, at1 (.relN ⟨1, 7⟩ false true 246 2 0xFF8), _, _, _, ready_of (by decide +kernel),
     fun r _ => no_poison (by decide +kernel) _, site_of (by decide +kernel)⟩⟩

/-- Obligations.CacheWords. -/
theorem witness_CacheWords :
    ∃ h sc base off s1 s2 s3 k1 k2 k3 a1 a2 a3,
      (onceAddr (vw s1) base off < 2 ^ 57 ∧ (Run.of s1 (vw s1) h).globalSite .read sc false (lineAddr (vw s1) base off) 1 = .ok k1 a1 ∧
        Ready (.cctlWb h sc base off) h Pre.none s1 (vw s1)) ∧
      (onceAddr (vw s2) base off < 2 ^ 57 ∧ (Run.of s2 (vw s2) h).globalSite .read sc false (lineAddr (vw s2) base off) 1 = .ok k2 a2 ∧
        Ready (.cctlInv h sc base off) h Pre.none s2 (vw s2)) ∧
      (onceAddr (vw s3) base off < 2 ^ 57 ∧ (Run.of s3 (vw s3) h).globalSite .read sc false (lineAddr (vw s3) base off) 1 = .ok k3 a3 ∧
        Ready (.cctlWbinv h sc base off) h Pre.none s3 (vw s3)) :=
  ⟨⟨1, 7⟩, .die, 2, 0xFFF, at1 (.cctlWb ⟨1, 7⟩ .die 2 0xFFF), at1 (.cctlInv ⟨1, 7⟩ .die 2 0xFFF), at1 (.cctlWbinv ⟨1, 7⟩ .die 2 0xFFF), _, _, _, _, _, _,
    ⟨by decide +kernel, site_of (by decide +kernel), ready_of (by decide +kernel)⟩,
    ⟨by decide +kernel, site_of (by decide +kernel), ready_of (by decide +kernel)⟩,
    ⟨by decide +kernel, site_of (by decide +kernel), ready_of (by decide +kernel)⟩⟩

theorem wholeWarp_of {s : State} {h : Head} (a : ∀ l, l < 32 → ((vw s).w.thread l).live = true → inMask (enabled (vw s) h) l = true)
    (b : enabled (vw s) h = 0x80000001#32 ∧ ((vw s).w.thread 0).team = 0 ∧ ((vw s).w.thread 31).team = 0) : WholeWarp (vw s) h :=
  ⟨a, two_of b⟩

/-- Obligations.BarrierWords: a first arrival at BAR and one withdrawn before, an arrival, a wait with and without its barrier complete. -/
theorem witness_BarrierWords :
    (∃ h fsel n s v, let wait := among v h (fun t => !(t.again && !t.arrived.getLsbD n.toNat))
      Ready (.bar h fsel n) h (Pre.long fsel []) s v ∧ WholeWarp v h ∧ wait ≠ 0 ∧
      ∀ l, inMask (enabled v h) l = true → (v.w.thread l).again = true ∨ ((v.w.thread l).arrived.getLsbD n.toNat = false ∧ (v.w.thread l).owed.getLsbD n.toNat = false)) ∧
    (∃ h fsel n s v, let wait := among v h (fun t => !(t.again && !t.arrived.getLsbD n.toNat))
      Ready (.bar h fsel n) h (Pre.long fsel []) s v ∧ WholeWarp v h ∧ wait = 0 ∧
      ∀ l, inMask (enabled v h) l = true → (v.w.thread l).again = true ∨ ((v.w.thread l).arrived.getLsbD n.toNat = false ∧ (v.w.thread l).owed.getLsbD n.toNat = false)) ∧
    (∃ h fsel n s v, Ready (.barArrive h fsel n) h (Pre.long fsel []) s v ∧ WholeWarp v h ∧
      ∀ l, inMask (enabled v h) l = true → (v.w.thread l).arrived.getLsbD n.toNat = false ∧ (v.w.thread l).owed.getLsbD n.toNat = false) ∧
    (∃ h fsel n s v, Ready (.barWait h fsel n) h (Pre.long fsel []) s v ∧ WholeWarp v h ∧
      (∀ l, inMask (enabled v h) l = true → (v.w.thread l).owed.getLsbD n.toNat = true) ∧ among v h (fun t => t.arrived.getLsbD n.toNat) = 0) ∧
    (∃ h fsel n s v, Ready (.barWait h fsel n) h (Pre.long fsel []) s v ∧ WholeWarp v h ∧
      (∀ l, inMask (enabled v h) l = true → (v.w.thread l).owed.getLsbD n.toNat = true) ∧ among v h (fun t => t.arrived.getLsbD n.toNat) ≠ 0) :=
  ⟨⟨⟨1, 7⟩, false, 31, at2 id id (.bar ⟨1, 7⟩ false 31), _, ready_of (by decide +kernel), wholeWarp_of (by decide +kernel) (by decide +kernel),
     by decide +kernel, two_of ⟨by decide +kernel, .inr (by decide +kernel), .inr (by decide +kernel)⟩⟩,
   ⟨⟨1, 7⟩, false, 31, at2 id (fun t => { t with again := true }) (.bar ⟨1, 7⟩ false 31), _, ready_of (by decide +kernel), wholeWarp_of (by decide +kernel) (by decide +kernel),
     by decide +kernel, two_of ⟨by decide +kernel, .inl (by decide +kernel), .inl (by decide +kernel)⟩⟩,
   ⟨⟨1, 7⟩, true, 0, at2 id id (.barArrive ⟨1, 7⟩ true 0), _, ready_of (by decide +kernel), wholeWarp_of (by decide +kernel) (by decide +kernel),
     two_of ⟨by decide +kernel, by decide +kernel, by decide +kernel⟩⟩,
   ⟨⟨1, 7⟩, false, 31, at2 id (fun t => { t with owed := BitVec.allOnes 32 }) (.barWait ⟨1, 7⟩ false 31), _, ready_of (by decide +kernel), wholeWarp_of (by decide +kernel) (by decide +kernel),
     two_of ⟨by decide +kernel, by decide +kernel, by decide +kernel⟩, by decide +kernel⟩,
   ⟨⟨1, 7⟩, false, 0, at2 id (fun t => { t with owed := BitVec.allOnes 32, arrived := 1 }) (.barWait ⟨1, 7⟩ false 0), _, ready_of (by decide +kernel),
     wholeWarp_of (by decide +kernel) (by decide +kernel), two_of ⟨by decide +kernel, by decide +kernel, by decide +kernel⟩, by decide +kernel⟩⟩

/-- Phase barrier 31 expects two arrivals. -/
def phase2 (wg : Wg) : Wg := { wg with scratch := [(524282, 2)] }

/-- A load of lane 0 has not been performed. -/
@[irreducible] def withLoad (s : State) : State := { s with ops := [(0, {
  ctx := 0, warp := 0, pc := 0, flag := none, kind := .store, sc := .th, space := .glob, lanes := 1, left := 1, acks := [], counted := false,
  accs := [{ lane := 0, va := 0, pa := 0, size := 4, data := [], swp := [], done := false, res := [], pkt := none, gen := 0 }] })] }

/-- Obligations.PhaseWords. -/
theorem witness_PhaseWords :
    (∃ h fsel n s v, Ready (.pbarArrive h fsel n) h { Pre.long fsel [] with res := [(n.toNat, .bar)] } s v ∧
      s.pending v.key (enabled v h) = false ∧ Takes v n.toNat (bitsSetIn (enabled v h))) ∧
    (∃ h fsel n s v, Ready (.pbarArrive h fsel n) h { Pre.long fsel [] with res := [(n.toNat, .bar)] } s v ∧ s.pending v.key (enabled v h) = true) ∧
    (∃ h fsel n s v, Ready (.pbarWait h fsel n) h { Pre.long fsel [] with res := [(n.toNat, .bar)] } s v ∧
      among v h (fun t => t.parity.getLsbD n.toNat == phaseOf v n.toNat) ≠ 0) ∧
    (∃ h fsel n s v, Ready (.pbarWait h fsel n) h { Pre.long fsel [] with res := [(n.toNat, .bar)] } s v ∧
      among v h (fun t => t.parity.getLsbD n.toNat == phaseOf v n.toNat) = 0) :=
  ⟨⟨⟨1, 7⟩, false, 31, at2 phase2 id (.pbarArrive ⟨1, 7⟩ false 31), _, ready_of (by decide +kernel), by decide +kernel, by decide +kernel, by decide +kernel, by decide +kernel⟩,
   ⟨⟨1, 7⟩, false, 31, withLoad (at2 phase2 id (.pbarArrive ⟨1, 7⟩ false 31)), _, ready_of (by decide +kernel), by decide +kernel⟩,
   ⟨⟨1, 7⟩, false, 31, at2 phase2 id (.pbarWait ⟨1, 7⟩ false 31), _, ready_of (by decide +kernel), by decide +kernel⟩,
   ⟨⟨1, 7⟩, false, 31, at2 phase2 (fun t => { t with parity := BitVec.allOnes 32 }) (.pbarWait ⟨1, 7⟩ false 31), _, ready_of (by decide +kernel), by decide +kernel⟩⟩

/-- Tile 1 as given. -/
def tile1 (t : Tile) (wg : Wg) : Wg := { wg with tiles := Tab.put wg.tiles 1 t }

/-- A tile that is half filled. -/
def filling1 : Tile := { st := .filling, base := 0, count := 128, bits := 1 }

/-- Obligations.WaitWords. -/
theorem witness_WaitWords :
    (∃ h fsel wide sc cc base off x s v key va, Ready (.mwait h fsel true wide sc cc base off x) h (Pre.long fsel []) s v ∧
      (Run.of s v h).scratchSite true (onceAddr v base off) (if wide then 8 else 4) = .ok key va) ∧
    (∃ h fsel wide sc cc base off x s v key va, Ready (.mwait h fsel false wide sc cc base off x) h (Pre.long fsel []) s v ∧
      (Run.of s v h).monSite sc (onceAddr v base off) (if wide then 8 else 4) = .ok key va) ∧
    (∃ h fsel ms base off s v key va, Ready (.cwait h fsel ms base off) h (Pre.long fsel []) s v ∧
      (Run.of s v h).monSite .dev (onceAddr v base off) 8 = .ok key va ∧ scalarOf v ms ≠ 0) ∧
    (∃ h fsel ms base off s v key va, Ready (.cwait h fsel ms base off) h (Pre.long fsel []) s v ∧
      (Run.of s v h).monSite .dev (onceAddr v base off) 8 = .ok key va ∧ scalarOf v ms = 0) ∧
    (∃ h fsel ms tile hi s v t, Ready (.cwaitTile h fsel ms tile hi) h { Pre.long fsel [] with res := [(tile.toNat, .tile)] } s v ∧
      Tab.look v.wg.tiles tile.toNat = some t ∧ t.count ≠ 0 ∧ (t.st = .filling ∨ t.st = .ready) ∧ tileHas t hi (scalarOf v ms) = true) ∧
    (∃ h fsel ms tile hi s v t, Ready (.cwaitTile h fsel ms tile hi) h { Pre.long fsel [] with res := [(tile.toNat, .tile)] } s v ∧
      Tab.look v.wg.tiles tile.toNat = some t ∧ t.count ≠ 0 ∧ (t.st = .filling ∨ t.st = .ready) ∧ tileHas t hi (scalarOf v ms) = false) ∧
    (∃ h fsel tile s v t, Ready (.twait h fsel tile) h { Pre.long fsel [] with res := [(tile.toNat, .tile)] } s v ∧
      Tab.look v.wg.tiles tile.toNat = some t ∧ (t.st = .filling ∨ t.st = .draining)) ∧
    (∃ h fsel tile s v t, Ready (.twait h fsel tile) h { Pre.long fsel [] with res := [(tile.toNat, .tile)] } s v ∧
      Tab.look v.wg.tiles tile.toNat = some t ∧ t.st ≠ .filling ∧ t.st ≠ .draining) :=
  ⟨⟨⟨1, 7⟩, false, true, .wg, .geu, 2, 0, .imm 127, at1 (.mwait ⟨1, 7⟩ false true true .wg .geu 2 0 (.imm 127)), _, _, _,
     ready_of (by decide +kernel), site_of (by decide +kernel)⟩,
   ⟨⟨1, 7⟩, false, false, .dev, .eq, 2, 0xFFC, .reg 1, at1 (.mwait ⟨1, 7⟩ false false false .dev .eq 2 0xFFC (.reg 1)), _, _, _,
     ready_of (by decide +kernel), site_of (by decide +kernel)⟩,
   ⟨⟨1, 7⟩, false, 2, 2, 0xFF8, at1 (.cwait ⟨1, 7⟩ false 2 2 0xFF8), _, _, _, ready_of (by decide +kernel), site_of (by decide +kernel), by decide +kernel⟩,
   ⟨⟨1, 7⟩, false, 0, 2, 0xFF8, at1 (.cwait ⟨1, 7⟩ false 0 2 0xFF8), _, _, _, ready_of (by decide +kernel), site_of (by decide +kernel), by decide +kernel⟩,
   ⟨⟨1, 7⟩, false, 0, 1, true, at2 (tile1 filling1) id (.cwaitTile ⟨1, 7⟩ false 0 1 true), _, filling1,
     ready_of (by decide +kernel), by decide +kernel, by decide, .inl rfl, by decide +kernel⟩,
   ⟨⟨1, 7⟩, false, 2, 1, false, at2 (tile1 filling1) id (.cwaitTile ⟨1, 7⟩ false 2 1 false), _, filling1,
     ready_of (by decide +kernel), by decide +kernel, by decide, .inl rfl, by decide +kernel⟩,
   ⟨⟨1, 7⟩, false, 1, at2 (tile1 filling1) id (.twait ⟨1, 7⟩ false 1), _, filling1, ready_of (by decide +kernel), by decide +kernel, .inl rfl⟩,
   ⟨⟨1, 7⟩, false, 1, at2 (tile1 { filling1 with st := .empty }) id (.twait ⟨1, 7⟩ false 1), _, { filling1 with st := .empty },
     ready_of (by decide +kernel), by decide +kernel, by decide, by decide⟩⟩

/-- Obligations.TileWords, for the largest tile and the smallest. -/
theorem witness_TileWords :
    (∃ h fsel tile base off ms s v t, let b := onceAddr v base off; let n := (scalarOf v ms).toNat % 256
      Ready (.tdef h fsel tile base off ms) h { Pre.long fsel [] with res := [(tile.toNat, .tile)], tile := some tile.toNat } s v ∧
      Tab.look v.wg.tiles tile.toNat = some t ∧ n = 128 ∧ b % 512 = 0 ∧ b + 512 * n ≤ v.g.scrBytes) ∧
    (∃ h fsel tile base off ms s v t, let b := onceAddr v base off; let n := (scalarOf v ms).toNat % 256
      Ready (.tdef h fsel tile base off ms) h { Pre.long fsel [] with res := [(tile.toNat, .tile)], tile := some tile.toNat } s v ∧
      Tab.look v.wg.tiles tile.toNat = some t ∧ n = 1 ∧ b % 512 = 0 ∧ b + 512 * n = v.g.scrBytes) ∧
    (∃ h tile s v t, Ready (.tfree h tile) h { Pre.none with res := [(tile.toNat, .tile)], tile := some tile.toNat } s v ∧
      Tab.look v.wg.tiles tile.toNat = some t ∧ t.count ≠ 0 ∧ t.st = .ready) :=
  ⟨⟨⟨1, 7⟩, false, 63, 2, 0, 3, (at1 (.tdef ⟨1, 7⟩ false 63 2 0 3)).modWarp 0 (fun w => { w with s := [(2, 0x2000), (3, 128)] }), _,
     { st := .empty, base := 0, count := 0, bits := 0 }, ready_of (by decide +kernel), by decide +kernel, by decide +kernel, by decide +kernel, by decide +kernel⟩,
   ⟨⟨1, 7⟩, false, 0, 2, 0, 3, (at1 (.tdef ⟨1, 7⟩ false 0 2 0 3)).modWarp 0 (fun w => { w with s := [(2, 0x7FE00), (3, 1)] }), _,
     { st := .empty, base := 0, count := 0, bits := 0 }, ready_of (by decide +kernel), by decide +kernel, by decide +kernel, by decide +kernel, by decide +kernel⟩,
   ⟨⟨1, 7⟩, 1, at2 (tile1 { filling1 with st := .ready }) id (.tfree ⟨1, 7⟩ 1), _, { filling1 with st := .ready },
     ready_of (by decide +kernel), by decide +kernel, by decide, rfl⟩⟩

/-- An answer that passes a test. -/
def passing {α ε : Type} (p : α → Bool) : Except ε α → Bool
  | .ok a => p a
  | .error _ => false

theorem passes_of {α ε : Type} {x : Except ε α} {p : α → Bool} (h : passing p x = true) : ∃ a, x = .ok a ∧ p a = true := by
  cases x with
  | ok a => exact ⟨a, rfl, h⟩
  | error e => cases h

/-- Template 0 where the issued word reads it. -/
@[irreducible] def template0 (s : State) : Option (Nat × Template) :=
  match (counted s (vw s) ⟨1, 7⟩).unitSite (vw s).g.ctx .read (((counted s (vw s) ⟨1, 7⟩).ctxAt (vw s).g.ctx).tplb.toNat * 4096 + 128 * 0) with
  | .ok key => some (key, Template.ofBytes ((counted s (vw s) ⟨1, 7⟩).portRead key 128))
  | .error _ => none

/-- What R167 lets template 0 start: a copy from memory to memory, not to shadow pages. -/
@[irreducible] def copyB (s : State) : Bool :=
  match template0 s with
  | none => false
  | some (_, t) =>
    let cp := (Run.of s (vw s) ⟨1, 7⟩).copyOf t 0 0 0 0 63
    !t.invalid (vw s).g.tilen && decide (cp.dstTile = none) && decide (cp.srcTile = none) && !cp.shadow && !(vw s).g.restart &&
      passing isHbm ((counted s (vw s) ⟨1, 7⟩).unitSite (vw s).g.ctx .write cp.target)

theorem copy_of {s : State} (h : copyB s = true) : ∃ t, TemplateRead (counted s (vw s) ⟨1, 7⟩) (vw s) 0 t ∧
    CopyPasses (counted s (vw s) ⟨1, 7⟩) (vw s) t ((Run.of s (vw s) ⟨1, 7⟩).copyOf t 0 0 0 0 63) := by
  unfold copyB at h; split at h
  · cases h
  · rename_i key t e
    unfold template0 at e; split at e
    · rename_i k hk
      cases e
      simp only [Bool.and_eq_true, decide_eq_true_eq, Bool.not_eq_true'] at h
      obtain ⟨⟨⟨⟨⟨a, b⟩, c⟩, d⟩, e⟩, f⟩ := h
      refine ⟨_, ⟨Nat.zero_le _, a, key, hk, rfl⟩, fun _ => ?_, (by rw [d]; intro h; cases h), (by rw [b]; intro _ h; cases h),
        (by rw [c]; intro _ h; cases h), (by rw [e]; intro h; cases h), (by rw [d]; intro h; cases h)⟩
      obtain ⟨x, hx, hy⟩ := passes_of f
      exact ⟨x, hx, .inl hy⟩
    · cases e

theorem all16 {p : Nat → Bool} (h : (List.range 16).all p = true) (i : Nat) (hi : i < 16) : p i = true :=
  List.all_eq_true.mp h i (List.mem_range.mpr hi)

/-- A page that PUBLISH may name, as a test. -/
@[irreducible] def publishB (s : State) (va : Nat) : Bool :=
  passing (fun t => decide (t.kind = 0) && !t.ct && isHbm (cellOf t.pa) && decide (s.checkTrans (vw s).g.ctx .read { t with r := true } = none))
    ((counted s (vw s) ⟨1, 7⟩).lookup (vw s).wg.core (vw s).g.ctx va)

theorem publishable_of {s : State} {va : Nat} (hv : va < 2 ^ 57) (h : publishB s va = true) : Publishable s (vw s) ⟨1, 7⟩ va := by
  unfold publishB at h
  obtain ⟨t, ht, hp⟩ := passes_of h
  simp only [Bool.and_eq_true, decide_eq_true_eq, Bool.not_eq_true'] at hp
  exact ⟨hv, t, ht, hp.1.1.1, hp.1.1.2, hp.1.2, hp.2⟩

/-- Obligations.CopyWords. -/
theorem witness_CopyWords :
    (∃ h fsel sn base off s v t, let a := onceAddr v base off
      let w := fun (i : BitVec 6) => scalarOf v (sn + i)
      let cp := (Run.of s v h).copyOf t (w 0) (w 1) (w 2) (w 3) (a / 64 % 64)
      Ready (.copyStart h fsel sn base off) h (Pre.long fsel []) s v ∧ a % 32 = 0 ∧ ApertureAt s v h a ∧
      TemplateRead (counted s v h) v ((w 0).toNat % 4096) t ∧ ScalarsPass v t (w 0) (w 1) (w 2) (w 3) ∧ CopyPasses (counted s v h) v t cp) ∧
    (∃ h fsel sc nm1 base off s v, Ready (.publish h fsel sc nm1 base off) h (Pre.long fsel []) s v ∧
      WindowsPass s v h (onceAddr v base off) (nm1.toNat + 1)) := by
  refine ⟨?_, ?_⟩
  · obtain ⟨t, h1, h2⟩ := copy_of (s := at1 (.copyStart ⟨1, 7⟩ false 4 2 0x1FE0)) (by decide +kernel)
    have ha : onceAddr (vw (at1 (.copyStart ⟨1, 7⟩ false 4 2 0x1FE0))) 2 0x1FE0 = 0x3FE0 := by decide +kernel
    have hw : ∀ i : BitVec 6, i = 0 ∨ i = 1 ∨ i = 2 ∨ i = 3 → scalarOf (vw (at1 (.copyStart ⟨1, 7⟩ false 4 2 0x1FE0))) (4 + i) = 0 := by
      rintro i (rfl | rfl | rfl | rfl) <;> decide +kernel
    have hl : ∃ t, (counted (at1 (.copyStart ⟨1, 7⟩ false 4 2 0x1FE0)) (vw (at1 (.copyStart ⟨1, 7⟩ false 4 2 0x1FE0))) ⟨1, 7⟩).lookup
        (vw (at1 (.copyStart ⟨1, 7⟩ false 4 2 0x1FE0))).wg.core (vw (at1 (.copyStart ⟨1, 7⟩ false 4 2 0x1FE0))).g.ctx 0x3FE0 = .ok t ∧
        (decide (t.kind = 3) && t.w) = true := passes_of (p := fun (t : Trans) => decide (t.kind = 3) && t.w) (by decide +kernel)
    obtain ⟨u, hu, hk⟩ := hl
    simp only [Bool.and_eq_true, decide_eq_true_eq] at hk
    refine ⟨⟨1, 7⟩, false, 4, 2, 0x1FE0, at1 (.copyStart ⟨1, 7⟩ false 4 2 0x1FE0), _, t, ready_of (by decide +kernel), ?_⟩
    simp only [ha, hw 0 (.inl rfl), hw 1 (.inr (.inl rfl)), hw 2 (.inr (.inr (.inl rfl))), hw 3 (.inr (.inr (.inr rfl)))]
    refine ⟨by decide, ⟨by decide, u, hu, hk.1, hk.2⟩, h1, ⟨by decide, by decide, by simp, by decide⟩, h2⟩
  · have h : ((List.range 16).all (fun i => publishB ((at1 (.publish ⟨1, 7⟩ false .dev 0 2 0xE000)).modWarp 0 (fun w => { w with s := [(2, 0x12000)] })) (0x10000 + 4096 * i))) = true := by decide +kernel
    have ha : onceAddr (vw ((at1 (.publish ⟨1, 7⟩ false .dev 0 2 0xE000)).modWarp 0 (fun w => { w with s := [(2, 0x12000)] }))) 2 0xE000 = 0x10000 := by decide +kernel
    exact ⟨⟨1, 7⟩, false, .dev, 0, 2, 0xE000, (at1 (.publish ⟨1, 7⟩ false .dev 0 2 0xE000)).modWarp 0 (fun w => { w with s := [(2, 0x12000)] }), _,
      ready_of (by decide +kernel), by rw [ha], fun i hi => ha ▸ publishable_of (by omega) (all16 h i hi)⟩

/-- Obligations.ScarabWords. -/
theorem witness_ScarabWords :
    (∃ h n s v, Ready (.syscall h n) h Pre.none s v) ∧ (∃ h n s v, Ready (.trap h n) h Pre.none s v) ∧
    (∃ h n s v, Ready (.brk h n) h Pre.none s v ∧ (s.ctxAt v.g.ctx).dbgctl.getLsbD 0 = false) ∧
    (∃ h n s v, Ready (.brk h n) h Pre.none s v ∧ (s.ctxAt v.g.ctx).dbgctl.getLsbD 0 = true) :=
  ⟨⟨⟨1, 7⟩, 0xFFFF, at1 (.syscall ⟨1, 7⟩ 0xFFFF), _, ready_of (by decide +kernel)⟩,
   ⟨⟨1, 7⟩, 0xFFFF, at1 (.trap ⟨1, 7⟩ 0xFFFF), _, ready_of (by decide +kernel)⟩,
   ⟨⟨1, 7⟩, 0xFFFF, at1 (.brk ⟨1, 7⟩ 0xFFFF), _, ready_of (by decide +kernel), by decide +kernel⟩,
   ⟨⟨1, 7⟩, 0, (at1 (.brk ⟨1, 7⟩ 0)).setCtx 0 { Ctx.reset with dbgctl := 3 }, _, ready_of (by decide +kernel), by decide +kernel⟩⟩

/-- A second warp with 8 registers, in a workgroup of two. -/
@[irreducible] def twoWarps (i : Instr) : State :=
  let s := at1 i
  let g := placedGrid false
  let g := { g with words := g.words.set 2 0x0000000100000120#64 }
  { s with grids := [(0, g)], warps := s.warps ++ [(1, { launchWarp g 0 0 1 with quota := 8 })] }

/-- Obligations.QuotaWords: the largest live count, and the largest transfer. -/
theorem witness_QuotaWords :
    (∃ h d k s v, k.toNat ≤ v.w.quota ∧ Ready (.yield h d k) h Pre.none s v) ∧
    (∃ h w1 w2 k s v, Ready (.regq h w1 w2 k) h Pre.none s v ∧ MayTransfer (counted s v h) v { w1 := w1.toNat, w2 := w2.toNat, k := k.toNat }) :=
  ⟨⟨⟨1, 7⟩, 255, 248, at1 (.yield ⟨1, 7⟩ 255 248), _, by decide +kernel, ready_of (by decide +kernel)⟩,
   ⟨⟨1, 7⟩, 0, 1, 30, twoWarps (.regq ⟨1, 7⟩ 0 1 30), _, ready_of (by decide +kernel), by decide +kernel, by decide +kernel, by decide +kernel, by decide, by decide, by decide,
     by decide +kernel, by decide +kernel, by decide +kernel⟩⟩

/-- Obligations.SpecialRegisters. -/
theorem witness_SpecialRegisters :
    (∃ h rd sel s v, (Instr.mfsr h (.v rd) sel).wf = true ∧ assigned sel ∧ Ready (.mfsr h (.v rd) sel) h { Pre.none with regs := dstRegs (mfsrDst sel rd) } s v) ∧
    (∃ h sd sel s v, assigned sel ∧ Ready (.mfsr h (.s sd) sel) h Pre.none s v) ∧
    (∃ h a s v, Ready (.mtsr h 0x0D#8 a) h { Pre.none with regs := opndRegs (.r32 a) } s v ∧
      ∀ r ∈ opndRegs (.r32 a), 32 * r + lowLane (enabled v h) ∉ v.w.vPoison) :=
  ⟨⟨⟨1, 7⟩, 246, 0x0C, at1 (.mfsr ⟨1, 7⟩ (.v 246) 0x0C), _, by decide, by unfold assigned; decide, ready_of (by decide +kernel)⟩,
   ⟨⟨1, 7⟩, 63, 0x13, at1 (.mfsr ⟨1, 7⟩ (.s 63) 0x13), _, by unfold assigned; decide, ready_of (by decide +kernel)⟩,
   ⟨⟨1, 7⟩, .v 247, at1 (.mtsr ⟨1, 7⟩ 0x0D (.v 247)), _, ready_of (by decide +kernel), fun r _ => no_poison (by decide +kernel) _⟩⟩

/-- A latch of 12-plane integers. -/
def latch12 : Latch := { q := 12, ints := [(0, -2048)], scale := [(0, 127)] }

/-- A running sequencer with a filled latch, at the last word of its clause; tile 63 holds a 64-row image of 12 planes to its last byte; slot 1 names such images, slot 2 WFX96 and slot 3 FP32. -/
@[irreducible] def seqState (modes : Tab AccMode) (f : Seq → Seq) : State :=
  let s := at0 .mend
  let g := placedGrid true
  let s := s.setGrid 0 { g with words := ((g.words.set 9 0x0580000000000000#64).set 10 0x9000000000000000#64).set 11 0x4800000000000000#64 }
  s.modWg 0 (fun wg => { wg with
    accMode := modes
    scratch := [(524282, 2)]
    tiles := Tab.put wg.tiles 63 { st := .ready, base := 512, count := 90, bits := 0 }
    seq := wg.seq.map (fun q => f { q with latch0 := some latch12, last1 := some false, next1 := true }) })

/-- The sequencer that holds the issue. -/
@[irreducible] def sq (s : State) : SeqRun :=
  match s.curSeq with
  | some r => r
  | none => ⟨0, launchWg (placedGrid true) 0 0 0, Seq.launch (placedGrid true), placedGrid true, 0, s⟩

theorem sq_eq {s : State} (h : s.curSeq.isSome = true) : s.curSeq = some (sq s) := by
  unfold sq; split
  · assumption
  · rename_i h'; rw [h'] at h; cases h

/-- Tile 63. -/
def tile63 : Tile := { st := .ready, base := 512, count := 90, bits := 0 }

def scalesB (r : SeqRun) (f : Slot) (t : Tile) (rows : Nat) : Bool :=
  (List.range rows).all (fun i => (List.range 4).all (fun b => decide (scaleAt f t.base i b < r.g.scrBytes)))

theorem image_of {r : SeqRun} {f : Slot} {t : Tile} {rows : Nat} (a : 4096 * (f.planes - 1) + 16 * rows ≤ 512 * t.count ∧ f.noPlanes = false)
    (b : scalesB r f t rows = true) (p : r.wg.scrPoison.isEmpty = true) : ImageReads r f t rows := by
  have p := List.isEmpty_iff.mp p
  refine ⟨a.1, a.2, fun i k hi hk => ⟨?_, by rw [p]; exact List.not_mem_nil⟩, fun _ _ _ _ _ _ => by rw [p]; exact List.not_mem_nil⟩
  unfold scalesB at b
  exact of_decide_eq_true (List.all_eq_true.mp (List.all_eq_true.mp b i (List.mem_range.mpr hi)) k (List.mem_range.mpr hk))

theorem accClean_of {r : SeqRun} {u : Nat → Prop} (p : r.wg.accPoison.isEmpty = true) : AccClean r u := by
  intro k hk; rw [List.isEmpty_iff.mp p] at hk; cases hk

/-- Obligations.LatchWords: an image of 12 planes in a tile that just holds it. -/
theorem witness_LatchWords : ∃ (ta : BitVec 6) (fs : BitVec 3) (s : State) (r : SeqRun) (t : Tile), s.curSeq = some r ∧ Named r ta t ∧
    ImageReads r (slotOf (r.g.slotWord fs.toNat)) t 64 ∧ (slotOf (r.g.slotWord fs.toNat)).planes = 12 :=
  ⟨63, 1, seqState [] id, _, tile63, sq_eq (by decide +kernel), ⟨by decide +kernel, by decide +kernel, by decide, rfl⟩,
    image_of (by decide +kernel) (by decide +kernel) (by decide +kernel), by decide +kernel⟩

/-- The image of slot 0: one plane of 256 rows in a tile of 8 chunks. -/
def tile62 : Tile := { st := .ready, base := 0, count := 8, bits := 0 }

@[irreducible] def seqState62 (modes : Tab AccMode) : State :=
  (seqState modes id).modWg 0 (fun wg => { wg with tiles := Tab.put wg.tiles 62 tile62 })

/-- Obligations.MatrixWords: four FP32 tiles up to the last, and two triples. -/
theorem witness_MatrixWords :
    (∃ (acc : BitVec 3) (ta : BitVec 6) (fs : BitVec 3) (rows : BitVec 2) (s : State) (r : SeqRun) (t : Tile) (l : Latch),
      let nt := rows.toNat + 1
      s.curSeq = some r ∧ Named r ta t ∧ ImageReads r (slotOf (r.g.slotWord fs.toNat)) t (64 * nt) ∧ r.q.latch = some l ∧
      (∀ k, k < nt → acc.toNat + k < r.g.accn ∧ (r.wg.mode (acc.toNat + k)).isFp32 = true) ∧ AccClean r (fun k => acc.toNat ≤ k ∧ k < acc.toNat + nt)) ∧
    (∃ (acc : BitVec 3) (ta : BitVec 6) (fs : BitVec 3) (rows : BitVec 2) (s : State) (r : SeqRun) (t : Tile) (l : Latch),
      let nt := rows.toNat + 1; let n := acc.toNat
      s.curSeq = some r ∧ Named r ta t ∧ ImageReads r (slotOf (r.g.slotWord fs.toNat)) t (64 * nt) ∧ r.q.latch = some l ∧
      (r.wg.mode n).isFp32 = false ∧ (nt = 1 ∨ nt = 2 ∧ n = 0) ∧ (∀ k, k < nt → (r.wg.mode (n + 3 * k)).starts (n + 3 * k) = true) ∧
      n + 3 * nt ≤ r.g.accn ∧ AccClean r (fun k => n ≤ k ∧ k < n + 3 * nt)) :=
  ⟨⟨4, 62, 0, 3, seqState62 [], _, tile62, latch12, sq_eq (by decide +kernel), ⟨by decide +kernel, by decide +kernel, by decide, rfl⟩,
     image_of (by decide +kernel) (by decide +kernel) (by decide +kernel), by decide +kernel, by decide +kernel, accClean_of (by decide +kernel)⟩,
   ⟨0, 62, 0, 1, seqState62 [(0, .wfx 0 4), (1, .wfx 0 4), (2, .wfx 0 4), (3, .wfx 3 0), (4, .wfx 3 0), (5, .wfx 3 0)], _, tile62, latch12,
     sq_eq (by decide +kernel), ⟨by decide +kernel, by decide +kernel, by decide, rfl⟩,
     image_of (by decide +kernel) (by decide +kernel) (by decide +kernel), by decide +kernel, by decide +kernel, .inr ⟨by decide, by decide⟩, by decide +kernel,
     by decide +kernel, accClean_of (by decide +kernel)⟩⟩

/-- Modes with a triple at accumulators 5 to 7. -/
def wfx5 : Tab AccMode := [(5, .wfx 5 63), (6, .wfx 5 63), (7, .wfx 5 63)]

theorem mode_of {wg : Wg} (h : wg.accMode = wfx5) {i first lam : Nat} (e : wg.mode i = .wfx first lam) : first = 5 := by
  have h2 : ∀ i, (Tab.look wfx5 i).getD .fp32 = .wfx first lam → first = 5 := by
    intro i h
    simp only [wfx5, Tab.look] at h
    split at h
    · cases h; rfl
    · split at h
      · cases h; rfl
      · split at h <;> cases h; rfl
  unfold Wg.mode at e; rw [h] at e
  exact h2 i e

/-- Obligations.AccumulatorWords. -/
theorem witness_AccumulatorWords :
    (∃ (acc km1 : BitVec 3) (s : State) (r : SeqRun), s.curSeq = some r ∧ acc.toNat + km1.toNat < r.g.accn ∧
      ∀ i first lam, acc.toNat ≤ i → i ≤ acc.toNat + km1.toNat → r.wg.mode i = .wfx first lam → acc.toNat ≤ first ∧ first + 2 ≤ acc.toNat + km1.toNat) ∧
    (∃ (acc : BitVec 3) (ss : BitVec 6) (s : State) (r : SeqRun), let a := (sregOf r.q.s ss.toNat).toNat
      s.curSeq = some r ∧ acc.toNat < r.g.accn ∧ (r.wg.mode acc.toNat).isFp32 = true ∧ a % 4 = 0 ∧ a + 256 ≤ r.g.scrBytes ∧
      AccClean r (fun k => k = acc.toNat) ∧ ∀ i, i < 256 → (a + i) / 8 ∉ r.wg.scrPoison) ∧
    (∃ (acc : BitVec 3) (ss : BitVec 6) (imm : BitVec 14) (fs : BitVec 3) (s : State) (r : SeqRun) (z : Nat),
      let m := r.wg.mode acc.toNat; let f := slotOf (r.g.slotWord fs.toNat); let a := accSite r ss imm
      s.curSeq = some r ∧ acc.toNat < r.g.accn ∧ f.accBytes = some z ∧ a % min z 4 = 0 ∧ a + 4096 * z ≤ r.g.scrBytes ∧
      (if m.isFp32 then f.isWfx = false else m.starts acc.toNat = true) ∧ AccClean r (accTiles m acc.toNat)) ∧
    (∃ (acc : BitVec 3) (ss : BitVec 6) (imm : BitVec 14) (fs : BitVec 3) (s : State) (r : SeqRun) (z : Nat),
      let m := r.wg.mode acc.toNat; let f := slotOf (r.g.slotWord fs.toNat); let a := accSite r ss imm
      s.curSeq = some r ∧ acc.toNat < r.g.accn ∧ f.accBytes = some z ∧ a % min z 4 = 0 ∧ a + 4096 * z ≤ r.g.scrBytes ∧ m.isFp32 = false ∧
      m.starts acc.toNat = true ∧ AccClean r (accTiles m acc.toNat)) ∧
    (∃ (acc : BitVec 3) (ss : BitVec 6) (imm : BitVec 14) (fs : BitVec 3) (s : State) (r : SeqRun) (z : Nat),
      let f := slotOf (r.g.slotWord fs.toNat); let a := accSite r ss imm
      s.curSeq = some r ∧ f.accBytes = some z ∧ a % min z 4 = 0 ∧ a + 4096 * z ≤ r.g.scrBytes ∧
      (∀ w ∈ r.wg.scrPoison, 8 * w + 8 ≤ a ∨ a + 4096 * z ≤ 8 * w) ∧ f.isWfx = true ∧ acc.toNat + 2 < r.g.accn) ∧
    (∃ (acc : BitVec 3) (ss : BitVec 6) (imm : BitVec 14) (fs : BitVec 3) (s : State) (r : SeqRun) (z : Nat),
      let f := slotOf (r.g.slotWord fs.toNat); let a := accSite r ss imm
      s.curSeq = some r ∧ f.accBytes = some z ∧ a % min z 4 = 0 ∧ a + 4096 * z ≤ r.g.scrBytes ∧
      (∀ w ∈ r.wg.scrPoison, 8 * w + 8 ≤ a ∨ a + 4096 * z ≤ 8 * w) ∧ f.isWfx = false ∧ acc.toNat < r.g.accn) := by
  have hp : ∀ m, (sq (seqState m id)).wg.scrPoison = [] → ∀ a b, ∀ w ∈ (sq (seqState m id)).wg.scrPoison, 8 * w + 8 ≤ a ∨ b ≤ 8 * w :=
    fun m h a b w hw => by rw [h] at hw; cases hw
  exact
  ⟨⟨5, 2, seqState wfx5 id, _, sq_eq (by decide +kernel), by decide +kernel, fun i first lam _ _ h => by
      rw [mode_of (show (sq (seqState wfx5 id)).wg.accMode = wfx5 by decide +kernel) h]; decide⟩,
   ⟨7, 1, seqState [] (fun q => { q with s := [(1, 0x7FF00)] }), _, sq_eq (by decide +kernel), by decide +kernel, by decide +kernel, by decide +kernel, by decide +kernel,
     accClean_of (by decide +kernel), fun i _ => by
       rw [show (sq (seqState [] (fun q => { q with s := [(1, 0x7FF00)] }))).wg.scrPoison = [] by decide +kernel]; exact List.not_mem_nil⟩,
   ⟨7, 1, 0, 3, seqState [] (fun q => { q with s := [(1, 0x7C000)] }), _, 4, sq_eq (by decide +kernel), by decide +kernel, by decide +kernel, by decide +kernel, by decide +kernel,
     by decide +kernel, accClean_of (by decide +kernel)⟩,
   ⟨5, 0, 4, 2, seqState wfx5 id, _, 12, sq_eq (by decide +kernel), by decide +kernel, by decide +kernel, by decide +kernel, by decide +kernel, by decide +kernel, by decide +kernel,
     accClean_of (by decide +kernel)⟩,
   ⟨5, 0, 4, 2, seqState [] id, _, 12, sq_eq (by decide +kernel), by decide +kernel, by decide +kernel, by decide +kernel, hp _ (by decide +kernel) _ _, by decide +kernel, by decide +kernel⟩,
   ⟨7, 0, 4, 3, seqState wfx5 id, _, 4, sq_eq (by decide +kernel), by decide +kernel, by decide +kernel, by decide +kernel, hp _ (by decide +kernel) _ _, by decide +kernel, by decide +kernel⟩⟩

/-- Obligations.StreamWords. Phase barrier 31 expects two arrivals; MLOOP first and last times, at a full loop stack less one. -/
theorem witness_StreamWords :
    (∃ (acc : BitVec 3) (rm1 : BitVec 6) (s : State) (r : SeqRun), let m := r.wg.mode acc.toNat
      s.curSeq = some r ∧ acc.toNat < r.g.accn ∧ (m.isFp32 = true ∨ m.starts acc.toNat = true) ∧ AccClean r (accTiles m acc.toNat) ∧ r.wg.qa.length < 128 ∧
      r.q.accqPos + 1 < 2 * (rm1.toNat + 1)) ∧
    (∃ (acc : BitVec 3) (rm1 : BitVec 6) (s : State) (r : SeqRun), let m := r.wg.mode acc.toNat
      s.curSeq = some r ∧ acc.toNat < r.g.accn ∧ (m.isFp32 = true ∨ m.starts acc.toNat = true) ∧ AccClean r (accTiles m acc.toNat) ∧ r.wg.qa.length < 128 ∧
      2 * (rm1.toNat + 1) ≤ r.q.accqPos + 1) ∧
    (∃ (n : BitVec 5) (s : State) (r : SeqRun),
      let x := bytesToNat (readBytes r.wg.scratch (r.g.scrBytes - 8 * r.g.barn + 8 * n.toNat) 8)
      s.curSeq = some r ∧ n.toNat < r.g.barn ∧ x / 2 ^ 33 = 0 ∧ x / 2 ^ 16 % 2 ^ 16 ≠ 0 ∧ x % 2 ^ 16 < x / 2 ^ 16 % 2 ^ 16) ∧
    (∃ (n : BitVec 5) (s : State) (r : SeqRun),
      let x := bytesToNat (readBytes r.wg.scratch (r.g.scrBytes - 8 * r.g.barn + 8 * n.toNat) 8)
      s.curSeq = some r ∧ n.toNat < r.g.barn ∧ r.q.parity.getLsbD n.toNat = decide (x / 2 ^ 32 % 2 = 1)) ∧
    (∃ (n : BitVec 5) (s : State) (r : SeqRun),
      let x := bytesToNat (readBytes r.wg.scratch (r.g.scrBytes - 8 * r.g.barn + 8 * n.toNat) 8)
      s.curSeq = some r ∧ n.toNat < r.g.barn ∧ r.q.parity.getLsbD n.toNat ≠ decide (x / 2 ^ 32 % 2 = 1)) ∧
    (∃ (s : State) (r : SeqRun) (rest : List (Nat × Nat)), s.curSeq = some r ∧ r.q.loop = (r.q.pc, 1) :: rest) ∧
    (∃ (s : State) (r : SeqRun) (left : Nat) (rest : List (Nat × Nat)), s.curSeq = some r ∧ r.q.loop = (r.q.pc, left) :: rest ∧ left ≠ 1) ∧
    (∃ (s : State) (r : SeqRun) (km1 : BitVec 8), s.curSeq = some r ∧ (∀ left rest, r.q.loop ≠ (r.q.pc, left) :: rest) ∧ km1 ≠ 0 ∧ r.q.loop.length = 3) ∧
    (∃ (s : State) (r : SeqRun), s.curSeq = some r ∧ r.q.st = .running) :=
  ⟨⟨7, 63, seqState [] id, _, sq_eq (by decide +kernel), by decide +kernel, .inl (by decide +kernel), accClean_of (by decide +kernel), by decide +kernel, by decide +kernel⟩,
   ⟨5, 63, seqState wfx5 (fun q => { q with accqPos := 127 }), _, sq_eq (by decide +kernel), by decide +kernel, .inr (by decide +kernel), accClean_of (by decide +kernel), by decide +kernel, by decide +kernel⟩,
   ⟨31, seqState [] id, _, sq_eq (by decide +kernel), by decide +kernel, by decide +kernel, by decide +kernel, by decide +kernel⟩,
   ⟨31, seqState [] id, _, sq_eq (by decide +kernel), by decide +kernel, by decide +kernel⟩,
   ⟨31, seqState [] (fun q => { q with parity := BitVec.allOnes 32 }), _, sq_eq (by decide +kernel), by decide +kernel, by decide +kernel⟩,
   ⟨seqState [] (fun q => { q with loop := [(0x1008, 1)] }), _, [], sq_eq (by decide +kernel), by decide +kernel⟩,
   ⟨seqState [] (fun q => { q with loop := [(0x1008, 256)] }), _, 256, [], sq_eq (by decide +kernel), by decide +kernel, by decide⟩,
   ⟨seqState [] (fun q => { q with loop := [(0x1000, 1), (8, 2), (16, 3)] }), _, 255, sq_eq (by decide +kernel), (by
      intro left rest h
      rw [show (sq (seqState [] (fun q => { q with loop := [(0x1000, 1), (8, 2), (16, 3)] }))).q.loop = [(0x1000, 1), (8, 2), (16, 3)] by decide +kernel,
        show (sq (seqState [] (fun q => { q with loop := [(0x1000, 1), (8, 2), (16, 3)] }))).q.pc = 0x1008 by decide +kernel] at h
      cases h), by decide, by decide +kernel⟩,
   ⟨seqState [] id, _, sq_eq (by decide +kernel), by decide +kernel⟩⟩

theorem getD_of {α : Type} {o : Option α} {d : α} (h : o.isSome = true) : o = some (o.getD d) := by
  cases o
  · cases h
  · rfl

/-- Some view, for getD. -/
@[irreducible] def v0 : View := vw State.reset

/-- The warp of key 0, seen by its key. -/
@[irreducible] def vk (s : State) : View := (s.view 0).getD v0
theorem vk_eq {s : State} (h : (s.view 0).isSome = true) : s.view 0 = some (vk s) := by unfold vk; exact getD_of h

/-- A resident warp whose two live threads change as given. -/
@[irreducible] def res (f : Nat → Thread → Thread) (g : Warp → Warp) : State :=
  { (at0 (.nop ⟨1, 7⟩)).modWarp 0 (fun w => g { w with threads := w.threads.mapIdx (fun l t => if l = 0 ∨ l = 31 then f l t else { t with st := .exited }) }) with cur := none }

/-- Its threads stand before their clause, and no pair is issued. -/
@[irreducible] def outside : State :=
  res (fun _ t => { t with pc := 0x1000, cl := none }) (fun w => { w with pair := none })

/-- The same, its fetch missing. -/
@[irreducible] def missed : State :=
  res (fun _ t => { t with pc := 0x1000, cl := none }) (fun w => { w with pair := none, frozen := some 0x1008 })

theorem ok_some {ε α : Type} {x : Except ε α} (h : x.toOption.isSome = true) : ∃ a, x = .ok a := by
  cases x with
  | ok a => exact ⟨a, rfl⟩
  | error e => cases h

def pairA : (Group × ClauseCtx × Bool) × Option (Group × ClauseCtx × Bool) :=
  ((({ pc := 0x1000, mask := 0x80000001#32, cl := none } : Group), placedClause 0, true), none)

theorem standing_of {s : State} (h : s.holder 0 0 = none ∧ s.onSlice 0 0 = [0]) (hv : (s.view 0).isSome = true)
    (hw : (vk s).w.dbg ≠ .stopped ∧ (vk s).g.stopped = false ∧ (vk s).w.ordered = [pairA.1.1] ∧
      s.startOf (vk s).wg.core (vk s).g.ctx pairA.1.1 = .go (placedClause 0) 1 true) : Standing s 0 0 := by
  refine ⟨by decide, h.1, by rw [h.2]; decide, fun k hk v hv' _ _ => ?_⟩
  rw [h.2] at hk
  obtain rfl : k = 0 := List.mem_singleton.mp hk
  rw [vk_eq hv] at hv'; cases hv'
  refine ⟨hw.1, hw.2.1, fun _ g hg => ?_⟩
  rw [hw.2.2.1] at hg
  obtain rfl := List.mem_singleton.mp hg
  exact ⟨_, _, _, hw.2.2.2⟩

/-- A record of the warp of key 0 and its split, for a cause. -/
def rec0 (cause : Nat) (queued : Bool) : TrapRec :=
  { core := 0, warp := some 0, wgKey := 0, pc := 0x1008, exec := 0x80000001#32, live := 0x80000001#32, causes := [(cause, 0x80000001#32)], ctx := 0, origin := 0,
    splitB := false, fetch := false, wid := 0, wgid := 0, clid := 0, detail := 0, clock := 0, dbg := false, queued := queued }

/-- Two threads that wait at different barriers. -/
@[irreducible] def stuck : State :=
  { res (fun l t => { t with st := .parked (.bar l), arrived := 1#32 <<< l }) (fun w => { w with pair := none }) with mem := [] }

/-- Both threads of the pair had parked, and are ready again. -/
@[irreducible] def rejoined : State :=
  res (fun _ t => t) (fun w => { w with pair := some { a := 0, b := 0, turnB := false, pa := 0x80000001#32, pb := 0 } })

theorem standing_again : Standing rejoined 0 0 := by
  have h : rejoined.holder 0 0 = none ∧ rejoined.onSlice 0 0 = [0] := by decide +kernel
  refine ⟨by decide, h.1, by rw [h.2]; decide, fun k hk v hv hr _ => ?_⟩
  rw [h.2] at hk
  obtain rfl : k = 0 := List.mem_singleton.mp hk
  rw [vk_eq (by decide +kernel)] at hv; cases hv
  have : (vk rejoined).w.resumed ≠ none := by decide +kernel
  exact absurd hr this

/-- Obligations.IssueEvents: a pair that starts, and one that resumes. -/
theorem witness_IssueEvents :
    (∃ (core slice k : Nat) (s : State) (v : View) (a : Group × ClauseCtx × Bool) (b : Option (Group × ClauseCtx × Bool)),
      Standing s core slice ∧ s.choose core slice ((s.onSlice core slice).filter s.eligible) = some k ∧ s.view k = some v ∧ v.w.resumed = none ∧
      s.pairOf v = some (a, b)) ∧
    (∃ (core slice k : Nat) (s : State) (v : View) (p : Pair),
      Standing s core slice ∧ s.choose core slice ((s.onSlice core slice).filter s.eligible) = some k ∧ s.view k = some v ∧ v.w.resumed = some p) ∧
    (∃ (warp va : Nat) (x : W64) (t : Trans) (s : State) (v : View), s.view warp = some v ∧ v.w.frozen = some va ∧
      s.fetch v.wg.core v.g.ctx va = .word x ∧ s.lookup v.wg.core v.g.ctx va = .ok t ∧ (s.coreAt v.wg.core).icache.length < 2048) ∧
    (∃ (warp : Nat) (s : State) (v : View), s.view warp = some v ∧ ∃ e ∈ s.recs, e.2.warp = some warp ∧ e.2.cause 0 = 39) ∧
    (∃ (warp : Nat) (s : State) (v : View), s.view warp = some v ∧ s.deadlocked v.wgKey = true ∧ s.warpsOf v.wgKey = [(warp, v.w)]) := by
  refine ⟨⟨0, 0, 0, outside, _, pairA.1, pairA.2, standing_of (by decide +kernel) (by decide +kernel) (by decide +kernel), by decide +kernel, vk_eq (by decide +kernel),
      by decide +kernel, by decide +kernel⟩,
    ⟨0, 0, 0, rejoined, _, { a := 0x80000001#32, b := 0, turnB := false, pa := 0, pb := 0 }, standing_again, by decide +kernel, vk_eq (by decide +kernel), by decide +kernel⟩, ?_, ?_, ?_⟩
  · obtain ⟨t, ht⟩ := ok_some (show (missed.lookup 0 0 0x1008).toOption.isSome = true by decide +kernel)
    exact ⟨0, 0x1008, encode (.nop ⟨1, 7⟩), t, missed, _, vk_eq (by decide +kernel), by decide +kernel, by decide +kernel,
      by rw [show (vk missed).wg.core = 0 by decide +kernel, show (vk missed).g.ctx = 0 by decide +kernel, ht], by decide +kernel⟩
  · exact ⟨0, { outside with recs := [(0, rec0 39 false)] }, _, vk_eq (by decide +kernel), (0, rec0 39 false), by decide, rfl, by decide⟩
  · exact ⟨0, stuck, _, vk_eq (by decide +kernel), by decide +kernel, by decide +kernel⟩

/-- The resident warp of two threads. -/
@[irreducible] def two : State := res (fun _ t => t) id

theorem two_look : ∃ w, Tab.look two.warps 0 = some w := ⟨_, getD_of (d := (vk two).w) (by decide +kernel)⟩

/-- An operation of lanes 0 and 31. -/
def op0 (kind : OpKind) (accs : List Access) (sc : Scope) (space : Space) : Op :=
  { ctx := 0, warp := 0, pc := 0x1008, flag := some 0, kind := kind, sc := sc, space := space, lanes := 0x80000001#32, left := 0x80000001#32, accs := accs, acks := [], counted := true }

/-- An access of lane 0, to the first HBM cell or to byte 0 of scratch. -/
def acc0 (pa size : Nat) (data : List Byte) (done : Bool) : Access :=
  { lane := 0, va := 0x2000, pa := pa, size := size, data := data, swp := [], done := done, res := [], pkt := none, gen := 0 }

def hbm0 : Nat := 2 ^ 40

@[irreducible] def withOp (o : Op) : State := { two with ops := [(5, o)] }

theorem withOp_warp (o : Op) : (withOp o).warps = two.warps := by unfold withOp; rfl
theorem withOp_ops (o : Op) : (withOp o).ops = [(5, o)] := by unfold withOp; rfl
theorem withOp_look (o : Op) : Tab.look (withOp o).ops 5 = some o := by rw [withOp_ops]; rfl

theorem notHeld {w : Warp} (h : Tab.look two.warps 0 = some w) (op : Nat) : ∀ l, l < 32 → (w.thread l).st ≠ .parked (.held op) := by
  have h2 : ∀ l, l < 32 → ((vk two).w.thread l).st = .ready ∨ ((vk two).w.thread l).st = .exited := by decide +kernel
  have h3 : Tab.look two.warps 0 = some (vk two).w := by decide +kernel
  rw [h3] at h; cases h
  intro l hl
  rcases h2 l hl with h | h <;> rw [h] <;> exact fun h => by cases h

/-- Obligations.ResultEvents: one lane of two, with and without the last. -/
theorem witness_ResultEvents :
    (∃ (op d : Nat) (wide : Bool) (vals : Tab W64) (fl : Tab (BitVec 6)) (lanes : Mask) (s : State) (o : Op) (w : Warp),
      Tab.look s.ops op = some o ∧ o.kind = .regs (.v d) wide vals fl ∧ o.accs = [] ∧ Tab.look s.warps o.warp = some w ∧
      lanes &&& o.left ≠ 0 ∧ ∀ l, l < 32 → (w.thread l).st ≠ .parked (.held op)) ∧
    (∃ (op d : Nat) (width : Width) (lanes : Mask) (s : State) (o : Op) (w : Warp),
      Tab.look s.ops op = some o ∧ o.kind = .load width d ∧ width ≠ .w256 ∧ (∀ a ∈ o.accs, a.done = true) ∧ Tab.look s.warps o.warp = some w ∧
      lanes &&& o.left ≠ 0 ∧ ∀ l, l < 32 → (w.thread l).st ≠ .parked (.held op)) := by
  obtain ⟨w, hw⟩ := two_look
  exact ⟨⟨5, 252, true, [(31, 7)], [], 0x80000000#32, withOp (op0 (.regs (.v 252) true [(31, 7)] []) [] .th .glob), _, w, withOp_look _, rfl, rfl,
      by rw [withOp_warp]; exact hw, by decide, notHeld hw 5⟩,
    ⟨5, 250, .w128, 0xFFFFFFFF#32, withOp (op0 (.load .w128 250) [acc0 hbm0 16 [] true] .dev .glob), _, w, withOp_look _, rfl, by decide, by decide,
      by rw [withOp_warp]; exact hw, by decide, notHeld hw 5⟩⟩

/-- Obligations.OrderEvents. -/
theorem witness_OrderEvents :
    (∃ (op : Nat) (s : State) (o : Op), Tab.look s.ops op = some o ∧ o.accs = [] ∧ o.left = o.lanes ∧ o.kind = .rel true ∧ ∀ p ∈ o.acks, Tab.look s.pkts p = none) ∧
    (∃ (op : Nat) (s : State) (o : Op), Tab.look s.ops op = some o ∧ o.accs = [] ∧ o.left = o.lanes ∧ o.kind = .acq false ∧ (o.sc = .cl ∨ o.sc = .die) ∧
      s.mayAcquire op o.warp = true) :=
  ⟨⟨5, withOp { op0 (.rel true) [] .dev .glob with acks := [3] }, _, withOp_look _, rfl, rfl, rfl, by decide +kernel⟩,
   ⟨5, withOp (op0 (.acq false) [] .die .glob), _, withOp_look _, rfl, rfl, rfl, .inr rfl, by decide +kernel⟩⟩

theorem may_of {o : Op} {a : Access} (h : o.accs = [a]) (hd : a.done = false) (m : (withOp o).mayPerform 5 o 0 a = true) : MayPerform (withOp o) 5 0 o a :=
  ⟨withOp_look _, by rw [h]; rfl, hd, m⟩

def stG (pa : Nat) (sc : Scope) (space : Space) : Op := op0 .store [acc0 pa 4 [1, 2, 3, 4] false] sc space
def ldG (pa : Nat) (sc : Scope) (space : Space) : Op := op0 (.load .w32 8) [acc0 pa 4 [] false] sc space
def atG (pa : Nat) (space : Space) : Op := op0 (.atom .add (some 8)) [acc0 pa 4 [1, 0, 0, 0] false] .dev space

/-- The store covers its whole unit of n bytes by itself. -/
theorem covers_one {o : Op} {a : Access} {n : Nat} (h : o.accs = [a]) (h2 : a.pa / n * n = a.pa) (h3 : n ≤ a.size) : Covers o 0 n a :=
  fun i hi => ⟨0, a, by rw [h]; rfl, .inr rfl, by omega, by omega⟩

/-- Byte i of the unit is left. -/
theorem not_covers {o : Op} {a : Access} {n : Nat} (h : o.accs = [a]) (i : Nat) (hi : i < n) (h2 : a.pa / n * n + i < a.pa ∨ a.pa + a.size ≤ a.pa / n * n + i) : ¬ Covers o 0 n a := by
  intro hc
  obtain ⟨j, b, hj, -, h3, h4⟩ := hc i hi
  rw [h] at hj
  obtain rfl : j = 0 := by
    cases j with
    | zero => rfl
    | succ j => cases hj
  cases hj
  omega

/-- The stack of the access has retired. -/
@[irreducible] def retiredOp (o : Op) : State := (withOp o).setHome (homeOf hbm0) { (withOp o).homeAt (homeOf hbm0) with fenced := true }

/-- Obligations.AccessEvents: the last word of scratch, the first and the last of a home, a whole unit. -/
theorem witness_AccessEvents :
    (∃ op idx s o a wg, MayPerform s op idx o a ∧ o.space = .scr ∧ Tab.look s.wgs (o.warp / 32) = some wg ∧ o.kind = .store ∧ ¬ Covers o idx 8 a) ∧
    (∃ op idx s o a wg, MayPerform s op idx o a ∧ o.space = .scr ∧ Tab.look s.wgs (o.warp / 32) = some wg ∧ o.kind = .store ∧ Covers o idx 8 a) ∧
    (∃ op idx s o a wg, MayPerform s op idx o a ∧ o.space = .scr ∧ Tab.look s.wgs (o.warp / 32) = some wg ∧ ∃ w d, o.kind = .load w d) ∧
    (∃ op idx s o a wg, MayPerform s op idx o a ∧ o.space = .scr ∧ Tab.look s.wgs (o.warp / 32) = some wg ∧ ∃ f d, o.kind = .atom f (some d)) ∧
    (∃ op idx s o a, MayPerform s op idx o a ∧ (o.space = .glob ∨ o.space = .con ∨ o.space = .prv) ∧ s.isRetired a.pa = true ∧ o.kind = .store) ∧
    (∃ op idx s o a, MayPerform s op idx o a ∧ (o.space = .glob ∨ o.space = .con ∨ o.space = .prv) ∧ s.isRetired a.pa = false ∧ o.kind = .store ∧
      s.levelOf o.sc false a.pa = .home ∧ s.unacked (s.coreOfWarp o.warp / 24) o.ctx a.pa = false ∧ ¬ Covers o idx 64 a) ∧
    (∃ op idx s o a, MayPerform s op idx o a ∧ (o.space = .glob ∨ o.space = .con ∨ o.space = .prv) ∧ s.isRetired a.pa = false ∧ o.kind = .store ∧
      s.levelOf o.sc false a.pa = .home ∧ s.unacked (s.coreOfWarp o.warp / 24) o.ctx a.pa = false ∧ Covers o idx 64 a) ∧
    (∃ op idx s o a, MayPerform s op idx o a ∧ (o.space = .glob ∨ o.space = .con ∨ o.space = .prv) ∧ s.isRetired a.pa = false ∧ o.kind = .store ∧
      s.levelOf o.sc false a.pa = .l1 ∧ ¬ Covers o idx 64 a) ∧
    (∃ op idx s o a, MayPerform s op idx o a ∧ (o.space = .glob ∨ o.space = .con ∨ o.space = .prv) ∧ s.isRetired a.pa = false ∧ o.kind = .store ∧
      s.levelOf o.sc false a.pa = .l1 ∧ Covers o idx 64 a) ∧
    (∃ op idx s o a, MayPerform s op idx o a ∧ (o.space = .glob ∨ o.space = .con ∨ o.space = .prv) ∧ s.isRetired a.pa = false ∧ (∃ w d, o.kind = .load w d) ∧
      s.levelOf o.sc false a.pa = .home ∧ a.pkt = none ∧ (settledFor s (s.coreOfWarp o.warp) o.ctx a.pa).isTwinned (s.coreOfWarp o.warp / 24) o.ctx a.pa = false ∧
      s.unacked (s.coreOfWarp o.warp / 24) o.ctx a.pa = false ∧ (settledFor s (s.coreOfWarp o.warp) o.ctx a.pa).unacked (s.coreOfWarp o.warp / 24) o.ctx a.pa = false) ∧
    (∃ op idx s o a, MayPerform s op idx o a ∧ (o.space = .glob ∨ o.space = .con ∨ o.space = .prv) ∧ s.isRetired a.pa = false ∧ (∃ w d, o.kind = .load w d) ∧
      s.levelOf o.sc false a.pa = .l1) ∧
    (∃ op idx s o a, MayPerform s op idx o a ∧ (o.space = .glob ∨ o.space = .con ∨ o.space = .prv) ∧ s.isRetired a.pa = false ∧ (∃ f d, o.kind = .atom f (some d)) ∧
      s.levelOf o.sc true a.pa = .home ∧ a.pkt = none ∧ (settledFor s (s.coreOfWarp o.warp) o.ctx a.pa).unsent (s.coreOfWarp o.warp / 24) o.ctx a.pa a.size = false ∧
      s.unacked (s.coreOfWarp o.warp / 24) o.ctx a.pa = false) := by
  have hwg : ∀ o : Op, (withOp o).wgs = two.wgs := fun o => by unfold withOp; rfl
  have h0 : Tab.look two.wgs 0 = some (vk two).wg := by decide +kernel
  have hr : ∀ o : Op, (retiredOp o).ops = (withOp o).ops := fun o => by unfold retiredOp; rfl
  exact ⟨⟨5, 0, _, stG 524284 .wg .scr, _, _, may_of rfl rfl (by decide +kernel), rfl, by rw [hwg]; exact h0, rfl, not_covers rfl 0 (by decide) (.inl (by decide))⟩,
    ⟨5, 0, _, op0 .store [acc0 524280 8 (List.replicate 8 7) false] .wg .scr, _, _, may_of rfl rfl (by decide +kernel), rfl, by rw [hwg]; exact h0, rfl,
      covers_one rfl (by decide) (by decide)⟩,
    ⟨5, 0, _, ldG 524284 .wg .scr, _, _, may_of rfl rfl (by decide +kernel), rfl, by rw [hwg]; exact h0, _, _, rfl⟩,
    ⟨5, 0, _, atG 524284 .scr, _, _, may_of rfl rfl (by decide +kernel), rfl, by rw [hwg]; exact h0, _, _, rfl⟩,
    ⟨5, 0, retiredOp (stG hbm0 .dev .glob), stG hbm0 .dev .glob, _, ⟨by rw [hr]; exact withOp_look _, rfl, rfl, by decide +kernel⟩, .inl rfl, by decide +kernel, rfl⟩,
    ⟨5, 0, _, stG hbm0 .dev .glob, _, may_of rfl rfl (by decide +kernel), .inl rfl, by decide +kernel, rfl, by decide +kernel, by decide +kernel, not_covers rfl 63 (by decide) (.inr (by decide))⟩,
    ⟨5, 0, _, op0 .store [acc0 hbm0 64 (List.replicate 64 7) false] .dev .glob, _, may_of rfl rfl (by decide +kernel), .inl rfl, by decide +kernel, rfl, by decide +kernel, by decide +kernel,
      covers_one rfl (by decide) (by decide)⟩,
    ⟨5, 0, _, stG (2 ^ 41 - 2 ^ 24 - 4) .th .prv, _, may_of rfl rfl (by decide +kernel), .inr (.inr rfl), by decide +kernel, rfl, by decide +kernel, not_covers rfl 0 (by decide) (.inl (by decide))⟩,
    ⟨5, 0, _, op0 .store [acc0 hbm0 64 (List.replicate 64 7) false] .th .prv, _, may_of rfl rfl (by decide +kernel), .inr (.inr rfl), by decide +kernel, rfl, by decide +kernel,
      covers_one rfl (by decide) (by decide)⟩,
    ⟨5, 0, _, ldG hbm0 .dev .glob, _, may_of rfl rfl (by decide +kernel), .inl rfl, by decide +kernel, ⟨_, _, rfl⟩, by decide +kernel, rfl, by decide +kernel, by decide +kernel, by decide +kernel⟩,
    ⟨5, 0, _, ldG (2 ^ 41 - 2 ^ 24 - 4) .th .con, _, may_of rfl rfl (by decide +kernel), .inr (.inl rfl), by decide +kernel, ⟨_, _, rfl⟩, by decide +kernel⟩,
    ⟨5, 0, _, atG hbm0 .glob, _, may_of rfl rfl (by decide +kernel), .inl rfl, by decide +kernel, ⟨_, _, rfl⟩, by decide +kernel, rfl, by decide +kernel, by decide +kernel⟩⟩

theorem mem_of_look {α : Type} {j : Nat} {a : α} : ∀ {t : Tab α}, Tab.look t j = some a → (j, a) ∈ t
  | [], h => by cases h
  | (k, x) :: t, h => by
    unfold Tab.look at h; split at h
    · cases h; subst_vars; exact List.mem_cons_self
    · exact List.mem_cons_of_mem _ (mem_of_look h)

/-- Two warps, of which the first may give the second its registers: every live thread waits at barrier 3, the last of them to arrive. -/
@[irreducible] def due : State :=
  let s := twoWarps (.nop ⟨1, 7⟩)
  let at3 := fun (w : Warp) => { w with pair := none, threads := w.threads.map (fun (t : Thread) => if t.live then { t with st := .parked (.bar 3), arrived := 8#32 } else t) }
  { s with cur := none, ops := [], mem := [], warps := s.warps.map (fun e => (e.1, { at3 e.2 with regq := if e.1 = 0 then some { w1 := 0, w2 := 1, k := 30 } else none })) }

/-- Its threads, its transfer, and its warps. -/
theorem due_ok : (∃ (x : Wg) (cl : Cluster), Tab.look due.wgs 0 = some x ∧ Tab.look due.clusters 0 = some cl ∧ ∀ e ∈ x.teams, e.2.st = .active ∧ e.2.parent = none) ∧
    (∀ e ∈ due.warps, (∀ t ∈ e.2.threads, t.live = true → t.st = .parked (.bar 3) ∧ t.arrived = 8#32) ∧
      e.2.regq = if e.1 = 0 then some { w1 := 0, w2 := 1, k := 30 } else none) := by
  refine ⟨⟨(due.wgs.map (·.2)).headD (vw State.reset).wg, (due.clusters.map (·.2)).headD (vw State.reset).cl, by decide +kernel, by decide +kernel, by decide +kernel⟩, by decide +kernel⟩

theorem thread_mem {w : Warp} {l : Nat} (h : (w.thread l).live = true) : w.thread l ∈ w.threads := by
  unfold Warp.thread at h ⊢
  rw [List.getD_eq_getElem?_getD] at h ⊢
  cases e : w.threads[l]? with
  | none => rw [e] at h; cases h
  | some t => rw [Option.getD_some]; exact List.mem_of_getElem? e

/-- Obligations.QuotaEvents: the largest transfer leaves its source 8 registers. -/
theorem witness_QuotaEvents :
    (∃ (wg n warp : Nat) (q : Regq) (s : State), n < 32 ∧ TransferDue s wg n warp q) ∧
    (∃ (wg j : Nat) (q : Regq) (s : State) (a : Warp), q.w1 ≠ q.w2 ∧ Tab.look s.warps j = some a ∧ j = 32 * wg + q.w1 ∧ 8 * q.k ≤ a.quota) := by
  refine ⟨⟨0, 3, 0, { w1 := 0, w2 := 1, k := 30 }, due, by decide, due_ok.1, fun j a l h _ hl => ?_,
      ⟨_, 0, getD_of (d := (vk two).w) (by decide +kernel), by decide, by decide +kernel⟩, by decide +kernel, by decide +kernel, by decide,
      fun j a h _ => (due_ok.2 _ (mem_of_look h)).2, by decide, by decide, by decide, by decide +kernel, by decide +kernel,
      _, _, getD_of (d := (vk two).w) (by decide +kernel), getD_of (d := (vk two).w) (by decide +kernel), by decide +kernel⟩,
    ⟨0, 0, { w1 := 0, w2 := 1, k := 30 }, two, _, by decide, getD_of (d := (vk two).w) (by decide +kernel), rfl, by decide +kernel⟩⟩
  exact (due_ok.2 _ (mem_of_look h)).1 _ (thread_mem hl) hl

/-- An entry of a queue. -/
def entry0 : QEntry := { owner := none, words := [(0, 1)] }

/-- A sequencer that wants a task, with one entry on qm. -/
@[irreducible] def wanting : State :=
  (seqState [] (fun q => { q with st := .wantTask })).modWg 0 (fun wg => { wg with qm := [entry0] })

/-- Obligations.TaskEvents. -/
theorem witness_TaskEvents : ∃ (wg : Nat) (s : State) (w : Wg) (g : Grid) (q : Seq) (e : QEntry) (rest : List QEntry),
    Tab.look s.wgs wg = some w ∧ s.gridOf wg = some g ∧ w.seq = some q ∧ w.qm = e :: rest ∧ q.st = .wantTask ∧ e.owner = none :=
  ⟨0, wanting, (sq wanting).wg, (sq wanting).g, (sq wanting).q, entry0, [], by decide +kernel, by decide +kernel, by decide +kernel, by decide +kernel, by decide +kernel, rfl⟩

/-- A monitor of lanes 0 and 31 that waits for 7 at the first HBM cell, or in scratch. -/
def mon0 (scr armed : Bool) (seen : List W64) : Mon :=
  { ctx := 0, warp := 0, lanes := 0x80000001#32, pc := 0x1008, flag := some 0, sc := .dev, scr := scr, key := if scr then 524280 else hbm0, size := 8, cc := .eq, x := 7,
    maskForm := false, armed := armed, seen := seen, since := 0 }

/-- Both threads wait at monitor 5 of a grid that swaps out after 1024 cycles, 1024 cycles later. -/
@[irreducible] def atMon (seen : List W64) (st : ClSt) (since : Nat) : State :=
  let s := res (fun _ t => { t with st := .parked (.monitor 5) }) (fun w => { w with pair := none })
  let g := placedGrid false
  { s with
    mons := [(5, { mon0 false true seen with since := since })], clock := BitVec.ofNat 64 (since + 1024)
    grids := [(0, { g with words := g.words.set 24 1 })], clusters := s.clusters.map (fun e => (e.1, { e.2 with st := st })) }

/-- The cluster of the placed grid. -/
def cl0 (st : ClSt) : Cluster :=
  { grid := 0, clid := 0, die := 0, group := 0, st := st, frame := 0, frameLen := 0, marked := false, swapped := false, offeredAt := 0, published := false }

def grid24 : Grid := { placedGrid false with words := (placedGrid false).words.set 24 1 }

/-- Obligations.MonitorEvents. -/
theorem witness_MonitorEvents :
    (∃ (mon : Nat) (x : W64) (rest : List W64) (s : State) (m : Mon) (c : Cluster) (w : Warp), Tab.look s.mons mon = some m ∧ m.seen = x :: rest ∧
      Tab.look s.clusters (m.warp / 256) = some c ∧ c.st = .resident ∧ Tab.look s.warps m.warp = some w ∧ m.holds x = true) ∧
    (∃ (mon : Nat) (x : W64) (rest : List W64) (s : State) (m : Mon) (c : Cluster) (w : Warp), Tab.look s.mons mon = some m ∧ m.seen = x :: rest ∧
      Tab.look s.clusters (m.warp / 256) = some c ∧ c.st = .resident ∧ Tab.look s.warps m.warp = some w ∧ m.holds x = false) ∧
    (∃ (mon : Nat) (s : State) (m : Mon) (wg : Wg), Tab.look s.mons mon = some m ∧ m.armed = false ∧ s.monFree mon m = true ∧ m.scr = true ∧
      Tab.look s.wgs (m.warp / 32) = some wg ∧ ∀ i, i < m.size → (m.key + i) / 8 ∉ wg.scrPoison) ∧
    (∃ (mon : Nat) (s : State) (m : Mon), Tab.look s.mons mon = some m ∧ m.armed = false ∧ s.monFree mon m = true ∧ m.scr = false ∧ m.sc = .dev ∧
      isHbm m.key = true ∧ s.swapping m.key = false ∧ s.monPoisoned m = false ∧ s.biasState m.key = 0 ∧ (s.homeEntries (homeOf m.key)).length < 4096 ∧
      ((s.homeEntries (homeOf m.key)).filter (fun e => e.1 == m.ctx)).length < (s.ctxAt m.ctx).monmax.toNat ∧ s.sendWord m = none) ∧
    (∃ (cluster since : Nat) (s : State) (cl : Cluster) (g : Grid), Tab.look s.clusters cluster = some cl ∧ Tab.look s.grids cl.grid = some g ∧
      s.allAtMwait cluster = some since ∧ cl.st = .resident ∧ g.swapthr ≠ 0 ∧ since + 1024 * g.swapthr ≤ s.clock.toNat ∧ s.saveReady cluster (fun _ => true) = true) ∧
    (∃ (cluster : Nat) (s : State) (cl : Cluster), Tab.look s.clusters cluster = some cl ∧ cl.st = .saved ∧
      ∃ e ∈ s.mons, e.2.warp / 256 = cluster ∧ ∃ x ∈ e.2.seen, e.2.holds x = true) := by
  have hm : ∀ seen st since, (atMon seen st since).mons = [(5, { mon0 false true seen with since := since })] := fun _ _ _ => by unfold atMon; rfl
  refine ⟨⟨5, 7, [], atMon [7] .resident 0, { mon0 false true [7] with since := 0 }, cl0 .resident, (vk (atMon [7] .resident 0)).w, by decide +kernel, rfl, by decide +kernel, rfl,
      by decide +kernel, by decide⟩,
    ⟨5, 8, [7], atMon [8, 7] .resident 0, { mon0 false true [8, 7] with since := 0 }, cl0 .resident, (vk (atMon [8, 7] .resident 0)).w, by decide +kernel, rfl, by decide +kernel, rfl,
      by decide +kernel, by decide⟩,
    ⟨5, { two with mons := [(5, mon0 true false [])] }, mon0 true false [], (vk two).wg, rfl, rfl, by decide +kernel, rfl, by decide +kernel, by decide +kernel⟩,
    ⟨5, { two with mons := [(5, mon0 false false [])] }, mon0 false false [], rfl, rfl, by decide +kernel, rfl, rfl, by decide, by decide +kernel, by decide +kernel, by decide +kernel, by decide +kernel, by decide +kernel, by decide +kernel⟩,
    ⟨0, 3, atMon [] .resident 3, cl0 .resident, grid24, by decide +kernel, by decide +kernel, by decide +kernel, rfl, by decide, by decide +kernel, by decide +kernel⟩,
    ⟨0, atMon [8, 7] .saved 0, cl0 .saved, by decide +kernel, rfl, (5, { mon0 false true [8, 7] with since := 0 }), by rw [hm]; exact List.mem_singleton.mpr rfl, rfl, 7, by decide, by decide⟩⟩

/-- A packet of die 0 for the first sector of HBM. -/
def pkt0 (applied : Bool) : Packet :=
  { die := 0, ctx := 0, kind := 0, seq := 0, sector := hbm0 / 64, runs := [(0, [1]), (63, [2])], pz := false, drop := false, applied := applied }

/-- A handoff of stamp 4 on its way to die 7, whose C copy of the sector it names last changed at n. -/
def handed (n : Nat) : State :=
  { State.reset with
    handoffs := [(5, { die := 7, mons := [], value := 1, stamp := 4, list := some [pkt0 true], more := [] })]
    dies := [(7, { Die.reset with l2 := [(hbm0 / 64, { data := List.replicate 64 0, twin := none, poison := false, age := 4, fresh := n })] })] }

/-- Obligations.DiffEvents: a home that has retired and one that has not; a sector with a twin, one whose bytes are newer than the handoff, and one that it patches. -/
theorem witness_DiffEvents :
    (∃ (pkt : Nat) (s : State) (p : Packet), Tab.look s.pkts pkt = some p ∧ p.applied = false ∧ s.packetFirst pkt p = true ∧ p.pz = false ∧ s.isRetired (s.packetCell p) = true) ∧
    (∃ (pkt : Nat) (s : State) (p : Packet), Tab.look s.pkts pkt = some p ∧ p.applied = false ∧ s.packetFirst pkt p = true ∧ p.pz = false ∧ s.isRetired (s.packetCell p) = false) ∧
    (∃ (pkt : Nat) (s : State) (p : Packet), Tab.look s.pkts pkt = some p ∧ p.applied = true ∧ p.drop = false) ∧
    (∃ (msg : Nat) (s : State) (h : Handoff) (l : List Packet) (tag : Nat) (x : Sector), Tab.look s.handoffs msg = some h ∧ h.list = some l ∧
      Tab.look (s.dieAt h.die).l2 tag = some x ∧ h.stamp ≤ x.fresh ∧ ∃ p ∈ l, p.ctx * 2 ^ 52 + p.sector = tag) ∧
    (∃ (msg : Nat) (s : State) (h : Handoff) (l : List Packet) (tag : Nat) (x : Sector), Tab.look s.handoffs msg = some h ∧ h.list = some l ∧
      Tab.look (s.dieAt h.die).l2 tag = some x ∧ x.twin = none ∧ x.fresh < h.stamp ∧ ∃ p ∈ l, p.ctx * 2 ^ 52 + p.sector = tag) :=
  ⟨⟨5, { State.reset with pkts := [(5, pkt0 false)] }.setHome (homeOf hbm0) { Home.reset with fenced := true }, pkt0 false, rfl, rfl, by decide +kernel, rfl, by decide +kernel⟩,
   ⟨5, { State.reset with pkts := [(5, pkt0 false)] }, pkt0 false, rfl, rfl, by decide +kernel, rfl, by decide +kernel⟩,
   ⟨5, { State.reset with pkts := [(5, pkt0 true)] }, pkt0 true, rfl, rfl, rfl⟩,
   ⟨5, handed 4, _, [pkt0 true], hbm0 / 64, _, rfl, rfl, rfl, by decide, pkt0 true, by decide, by decide⟩,
   ⟨5, handed 3, _, [pkt0 true], hbm0 / 64, _, rfl, rfl, rfl, rfl, by decide, pkt0 true, by decide, by decide⟩⟩

/-! Copies and PUBLISH. -/

/-- The resident warp of two threads, with the pages of mem1. -/
@[irreducible] def mapped : State := { two with mem := mem1 }

/-- One byte of channel 0 from VA 0x2200 to an address. -/
def copy0 (dst wg : Nat) (started : List Nat) : Copy :=
  { ctx := 0, grid := 0, cluster := 0, wg := wg, warp := 0, pc := 0x1008, chan := 0, number := 0, xform := 0, slot := 0, esize := 1, shadow := false, toMem := true,
    idx64 := false, src := 0x2200, srcTile := none, dst := dst, dstTile := none, target := 0x2108, idxbase := 0, dims := [(1, 0, 0)], sc := .dev, acks := [], before := [],
    started := started, doneChunks := [], failed := false, pages := [], image := none }

@[irreducible] def copying (c : Copy) : State := { mapped with copies := [(5, c)] }
theorem copying_copies (c : Copy) : (copying c).copies = [(5, c)] := by unfold copying; rfl
theorem copying_look (c : Copy) : Tab.look (copying c).copies 5 = some c := by rw [copying_copies]; rfl

/-- What its chunk leaves. -/
@[irreducible] def ran (c : Copy) : State :=
  match (copying c).runChunk c 0 with
  | .ok t => t
  | .error _ => State.reset

theorem ran_eq {c : Copy} (h : ((copying c).runChunk c 0).toOption.isSome = true) : (copying c).runChunk c 0 = .ok (ran c) := by
  unfold ran; split
  · assumption
  · rename_i e; rw [e] at h; cases h

def faults : Except Stop State → Bool
  | .error .fault => true
  | _ => false

theorem fault_of {x : Except Stop State} (h : faults x = true) : x = .error .fault := by
  unfold faults at h; split at h
  · rfl
  · cases h

/-- The same copy while its cluster is swapped out. -/
@[irreducible] def swappedOut (c : Copy) : State := { copying c with clusters := [(0, cl0 .saved)] }
theorem swappedOut_look (c : Copy) : Tab.look (swappedOut c).copies 5 = some c := by
  rw [show (swappedOut c).copies = (copying c).copies by unfold swappedOut; rfl]; exact copying_look c

/-- The same from an address that is not mapped, into tile 1. -/
def intoTile : Copy := { copy0 0 0 [0] with src := 0x900000, toMem := false, dstTile := some 1 }

/-- A tile from which a copy has read everything. -/
def drained : Tile := { st := .draining, base := 0, count := 1, bits := 0 }

/-- Obligations.CopyEvents. -/
theorem witness_CopyEvents :
    (∃ (copy chunk : Nat) (s : State) (c : Copy), Tab.look s.copies copy = some c ∧ c.before = [] ∧ (∀ p ∈ c.acks, Tab.look s.pkts p = none) ∧
      (∀ e ∈ s.copies, e.1 < copy → e.2.ctx = c.ctx → e.2.chan = c.chan → e.2.before = [] ∧ ∀ p ∈ e.2.acks, Tab.look s.pkts p = none) ∧
      c.failed = false ∧ chunk ∉ c.started ∧ chunk ∈ c.chunks) ∧
    (∃ (copy chunk : Nat) (s t : State) (c : Copy), Tab.look s.copies copy = some c ∧ c.openChunk chunk = true ∧ s.runChunk c chunk = .ok t ∧
      t.snoops = s.snoops ∧ Tab.look t.copies copy = some c) ∧
    (∃ (copy chunk : Nat) (s : State) (c : Copy) (wg : Wg) (cl : Cluster), Tab.look s.copies copy = some c ∧ c.openChunk chunk = true ∧
      s.runChunk c chunk = .error .fault ∧ Tab.look s.wgs c.wg = some wg ∧ Tab.look s.clusters c.cluster = some cl ∧ cl.st.onCore = true) ∧
    (∃ (copy chunk : Nat) (s : State) (c : Copy) (wg : Wg) (cl : Cluster), Tab.look s.copies copy = some c ∧ c.openChunk chunk = true ∧
      s.runChunk c chunk = .error .fault ∧ Tab.look s.wgs c.wg = some wg ∧ Tab.look s.clusters c.cluster = some cl ∧ cl.st.onCore = false ∧ c.dstTile = none) ∧
    (∃ (copy chunk : Nat) (s : State) (c : Copy) (wg : Wg) (cl : Cluster), Tab.look s.copies copy = some c ∧ c.openChunk chunk = true ∧
      s.runChunk c chunk = .error .fault ∧ Tab.look s.wgs c.wg = some wg ∧ Tab.look s.clusters c.cluster = some cl ∧ cl.st.onCore = false ∧ c.dstTile ≠ none) ∧
    (∃ (copy chunk : Nat) (s : State) (c : Copy), Tab.look s.copies copy = some c ∧ c.openChunk chunk = true ∧
      s.runChunk c chunk = .error .fault ∧ Tab.look s.wgs c.wg = none) ∧
    (∃ (copy n : Nat) (s : State) (c : Copy) (wg : Wg) (t : Tile), Tab.look s.copies copy = some c ∧ c.srcTile = some n ∧ c.doneChunks.length = c.chunks.length ∧
      Tab.look s.wgs c.wg = some wg ∧ Tab.look wg.tiles n = some t ∧ t.st = .draining) := by
  have hw : ∀ c, (copying c).wgs = two.wgs := fun c => by unfold copying mapped; rfl
  have hs : ∀ c, (swappedOut c).wgs = two.wgs := fun c => by unfold swappedOut copying mapped; rfl
  refine ⟨⟨5, 0, copying (copy0 0x2300 0 []), _, copying_look _, rfl, by decide +kernel, by decide +kernel, rfl, by decide, by decide +kernel⟩,
    ⟨5, 0, copying (copy0 0x2300 0 [0]), ran (copy0 0x2300 0 [0]), _, copying_look _, by decide, ran_eq (by decide +kernel), by decide +kernel, by decide +kernel⟩,
    ⟨5, 0, copying (copy0 0x900000 0 [0]), _, (vk two).wg, cl0 .resident, copying_look _, by decide, fault_of (by decide +kernel), by rw [hw]; decide +kernel,
      by decide +kernel, rfl⟩,
    ⟨5, 0, swappedOut (copy0 0x900000 0 [0]), _, (vk two).wg, cl0 .saved, swappedOut_look _, by decide, fault_of (by decide +kernel), by rw [hs]; decide +kernel,
      by decide +kernel, rfl, rfl⟩,
    ⟨5, 0, swappedOut intoTile, _, (vk two).wg, cl0 .saved, swappedOut_look _, by decide, fault_of (by decide +kernel), by rw [hs]; decide +kernel,
      by decide +kernel, rfl, by decide⟩,
    ⟨5, 0, copying (copy0 0x900000 9 [0]), _, copying_look _, by decide, fault_of (by decide +kernel), by decide +kernel⟩,
    ⟨5, 1, { mapped with
        copies := [(5, { copy0 0x2300 0 [0] with srcTile := some 1, doneChunks := [0] })]
        wgs := [(0, { (vk two).wg with tiles := Tab.put (vk two).wg.tiles 1 drained })] },
      { copy0 0x2300 0 [0] with srcTile := some 1, doneChunks := [0] }, { (vk two).wg with tiles := Tab.put (vk two).wg.tiles 1 drained }, drained, rfl, rfl, by decide +kernel, rfl,
      by decide +kernel, rfl⟩⟩

/-- A shadow page of window 1, closed by PUBLISH 5, whose first and last bytes are written. -/
def shadow0 : Shadow := { va := 1, page := (List.range 16).map (· + 0x20000000), written := [0, 65535], closed := some 5 }

def retired0 : Retired := { page := List.range 16, succ := (List.range 16).map (· + 16), gen := 0 }

/-- PUBLISH 5 has waited for copy 4 and may switch window 1. -/
@[irreducible] def switching : State :=
  { mapped with
    ops := [(5, op0 (.publish 65536 1 [4] true) [] .dev .glob)], ctxs := mapped.ctxs.map (fun e => (e.1, { e.2 with shadows := [shadow0] })), hostDir := [], snoops := [] }

/-- Obligations.PublishEvents: a window with one shadow page of 16 pages that are not its own. -/
theorem witness_PublishEvents :
    (∃ (op va n : Nat) (copies : List Nat) (s : State) (o : Op) (sh : Shadow) (old : List Nat), Tab.look s.ops op = some o ∧ o.kind = .publish va n copies true ∧
      (∀ p ∈ o.acks, Tab.look s.pkts p = none) ∧ (∀ i ∈ copies, Tab.look s.copies i = none) ∧ s.hostDir = [] ∧ s.snoops = [] ∧
      (s.ctxAt o.ctx).shadows.filter (fun (e : Shadow) => decide (va / 65536 ≤ e.va ∧ e.va < va / 65536 + n) && (match e.closed with | some k => decide (k ≤ op) | none => false)) = [sh] ∧
      old = s.windowPages o.ctx sh.va ∧ sh.page.length = 16 ∧ (old ++ sh.page).Nodup ∧ Memory.wf s.mem = true ∧
      ∃ cl, Tab.look s.clusters (o.warp / 256) = some cl) ∧
    (∃ (ctx page : Nat) (s : State) (r : Retired), (s.ctxAt ctx).retired.find? (fun r => r.page.headD 0 == page) = some r ∧ s.oldDone ctx r.gen = true ∧
      (∀ e ∈ s.dies, ∀ x ∈ e.2.l2, ¬ (tagCtx x.1 = ctx ∧ tagSector x.1 / 64 ∈ r.page)) ∧ (∀ k u, ∀ b ∈ Tab.get [] (s.dieAt k).units u, tagCtx b.1 ≠ ctx) ∧
      ∀ e ∈ s.pkts, ¬ (e.2.ctx = ctx ∧ e.2.sector / 64 ∈ r.page)) :=
  ⟨⟨5, 65536, 1, [4], switching, op0 (.publish 65536 1 [4] true) [] .dev .glob, shadow0, _, by decide +kernel, rfl, (by intro p hp; cases hp), by decide +kernel, by decide +kernel, by decide +kernel,
     by decide +kernel, rfl, by decide, by decide +kernel, by decide +kernel, cl0 .resident, by decide +kernel⟩,
   ⟨63, 0, State.reset.setCtx 63 { Ctx.reset with retired := [retired0] }, retired0, by decide +kernel, by decide +kernel, by decide +kernel, (fun k u b hb => by cases hb), by decide +kernel⟩⟩

/-! Rings and grids. -/

/-- Memory with a page of 1 GiB at VA 0, ring entries at VA 0x2000 and 0x2010 and a launch record at VA 0x2100. -/
def mem2 : List (Nat × BitVec 8) :=
  [(0x10000001000, 0x1), (0x10000001001, 0x10), (0x10000001002, 0x1), (0x11000001000, 0x1), (0x11000001001, 0x20), (0x11000001002, 0x1), (0x12000000001, 0x21), (0x12000000009, 0x22), (0x12000000011, 0x21), (0x12000000017, 0x2), (0x12000000019, 0x22), (0x12000000101, 0x10), (0x12000000110, 0x20), (0x12000000114, 0x1), (0x12000000119, 0x8), (0x1200000011b, 0x20), (0x1200000011c, 0x40), (0x1200000011d, 0x40), (0x1200000011e, 0x8), (0x1200000011f, 0x1f), (0x12000000127, 0xff), (0x12000001000, 0x2f)]

/-- Context 0 with ring 0 at VA 0x2000: entry 0 is good, entry 1 sets a reserved bit. -/
@[irreducible] def ringed (rhead : BitVec 32) : State :=
  { State.reset with
    mem := mem2
    ctxs := [(0, { Ctx.reset with en := true, ptb := 0x10, rings := [(0, { Ring.reset with en := true, rbase := 0x2000, pmax := 3, rhead := rhead, rtail := 16 })] })] }

def rec32 : List W64 := [0x1000#64, 0, 0x0000000100000020#64, 0x1F08404020000800#64, 0xFF00000000000000#64] ++ List.replicate 27 0

/-- A grid at its counter. -/
def waiting : Grid := { placedGrid false with st := .waiting, words := ((placedGrid false).words.set 6 0x2000#64).set 7 0x2100#64 }

/-- A record whose grid waits for the counter at VA 0x2010. -/
def recWaits : List W64 := (rec32.set 6 0x2010#64).set 7 0x2100#64

/-- The same ring, where entry 0's record names that counter. -/
@[irreducible] def countered : State :=
  let s := ringed 0
  { s with mem := (List.range 16).foldl (fun m i => Tab.put m (0x12000000130 + i) ((if i = 1 ∨ i = 9 then (if i = 1 then 0x20 else 0x21) else if i = 0 then 0x10 else 0 : Nat) : BitVec 8)) s.mem }

/-- A waiting grid whose monitor has read its value. -/
def unitMon : Mon :=
  { ctx := 0, warp := unitWarp 0, lanes := 0, pc := 0, flag := none, sc := .dev, scr := false, key := hbm0, size := 8, cc := .geu, x := 0x2100#64, maskForm := false,
    armed := true, seen := [0#64, 0x2100#64], since := 0 }

/-- Entry RHEAD of a ring leads to a record that is good for a grid. -/
structure Admits (ctx : BitVec 6) (ring : BitVec 3) (s : State) (e0 e1 : W64) (ws : List W64) : Prop where
  enabled : (s.ctxAt ctx.toNat).en = true ∧ (s.ringAt ctx.toNat ring.toNat).en = true ∧ (s.ringAt ctx.toNat ring.toNat).halt = false
  entry : (s.ringAt ctx.toNat ring.toNat).rhead ≠ (s.ringAt ctx.toNat ring.toNat).rtail
  free : ∀ e ∈ s.grids, ¬ (e.2.ctx = ctx.toNat ∧ e.2.ring = ring.toNat ∧ e.2.st = .waiting)
  near : s.ringFar ctx.toNat ring.toNat = none
  words : s.unitWords ctx.toNat ((s.ringAt ctx.toNat ring.toNat).rbase.toNat + 16 * ((s.ringAt ctx.toNat ring.toNat).rhead.toNat % 2 ^ (s.ringAt ctx.toNat ring.toNat).log2n.toNat)) 2 = .ok [e0, e1]
  record : s.unitWords ctx.toNat (e0.toNat % 2 ^ 57) 32 = .ok ws

/-- The grid that it makes. -/
def admitted (ctx : BitVec 6) (ring : BitVec 3) (s : State) (e1 : W64) (ws : List W64) : Grid :=
  { Grid.ofWords ws with ctx := ctx.toNat, ring := ring.toNat, ridx := (s.ringAt ctx.toNat ring.toNat).rhead.toNat, stat := e1.toNat % 2 ^ 57 }

theorem counter_reached : ∃ (grid : Nat) (s : State) (g : Grid) (m : Nat × Mon) (x : W64), Tab.look s.grids grid = some g ∧ g.st = .waiting ∧ m ∈ s.mons ∧ m.2.warp = unitWarp grid ∧
    m.2.size = 8 ∧ m.2.maskForm = false ∧ m.2.cc = .geu ∧ m.2.x = BitVec.ofNat 64 g.waitval ∧ g.waitval < 2 ^ 64 ∧ x ∈ m.2.seen ∧ g.waitval ≤ x.toNat := by
  have h : waiting.waitval = 0x2100 := by decide +kernel
  exact ⟨0, { ringed 0 with grids := [(0, waiting)], mons := [(5, unitMon)] }, waiting, (5, unitMon), 0x2100#64, rfl, rfl, List.mem_singleton.mpr rfl, rfl, rfl, rfl, rfl,
    by rw [h]; rfl, by rw [h]; decide, List.mem_cons_of_mem _ List.mem_cons_self, by rw [h]; decide⟩

theorem admits_bad : Admits 0 0 (ringed 1) 0x0200000000002100 0x2200 rec32 :=
  ⟨by decide +kernel, by decide +kernel, by decide +kernel, by decide +kernel, ok_of (by decide +kernel), ok_of (by decide +kernel)⟩

theorem admits_good : Admits 0 0 (ringed 0) 0x2100 0x2200 rec32 :=
  ⟨by decide +kernel, by decide +kernel, by decide +kernel, by decide +kernel, ok_of (by decide +kernel), ok_of (by decide +kernel)⟩

theorem admits_waiting : Admits 0 0 countered 0x2100 0x2200 recWaits :=
  ⟨by decide +kernel, by decide +kernel, by decide +kernel, by decide +kernel, ok_of (by decide +kernel), ok_of (by decide +kernel)⟩

theorem waits_named : (admitted 0 0 countered 0x2200 recWaits).waitctr ≠ 0 := by
  have h2 : (admitted 0 0 countered 0x2200 recWaits).waitctr = 0x2010 := by decide +kernel
  rw [h2]; decide

theorem waits_at : countered.unitSite (0 : BitVec 6).toNat .read (admitted 0 0 countered 0x2200 recWaits).waitctr = .ok (cellOf 0x2010) := by
  have h1 : countered.unitSite 0 .read 0x2010 = .ok (cellOf 0x2010) := ok_of (by decide +kernel)
  have h2 : (admitted 0 0 countered 0x2200 recWaits).waitctr = 0x2010 := by decide +kernel
  rw [h2]; exact h1

/-- Obligations.RingEvents: a ring filled to its size, a refused entry, an eligible grid, a grid that waits, and one whose counter has reached its value. -/
theorem witness_RingEvents :
    (∃ (ctx : BitVec 6) (ring : BitVec 3) (x : BitVec 32) (s : State), s.mgmt.recov = false ∧
      (x - (s.ringAt ctx.toNat ring.toNat).rhead).toNat = 2 ^ (s.ringAt ctx.toNat ring.toNat).log2n.toNat) ∧
    (∃ (ctx : BitVec 6) (ring : BitVec 3) (s : State) (e0 e1 : W64) (ws : List W64) (code detail : Nat), Admits ctx ring s e0 e1 ws ∧
      (admitted ctx ring s e1 ws).refusal e0 e1 (s.ringAt ctx.toNat ring.toNat).pmax.toNat = some (code, detail)) ∧
    (∃ (ctx : BitVec 6) (ring : BitVec 3) (s : State) (e0 e1 : W64) (ws : List W64), let g := admitted ctx ring s e1 ws; Admits ctx ring s e0 e1 ws ∧
      g.refusal e0 e1 (s.ringAt ctx.toNat ring.toNat).pmax.toNat = none ∧ (s.onChip ctx.toNat g.prio).length < 32 ∧ s.spilledOf ctx.toNat g.prio = [] ∧ g.waitctr = 0) ∧
    (∃ (ctx : BitVec 6) (ring : BitVec 3) (s : State) (e0 e1 : W64) (ws : List W64) (key : Nat), let g := admitted ctx ring s e1 ws; Admits ctx ring s e0 e1 ws ∧
      g.refusal e0 e1 (s.ringAt ctx.toNat ring.toNat).pmax.toNat = none ∧ (s.onChip ctx.toNat g.prio).length < 32 ∧ s.spilledOf ctx.toNat g.prio = [] ∧ g.waitctr ≠ 0 ∧
      s.unitSite ctx.toNat .read g.waitctr = .ok key) ∧
    (∃ (grid : Nat) (s : State) (g : Grid) (m : Nat × Mon) (x : W64), Tab.look s.grids grid = some g ∧ g.st = .waiting ∧ m ∈ s.mons ∧ m.2.warp = unitWarp grid ∧ m.2.size = 8 ∧
      m.2.maskForm = false ∧ m.2.cc = .geu ∧ m.2.x = BitVec.ofNat 64 g.waitval ∧ g.waitval < 2 ^ 64 ∧ x ∈ m.2.seen ∧ g.waitval ≤ x.toNat) := by
  refine ⟨⟨63, 7, 16, State.reset, by decide, by decide⟩,
    ⟨0, 0, ringed 1, 0x0200000000002100, 0x2200, rec32, 2, 0x80000000, admits_bad, by decide +kernel⟩,
    ⟨0, 0, ringed 0, 0x2100, 0x2200, rec32, admits_good, by decide +kernel, by decide +kernel, by decide +kernel, by decide +kernel⟩,
    ⟨0, 0, countered, 0x2100, 0x2200, recWaits, cellOf 0x2010, admits_waiting, by decide +kernel, by decide +kernel, by decide +kernel, waits_named, waits_at⟩,
    counter_reached⟩

/-- Memory with a data page at VA 0x2000, a far page at VA 0x10000, a near page of the capacity tier at VA 0x20000 and an offline one at VA 0x30000. -/
def mem3 : List (Nat × BitVec 8) :=
  [(0x10000001000, 0x1), (0x10000001001, 0x10), (0x10000001002, 0x1), (0x10000003000, 0x41), (0x11000001000, 0x1), (0x11000001001, 0x20), (0x11000001002, 0x1), (0x12000001000, 0x1), (0x12000001001, 0x30), (0x12000001002, 0x1), (0x13000001000, 0x1), (0x13000001001, 0x40), (0x13000001002, 0x1), (0x14000001010, 0x2f), (0x14000001012, 0x3), (0x14000001080, 0x6f)] ++
   [(0x14000001081, 0x5), (0x14000001085, 0x10), (0x14000001100, 0x6f), (0x14000001101, 0x4), (0x14000001102, 0x5), (0x14000001180, 0x6f), (0x14000001181, 0xd), (0x14000001185, 0x10)]

/-! Grids. -/

/-- The cause of a failed answer. -/
def errorOf {ε α : Type} : Except ε α → Option ε
  | .error e => some e
  | .ok _ => none

theorem error_of {ε α : Type} {x : Except ε α} {e : ε} (h : errorOf x = some e) : x = .error e := by
  cases x with
  | error y => exact congrArg _ (Option.some.inj h)
  | ok a => cases h


/-- A grid of prio 3 with one cluster to place. -/
def gridN (st : GridSt) (next exited donectr : Nat) : Grid :=
  { placedGrid false with
    st := st, next := next, exited := exited
    words := (((placedGrid false).words.set 3 0x0108404020000001#64).set 4 0xFF30000000000000#64).set 5 (BitVec.ofNat 64 donectr) }

/-- A module that is ready, with that grid as number 3, and a context with or without save frames. -/
@[irreducible] def gridded (g : Grid) (saven : BitVec 12) (clock : W64) : State :=
  { State.reset with
    mgmt := { Mgmt.reset with ready := true }, clock := clock, grids := [(3, g)], mem := mem3
    ctxs := [(0, { Ctx.reset with en := true, ptb := 0x10, saven := saven, saveb := 16 })]
    dies := [(7, { Die.reset with holds := [(2, 3)] })] }

@[irreducible] def offered : State :=
  { gridded (gridN .eligible 1 0 0) 0 0 with clusters := [(0, { cl0 .offered with grid := 3 })] }

/-- Obligations.GridEvents. -/
theorem witness_GridEvents :
    (∃ (die : BitVec 3) (group : Nat) (s : State), (s.dieAt die.toNat).fenced = false ∧ group ≤ 2 ∧ s.mgmt.ready = true ∧ group ∉ (s.dieAt die.toNat).idle ∧
      s.pull die.toNat group = .nothing) ∧
    (∃ (die : BitVec 3) (group : Nat) (s : State) (k clid : Nat) (g : Grid), (s.dieAt die.toNat).fenced = false ∧ group ≤ 2 ∧ s.mgmt.ready = true ∧ group ∉ (s.dieAt die.toNat).idle ∧
      s.pull die.toNat group = .place (k, g, .fresh clid)) ∧
    (∃ (die : BitVec 3) (group : Nat) (s : State) (k : Nat), (s.dieAt die.toNat).fenced = false ∧ group ≤ 2 ∧ s.mgmt.ready = true ∧ group ∉ (s.dieAt die.toNat).idle ∧
      s.pull die.toNat group = .hold k) ∧
    (∃ (die : BitVec 3) (group : Nat) (s : State) (k c : Nat) (g : Grid) (cl : Cluster), (s.dieAt die.toNat).fenced = false ∧ group ≤ 2 ∧ s.mgmt.ready = true ∧
      group ∉ (s.dieAt die.toNat).idle ∧ s.pull die.toNat group = .place (k, g, .saved c) ∧ Tab.look s.clusters c = some cl) ∧
    (∃ (grid : Nat) (s : State) (g : Grid) (d : Nat × Nat), Tab.look s.grids grid = some g ∧ s.starving grid g = true ∧ (11 - g.prio) * s.ageOf g ≤ s.waited g ∧
      grid ∉ s.preempts ∧ (s.heldFor grid).find? (s.wouldFit grid g) = some d) ∧
    (∃ (grid : Nat) (s : State) (g : Grid), Tab.look s.grids grid = some g ∧ g.st = .eligible ∧ g.exited = g.nclus ∧ s.gridQuiet grid = true) ∧
    (∃ (grid : Nat) (s : State) (g : Grid), Tab.look s.grids grid = some g ∧ g.st = .complete ∧ (∀ e ∈ s.pkts, e.2.ctx ≠ g.ctx) ∧ g.donectr = 0) ∧
    (∃ (grid : Nat) (s : State) (g : Grid) (key : Nat), Tab.look s.grids grid = some g ∧ g.st = .complete ∧ (∀ e ∈ s.pkts, e.2.ctx ≠ g.ctx) ∧ g.donectr ≠ 0 ∧
      s.unitFar g.ctx g.donectr 1 = none ∧ s.unitSite g.ctx .both g.donectr = .ok key ∧ isHbm key = true ∧ s.biasState key = 0 ∧
      ∀ e ∈ s.ops, ∀ a ∈ e.2.accs, a.done = true ∨ a.res = [] ∨ a.pa + a.size ≤ key ∨ key + 8 ≤ a.pa) ∧
    (∃ (grid : Nat) (s : State) (g : Grid) (cause : Nat), Tab.look s.grids grid = some g ∧ g.st = .complete ∧ (∀ e ∈ s.pkts, e.2.ctx ≠ g.ctx) ∧ g.donectr ≠ 0 ∧
      s.unitFar g.ctx g.donectr 1 = none ∧ s.unitSite g.ctx .both g.donectr = .error cause) ∧
    (∃ (s : State) (k j : Nat) (c : Cluster) (g : Grid) (w : Warp), s.mgmt.recov = false ∧ Tab.look s.clusters k = some c ∧ c.st = .resident ∧ Tab.look s.grids c.grid = some g ∧ g.ctx = 0 ∧
      j / 256 = k ∧ Tab.look s.warps j = some w) := by
  have hops : ∀ g x y, (gridded g x y).ops = [] := fun _ _ _ => by unfold gridded; rfl
  refine ⟨⟨5, 1, gridded (gridN .complete 1 1 0) 4095 0, by decide +kernel, by decide, by decide +kernel, by decide +kernel, by decide +kernel⟩,
    ⟨5, 1, gridded (gridN .eligible 0 0 0) 4095 0, 3, 0, gridN .eligible 0 0 0, by decide +kernel, by decide, by decide +kernel, by decide +kernel, by decide +kernel⟩,
    ⟨7, 1, gridded (gridN .eligible 0 0 0) 0 0x100000000#64, 3, by decide +kernel, by decide, by decide +kernel, by decide +kernel, by decide +kernel⟩,
    ⟨0, 0, offered, 3, 0, gridN .eligible 1 0 0, { cl0 .offered with grid := 3 }, by decide +kernel, by decide, by decide +kernel, by decide +kernel, by decide +kernel, by decide +kernel⟩,
    ⟨3, gridded (gridN .eligible 0 0 0) 0 0x100000000#64, gridN .eligible 0 0 0, (7, 2), by decide +kernel, by decide +kernel, by decide +kernel, by decide +kernel, by decide +kernel⟩,
    ⟨3, gridded (gridN .eligible 1 1 0) 0 0, gridN .eligible 1 1 0, by decide +kernel, rfl, by decide +kernel, by decide +kernel⟩,
    ⟨3, gridded (gridN .complete 1 1 0) 0 0, gridN .complete 1 1 0, by decide +kernel, rfl, by decide +kernel, by decide +kernel⟩,
    ⟨3, gridded (gridN .complete 1 1 0x2000) 0 0, gridN .complete 1 1 0x2000, cellOf 0x30000, by decide +kernel, rfl, by decide +kernel, by decide +kernel, by decide +kernel,
      ok_of (by decide +kernel), by decide, by decide +kernel, by rw [hops]; intro e he; cases he⟩,
    ⟨3, gridded (gridN .complete 1 1 0x900000) 0 0, gridN .complete 1 1 0x900000, causeNotMapped, by decide +kernel, rfl, by decide +kernel, by decide +kernel, by decide +kernel,
      error_of (by decide +kernel)⟩,
    ⟨two, 0, 0, cl0 .resident, placedGrid false, (vk two).w, by decide +kernel, by decide +kernel, rfl, by decide +kernel, by decide, rfl, by decide +kernel⟩⟩

/-- A cluster in a state, its warp marked or not with both threads at a yield point, and tile 1 as given. -/
@[irreducible] def yielding (st : ClSt) (marked : Bool) (tile : TileSt) : State :=
  { (res (fun _ t => { t with st := .parked .yieldSave }) (fun w => { w with pair := none, marked := marked })).modWg 0 (fun wg =>
      { wg with tiles := Tab.put wg.tiles 1 { st := tile, base := 0, count := 1, bits := 0 } }) with
    clusters := [(0, { cl0 st with marked := marked })] }

/-- Obligations.SaveEvents: each step, made and waited for. -/
theorem witness_SaveEvents :
    let held := fun (s : State) (w : Warp) => w.saved = true ∨ (w.marked = true ∧ ∀ l, l < 32 → s.atYield (w.thread l) = true)
    let at_ := fun (s : State) (cl : Cluster) (g : Grid) => Tab.look s.clusters 0 = some cl ∧ Tab.look s.grids cl.grid = some g
    (∃ (s : State) (cl : Cluster) (g : Grid), at_ s cl g ∧ cl.st = .resident ∧ cl.marked = true ∧
      (∀ e ∈ s.warps, e.1 / 256 = 0 → held s e.2 ∧ ∀ l, l < 32 → (e.2.thread l).st = .ready ∨ s.atYield (e.2.thread l) = true) ∧
      (∀ e ∈ s.ops, e.2.warp / 256 = 0 → e.2.isWait = true) ∧ ∀ e ∈ s.wgs, e.1 / 8 = 0 → e.2.seqReady = true) ∧
    (∃ (s : State) (cl : Cluster) (g : Grid), at_ s cl g ∧ cl.st = .resident ∧ cl.marked = false) ∧
    (∃ (s : State) (cl : Cluster) (g : Grid), at_ s cl g ∧ cl.st = .saving ∧ ∀ e ∈ s.wgs, e.1 / 8 = 0 → ∀ t ∈ e.2.tiles, t.2.st ≠ .draining) ∧
    (∃ (s : State) (cl : Cluster) (g : Grid), at_ s cl g ∧ cl.st = .saving ∧ ∃ e ∈ s.wgs, e.1 / 8 = 0 ∧ ∃ t ∈ e.2.tiles, t.2.st = .draining) ∧
    (∃ (s : State) (cl : Cluster) (g : Grid), at_ s cl g ∧ cl.st = .releasing ∧ (∀ e ∈ s.pkts, ¬ (e.2.die = cl.die ∧ e.2.ctx = g.ctx)) ∧
      (s.ctxAt g.ctx).remaps.length + (remapsOf s 0 cl g).length ≤ 256) ∧
    (∃ (s : State) (cl : Cluster) (g : Grid), at_ s cl g ∧ cl.st = .releasing ∧ ∃ e ∈ s.pkts, e.2.die = cl.die ∧ e.2.ctx = g.ctx) :=
  ⟨⟨yielding .resident true .empty, { cl0 .resident with marked := true }, placedGrid false, by decide +kernel, rfl, rfl, by decide +kernel, by decide +kernel, by decide +kernel⟩,
   ⟨yielding .resident false .empty, cl0 .resident, placedGrid false, by decide +kernel, rfl, rfl⟩,
   ⟨yielding .saving false .filling, cl0 .saving, placedGrid false, by decide +kernel, rfl, by decide +kernel⟩,
   ⟨yielding .saving false .draining, cl0 .saving, placedGrid false, by decide +kernel, rfl, by decide +kernel⟩,
   ⟨yielding .releasing false .filling, cl0 .releasing, placedGrid false, by decide +kernel, rfl, by decide +kernel, by decide +kernel⟩,
   ⟨{ yielding .releasing false .filling with pkts := [(9, pkt0 true)] }, cl0 .releasing, placedGrid false, by decide +kernel, rfl, (9, pkt0 true), List.mem_singleton.mpr rfl, rfl, by decide⟩⟩

/-! Scarab. -/

/-- Both threads are parked on record 5, which is queued or not. -/
@[irreducible] def recorded (cause : Nat) (queued : Bool) : State :=
  { res (fun _ t => { t with st := .parked (.record 5) }) (fun w => { w with pair := none }) with
    recs := [(5, rec0 cause queued)], cores := [(0, { Core.reset with queue := if queued then [5] else List.range 63 })] }

/-- Obligations.ScarabEvents: a queue with one place left. -/
theorem witness_ScarabEvents :
    (∃ (core id : Nat) (s : State) (r : TrapRec), s.recs.find? (fun e => e.2.core == core && !e.2.queued && s.recOnCore e.2) = some (id, r) ∧ (s.coreAt core).queue.length = 63) ∧
    (∃ (core id k : Nat) (s : State) (r : TrapRec) (w : Warp), s.headRec core = some (id, r) ∧ r.warp = some k ∧ r.dbg = false ∧ Tab.look s.warps k = some w ∧
      r.cause 0 ∉ [39, 40, 41, 43]) ∧
    (∃ (core id k : Nat) (s : State) (r : TrapRec) (w : Warp), s.headRec core = some (id, r) ∧ r.warp = some k ∧ r.dbg = false ∧ Tab.look s.warps k = some w ∧ r.cause 0 = 43) ∧
    (∃ (core id : Nat) (s : State) (r : TrapRec) (c : Cluster), s.headRec core = some (id, r) ∧ Tab.look s.clusters (r.wgKey / 8) = some c) ∧
    (∃ (id k : Nat) (s : State) (r : TrapRec) (w : Warp), Tab.look s.recs id = some r ∧ r.queued = true ∧ r.warp = some k ∧ Tab.look s.warps k = some w ∧ w.onRecord id ≠ 0) :=
  ⟨⟨0, 5, recorded 36 false, rec0 36 false, by decide +kernel, by decide +kernel⟩,
   ⟨0, 5, 0, recorded 36 true, rec0 36 true, (vk (recorded 36 true)).w, by decide +kernel, rfl, rfl, by decide +kernel, by decide⟩,
   ⟨0, 5, 0, recorded 43 true, rec0 43 true, (vk (recorded 43 true)).w, by decide +kernel, rfl, rfl, by decide +kernel, by decide⟩,
   ⟨0, 5, recorded 39 true, rec0 39 true, cl0 .resident, by decide +kernel, by decide +kernel⟩,
   ⟨5, 0, recorded 36 true, rec0 36 true, (vk (recorded 36 true)).w, by decide +kernel, rfl, rfl, by decide +kernel, by decide +kernel⟩⟩

/-- A warp stopped by a breakpoint, its threads before their clause. -/
@[irreducible] def stoppedAt : State :=
  res (fun _ t => { t with st := .parked .brk, pc := 0x1000, cl := none }) (fun w => { w with pair := none, dbg := .stopped })

/-- A warp that waits for a private page. -/
@[irreducible] def growing : State :=
  res (fun _ t => { t with st := .parked (.grow 17) }) (fun w => { w with pair := none })

/-- Obligations.StepEvents. -/
theorem witness_StepEvents :
    (∃ (warp : Nat) (s : State) (v : View) (g : Group) (rest : List Group) (c : ClauseCtx) (n : Nat) (enter : Bool), s.view warp = some v ∧ v.w.dbg = .stopped ∧ v.w.pair = none ∧
      v.cl.st = .resident ∧ (v.w.modThreads (v.w.those s.heldByDebug) Thread.wake).ordered = g :: rest ∧ s.startOf v.wg.core v.g.ctx g = .go c n enter ∧
      v.w.mayStart c n enter = true ∧ s.recs = []) ∧
    (∃ (warp p : Nat) (s : State) (v : View), s.view warp = some v ∧ v.w.growPage = some p) :=
  ⟨⟨0, stoppedAt, _, pairA.1.1, [], placedClause 0, 1, true, vk_eq (by decide +kernel), by decide +kernel, by decide +kernel, by decide +kernel, by decide +kernel, by decide +kernel,
     by decide +kernel, by decide +kernel⟩,
   ⟨0, 17, growing, _, vk_eq (by decide +kernel), by decide +kernel⟩⟩

/-! The capacity tier. -/

/-- A warp of context 0 waits for far page 1; the partition has these free frames, and the group behind the page serves a pool. -/
@[irreducible] def farState (f : List Nat) (x : Ctx) : State :=
  { res (fun _ t => { t with st := .parked (.far 1) }) (fun w => { w with pair := none }) with
    mem := mem3, ctxs := [(0, { x with en := true, ptb := 0x10 })], parts := [(0, { Part.whole with free := f })]
    ogs := [(0, { Og.off with pers := 2, st := .active })] }

/-- The swap of page 1 to a frame, or with page 2. -/
def swap0 (out : Option Nat) (cmd : Bool) : Swap :=
  { ctx := 0, page := 1, src := 0x100000000000, dst := 0x50000, out := out, far := false, cmd := cmd, lost := false }

/-- Obligations.CapacityEvents. -/
theorem witness_CapacityEvents :
    (∃ (warp c page e a f : Nat) (rest : List Nat) (s : State), s.farWanted warp = some (c, page) ∧ s.tierEntry c page = some (e, a) ∧ entryKind e = 1 ∧ e.testBit 11 = false ∧
      s.moving c page = false ∧ ((s.ctxAt c).mdst = 0 ∨ (s.ctxAt c).mdstUsed = true) ∧ (s.partAt (s.ctxAt c).part.toNat).free = f :: rest) ∧
    (∃ (warp cold c page e a e' a' : Nat) (s : State), s.farWanted warp = some (c, page) ∧ s.tierEntry c page = some (e, a) ∧ entryKind e = 1 ∧ e.testBit 11 = false ∧
      s.moving c page = false ∧ ((s.ctxAt c).mdst = 0 ∨ (s.ctxAt c).mdstUsed = true) ∧ (s.partAt (s.ctxAt c).part.toNat).free = [] ∧ cold ≠ page ∧ s.mayGoFar c cold = true ∧
      s.tierEntry c cold = some (e', a')) ∧
    (∃ (swap : Nat) (s : State) (x : Swap), Tab.look s.swaps swap = some x ∧ x.dst ≠ 0 ∧ x.lost = false ∧ (s.flushFrame x.dst).frameBusy x.dst = false) ∧
    (∃ s : State, (s.ctxAt 63).mbusy = true) ∧ (∃ s : State, (s.ctxAt 63).mbusy = false ∧ s.mgmt.recov = false) ∧
    (∃ x : W64, bitsSet x 57 57 = true) ∧ (∃ x : W64, bitsSet x 15 0 = true) ∧
    (∃ (x : W64) (s : State), (s.ctxAt 0).mbusy = false ∧ s.mgmt.recov = false ∧ bitsSet x 57 57 = false ∧ bitsSet x 15 0 = false ∧ s.tierEntry 0 (x.toNat % 2 ^ 57 / 65536) = none) := by
  refine ⟨⟨0, 0, 1, 0x10000000056F, 0x14080, 0x50000, [], farState [0x50000] Ctx.reset, by decide +kernel, by decide +kernel, by decide +kernel, by decide +kernel, by decide +kernel,
      .inl (by decide +kernel), by decide +kernel⟩,
    ⟨0, 2, 0, 1, 0x10000000056F, 0x14080, 0x5046F, 0x14100, farState [] { Ctx.reset with mdst := 1, mdstUsed := true }, by decide +kernel, by decide +kernel, by decide +kernel,
      by decide +kernel, by decide +kernel, .inr (by decide +kernel), by decide +kernel, by decide, by decide +kernel, by decide +kernel⟩,
    ⟨5, { farState [] Ctx.reset with swaps := [(5, swap0 (some 2) true)] }, swap0 (some 2) true, rfl, by decide, rfl, by decide +kernel⟩,
    ⟨State.reset.setCtx 63 { Ctx.reset with mbusy := true }, by decide +kernel⟩, ⟨State.reset, by decide +kernel, rfl⟩, ⟨0x0200000000000000#64, by decide⟩, ⟨0x8000#64, by decide⟩,
    ⟨0x01FFFFFFFFFF0000#64, farState [] Ctx.reset, by decide +kernel, by decide +kernel, by decide, by decide, by decide +kernel⟩⟩

/-- Obligations.CapacityEvents: a command on page 1, 2 or 3, which is far, near or offline. -/
theorem witness_CapacityCommands :
    let on := fun (s : State) (page e a : Nat) => (s.ctxAt 0).mbusy = false ∧ s.mgmt.recov = false ∧ s.tierEntry 0 page = some (e, a) ∧ s.moving 0 page = false
    let open_ := fun (s : State) => (s.ogAt 0).isPool = true ∧ (s.ogAt 0).st = .active ∧ (s.partAt (s.ctxAt 0).part.toNat).ogs.getLsbD 0 = true
    (∃ s e a, on s 3 e a ∧ entryKind e = 1 ∧ e.testBit 11 = true) ∧
    (∃ s e a, on s 1 e a ∧ entryKind e = 1 ∧ e.testBit 11 = false ∧ open_ s ∧ (s.ctxAt 0).mdst ≠ 0 ∧ (s.ctxAt 0).mdst.toNat * 65536 / 2 ^ 40 = 0x10) ∧
    (∃ s e a, on s 1 e a ∧ entryKind e = 1 ∧ e.testBit 11 = false ∧ open_ s ∧ (s.ctxAt 0).mdst = 0 ∧ s.poolUsed.length < 2 ^ 24) ∧
    (∃ s e a, on s 2 e a ∧ entryKind e = 0 ∧ e.testBit 11 = false) :=
  ⟨⟨farState [] Ctx.reset, 0x100000000D6F, 0x14180, by decide +kernel, by decide, by decide⟩,
   ⟨farState [] { Ctx.reset with mdst := 0x10000000 }, 0x10000000056F, 0x14080, by decide +kernel, by decide, by decide, by decide +kernel, by decide +kernel, by decide +kernel⟩,
   ⟨farState [] Ctx.reset, 0x10000000056F, 0x14080, by decide +kernel, by decide, by decide, by decide +kernel, by decide +kernel, by decide +kernel⟩,
   ⟨farState [] Ctx.reset, 0x5046F, 0x14100, by decide +kernel, by decide, by decide⟩⟩

/-! Contexts. -/

/-- Context 0 invalidates 4096 pages from page n on while an access of page 2 is in flight. -/
@[irreducible] def invalidating (n : Nat) : State :=
  { withOp (ldG hbm0 .dev .glob) with ctxs := [(0, { Ctx.reset with ibusy := true, inv := some (n, 4096) })] }

/-- Obligations.TranslationEvents. -/
theorem witness_TranslationEvents :
    let ok := fun (s : State) => s.mgmt.recov = false
    (∃ s : State, ok s ∧ (s.ctxAt 63).ibusy = true) ∧ (∃ x : W64, bitsSet x 62 57 = true) ∧
    (∃ (x : W64) (s : State), ok s ∧ (s.ctxAt 63).ibusy = false ∧ bitsSet x 62 57 = false ∧ x.getLsbD 63 = false) ∧
    (∃ (x : W64) (s : State), ok s ∧ (s.ctxAt 63).ibusy = false ∧ bitsSet x 62 57 = false ∧ x.getLsbD 63 = true) ∧
    (∃ (s : State) (lo n : Nat), (s.ctxAt 0).ibusy = true ∧ (s.ctxAt 0).inv = some (lo, n) ∧
      ∃ e ∈ s.ops, e.2.ctx = 0 ∧ e.2.inScratch = false ∧ ∃ a ∈ e.2.accs, a.done = false ∧ lo ≤ a.va / 4096 ∧ a.va / 4096 < lo + n) ∧
    (∃ (s : State) (lo n : Nat), (s.ctxAt 0).ibusy = true ∧ (s.ctxAt 0).inv = some (lo, n) ∧
      ¬ ∃ e ∈ s.ops, e.2.ctx = 0 ∧ e.2.inScratch = false ∧ ∃ a ∈ e.2.accs, a.done = false ∧ lo ≤ a.va / 4096 ∧ a.va / 4096 < lo + n) ∧
    (∃ (ctx : BitVec 6) (x : W64) (s : State), x.getLsbD 0 = true ∧ ok s ∧ (s.ctxAt ctx.toNat).en = true) ∧
    (∃ (ctx : BitVec 6) (x : W64) (s : State), x.getLsbD 0 = true ∧ ok s ∧ (s.ctxAt ctx.toNat).en = false ∧ ∀ e ∈ s.pkts, e.2.ctx ≠ ctx.toNat) ∧
    (∃ (ctx : BitVec 6) (x : W64) (s : State), x.getLsbD 0 = false ∧ ok s ∧ (s.ctxAt ctx.toNat).en = true) ∧
    (∃ (ctx : BitVec 6) (x : W64) (s : State), x.getLsbD 0 = false ∧ ok s ∧ (s.ctxAt ctx.toNat).en = false) ∧
    (∃ (key : Nat) (s : State) (g : Grid), Tab.look s.grids key = some g) ∧
    (∃ (c : Nat) (s : State), c < 64 ∧ ok s ∧ (s.ctxAt c).en = false) ∧ (∃ (c : Nat) (s : State), c < 64 ∧ ok s ∧ (s.ctxAt c).en = true) ∧
    (∃ (off : Nat) (s : State), ok s ∧ off % 8 ≠ 0) ∧ (∃ (off : Nat) (s : State), ok s ∧ 0xD030 ≤ off) := by
  have hi : ∀ n, (invalidating n).ops = [(5, ldG hbm0 .dev .glob)] := fun n => by unfold invalidating withOp; rfl
  exact ⟨⟨State.reset.setCtx 63 { Ctx.reset with ibusy := true }, by decide, by decide +kernel⟩, ⟨0x4000000000000000#64, by decide⟩,
   ⟨0x01FFFFFFFFFFFFFF#64, State.reset, rfl, by decide +kernel, by decide, by decide⟩, ⟨0x8000000000000000#64, State.reset, rfl, by decide +kernel, by decide, by decide⟩,
   ⟨invalidating 0, 0, 4096, by decide +kernel, by decide +kernel, (5, ldG hbm0 .dev .glob), by rw [hi]; exact List.mem_singleton.mpr rfl, rfl, rfl, _, List.mem_singleton.mpr rfl, rfl, by decide, by decide⟩,
   ⟨invalidating 3, 3, 4096, by decide +kernel, by decide +kernel, by rw [hi]; decide⟩,
   ⟨63, 0xC1#64, State.reset.setCtx 63 { Ctx.reset with en := true }, by decide, rfl, by decide +kernel⟩, ⟨63, 0xC1#64, State.reset, by decide, rfl, by decide +kernel, by decide +kernel⟩,
   ⟨63, 0xC0#64, State.reset.setCtx 63 { Ctx.reset with en := true }, by decide, rfl, by decide +kernel⟩,
   ⟨63, 0xC0#64, State.reset, by decide, rfl, by decide +kernel⟩, ⟨3, { State.reset with grids := [(3, placedGrid false)] }, placedGrid false, rfl⟩,
   ⟨63, State.reset, by decide, rfl, by decide +kernel⟩,
   ⟨63, State.reset.setCtx 63 { Ctx.reset with en := true }, by decide, rfl, by decide +kernel⟩, ⟨4, State.reset, rfl, by decide⟩, ⟨0xD030, State.reset, rfl, by decide⟩⟩

/-! Obper groups. -/

/-- A group as it stands, with or without a swap from a pool frame behind group 11. -/
@[irreducible] def grouped (g : Nat) (o : Og) (busy : Bool) : State :=
  { State.reset with ogs := [(g, o)], swaps := if busy then [(0, { swap0 none false with src := 0x1B0000000000 })] else [] }

/-- A write of a register group 11 that starts a switch to personality 5. -/
def go5 : W64 := 0x85#64

/-- Group 11 with one pool window. -/
def pool11 : Og :=
  { Og.off with st := .active, pers := 2, lanes := 0xFFFF, windows := [{ pers := 2, kind := .pool, base := 0x1100000000000, size := 0x10000, link := 0 }] }

/-- Obligations.ObperEvents. -/
theorem witness_ObperEvents :
    (∃ (g : Nat) (x : W64) (s : State), x.getLsbD 7 = true ∧ g < 12 ∧ s.mgmt.recov = false ∧ (s.ogAt g).busy = true) ∧
    (∃ (g : Nat) (x : W64) (s : State), x.getLsbD 7 = true ∧ g < 12 ∧ s.mgmt.recov = false ∧ (s.ogAt g).busy = false ∧ bitsSet x 63 8 = true) ∧
    (∃ (g : Nat) (x : W64) (s : State), x.getLsbD 7 = true ∧ g < 12 ∧ s.mgmt.recov = false ∧ (s.ogAt g).busy = false ∧ bitsSet x 6 4 = true) ∧
    (∃ (g : Nat) (x : W64) (s : State), x.getLsbD 7 = true ∧ g < 12 ∧ s.mgmt.recov = false ∧ (s.ogAt g).busy = false ∧ 6 ≤ x.toNat % 16) ∧
    (∃ (g : Nat) (x : W64) (s : State), x.getLsbD 7 = true ∧ g < 12 ∧ s.mgmt.recov = false ∧ (s.ogAt g).busy = false ∧ bitsSet x 63 8 = false ∧ bitsSet x 6 4 = false ∧ x.toNat % 16 < 6 ∧
      (s.ogAt g).pin = true) ∧
    (∃ (g : Nat) (x : W64) (s : State), x.getLsbD 7 = true ∧ g < 12 ∧ s.mgmt.recov = false ∧ (s.ogAt g).busy = false ∧ bitsSet x 63 8 = false ∧ bitsSet x 6 4 = false ∧ x.toNat % 16 < 6 ∧
      (s.ogAt g).pin = false ∧ x.toNat % 16 = 1) ∧
    (∃ (g : Nat) (x : W64) (s : State), x.getLsbD 7 = true ∧ g < 12 ∧ s.mgmt.recov = false ∧ (s.ogAt g).busy = false ∧ bitsSet x 63 8 = false ∧ bitsSet x 6 4 = false ∧ x.toNat % 16 < 6 ∧
      (s.ogAt g).pin = false ∧ x.toNat % 16 ≠ 1 ∧ (s.ogAt g).allowed.getLsbD (x.toNat % 16) = false) ∧
    (∃ (g : Nat) (x : W64) (s : State), x.getLsbD 7 = true ∧ g < 12 ∧ s.mgmt.recov = false ∧ (s.ogAt g).busy = false ∧ bitsSet x 63 8 = false ∧ bitsSet x 6 4 = false ∧ x.toNat % 16 < 6 ∧
      (s.ogAt g).pin = false ∧ x.toNat % 16 ≠ 1 ∧ (s.ogAt g).allowed.getLsbD (x.toNat % 16) = true ∧ s.tierBehind g = true) ∧
    (∃ (g : Nat) (x : W64) (s : State), x.getLsbD 7 = true ∧ g < 12 ∧ s.mgmt.recov = false ∧ (s.ogAt g).busy = false ∧ bitsSet x 63 8 = false ∧ bitsSet x 6 4 = false ∧ x.toNat % 16 < 6 ∧
      (s.ogAt g).pin = false ∧ x.toNat % 16 ≠ 1 ∧ (s.ogAt g).allowed.getLsbD (x.toNat % 16) = true ∧ s.tierBehind g = false ∧ (s.ogAt g).st = .active ∧ (s.ogAt g).pers.toNat = x.toNat % 16) ∧
    (∃ (g : Nat) (x : W64) (s : State), x.getLsbD 7 = true ∧ g < 12 ∧ s.mgmt.recov = false ∧ (s.ogAt g).busy = false ∧ bitsSet x 63 8 = false ∧ bitsSet x 6 4 = false ∧ x.toNat % 16 < 6 ∧
      (s.ogAt g).pin = false ∧ x.toNat % 16 ≠ 1 ∧ (s.ogAt g).allowed.getLsbD (x.toNat % 16) = true ∧ s.tierBehind g = false ∧ (s.ogAt g).st = .active ∧ (s.ogAt g).pers.toNat ≠ x.toNat % 16) ∧
    (∃ (g : Nat) (x : W64) (s : State), x.getLsbD 7 = true ∧ g < 12 ∧ s.mgmt.recov = false ∧ (s.ogAt g).busy = false ∧ bitsSet x 63 8 = false ∧ bitsSet x 6 4 = false ∧ x.toNat % 16 < 6 ∧
      (s.ogAt g).pin = false ∧ x.toNat % 16 ≠ 1 ∧ (s.ogAt g).allowed.getLsbD (x.toNat % 16) = true ∧ s.tierBehind g = false ∧ (s.ogAt g).st = .failed ∧ x.toNat % 16 ≠ 0) ∧
    (∃ (g core : Nat) (s : State), (s.ogAt g).st = .quiescing ∧ core < 192 ∧ ∃ k < 192, (s.dieAt (k / 24)).fenced = false ∧ k ∉ insertNat core (s.ogAt g).acks) ∧
    (∃ (g core : Nat) (s : State), (s.ogAt g).st = .quiescing ∧ core < 192 ∧ (∀ k < 192, (s.dieAt (k / 24)).fenced = false → k ∈ insertNat core (s.ogAt g).acks) ∧
      ∀ e ∈ s.reductions, e.2.group ≠ some g) ∧
    (∃ (g : Nat) (s : State), (s.ogAt g).st = .draining ∧ (s.ogAt g).pers ≠ 5 ∧ s.inFlight g = false ∧ s.dies = [] ∧ s.dca = []) ∧
    (∃ (g : Nat) (s : State), (s.ogAt g).st = .dark ∧ (s.ogAt g).tgt ≠ 0 ∧ (s.ogAt g).busy = true ∧ s.mgmt.recov = false) ∧
    (∃ (g : Nat) (s : State), (s.ogAt g).st = .training ∧ (s.ogAt g).tgt = 2) ∧ (∃ (g : Nat) (s : State), (s.ogAt g).st = .training ∧ (s.ogAt g).tgt = 3) ∧
    (∃ (g : Nat) (s : State), (s.ogAt g).st = .mapping) ∧
    (∃ (g link : Nat) (s : State), (s.ogAt g).st = .active ∧ (s.ogAt g).isPool = true ∧ link < (if (s.ogAt g).pers = 3 then 2 else 1) ∧ link ∉ (s.ogAt g).failedLinks ∧
      link ∉ (s.ogAt g).downLinks) ∧
    (∃ (g link : Nat) (s : State), (s.ogAt g).st = .active ∧ (s.ogAt g).isPool = true ∧ link < (if (s.ogAt g).pers = 3 then 2 else 1) ∧ link ∉ (s.ogAt g).failedLinks ∧
      link ∈ (s.ogAt g).downLinks) ∧
    (∃ (g who : Nat) (s : State), who ∉ (s.ogAt g).filter.accels) ∧
    (∃ (g port who pa n : Nat) (d : List Byte) (s : State), (s.ogAt g).st = .active ∧ (s.ogAt g).pers = 4 ∧ port < 4 ∧ laneField (s.ogAt g).lanes (4 * port) 4 ≠ 0 ∧
      who ∈ (s.ogAt g).filter.accels ∧ isHbm (cellOf pa) = true ∧ isCarveOut (cellOf pa) = false ∧ s.isRetired (cellOf pa) = false ∧ s.biasState (cellOf pa) = 0 ∧ pa % 64 + n ≤ 64 ∧ pa % 64 + d.length ≤ 64 ∧
      pa % 4 = 0) := by
  refine ⟨⟨11, go5, grouped 11 { Og.off with busy := true } false, by decide, by decide, by decide +kernel, by decide +kernel⟩,
    ⟨11, 0x185#64, grouped 11 Og.off false, by decide, by decide, by decide +kernel, by decide +kernel, by decide⟩,
    ⟨11, 0xC5#64, grouped 11 Og.off false, by decide, by decide, by decide +kernel, by decide +kernel, by decide⟩,
    ⟨11, 0x86#64, grouped 11 Og.off false, by decide, by decide, by decide +kernel, by decide +kernel, by decide⟩,
    ⟨0, go5, State.reset, by decide, by decide, by decide +kernel, by decide +kernel, by decide, by decide, by decide, by decide +kernel⟩,
    ⟨11, 0x81#64, grouped 11 Og.off false, by decide, by decide, by decide +kernel, by decide +kernel, by decide, by decide, by decide, by decide +kernel, by decide⟩,
    ⟨11, go5, grouped 11 { Og.off with allowed := 0x1D } false, by decide, by decide, by decide +kernel, by decide +kernel, by decide, by decide, by decide, by decide +kernel, by decide, by decide +kernel⟩,
    ⟨11, go5, grouped 11 Og.off true, by decide, by decide, by decide +kernel, by decide +kernel, by decide, by decide, by decide, by decide +kernel, by decide, by decide +kernel, by decide +kernel⟩,
    ⟨11, go5, grouped 11 { Og.off with pers := 5 } false, by decide, by decide, by decide +kernel, by decide +kernel, by decide, by decide, by decide, by decide +kernel, by decide, by decide +kernel,
      by decide +kernel, by decide +kernel, by decide +kernel⟩,
    ⟨11, go5, grouped 11 Og.off false, by decide, by decide, by decide +kernel, by decide +kernel, by decide, by decide, by decide, by decide +kernel, by decide, by decide +kernel, by decide +kernel,
      by decide +kernel, by decide +kernel⟩,
    ⟨11, go5, grouped 11 { Og.off with st := .failed } false, by decide, by decide, by decide +kernel, by decide +kernel, by decide, by decide, by decide, by decide +kernel, by decide, by decide +kernel,
      by decide +kernel, by decide +kernel, by decide⟩,
    ⟨11, 191, grouped 11 { Og.off with st := .quiescing, acks := List.range 190 } false, by decide +kernel, by decide, 190, by decide, by decide +kernel, by decide +kernel⟩,
    ⟨11, 191, grouped 11 { Og.off with st := .quiescing, acks := List.range 191 } false, by decide +kernel, by decide, by decide +kernel, by decide +kernel⟩,
    ⟨11, grouped 11 { Og.off with st := .draining } false, by decide +kernel, by decide +kernel, by decide +kernel, by decide +kernel, by decide +kernel⟩,
    ⟨11, grouped 11 { Og.off with st := .dark, tgt := 5, busy := true } false, by decide +kernel, by decide +kernel, by decide +kernel, by decide +kernel⟩,
    ⟨11, grouped 11 { Og.off with st := .training, tgt := 2 } false, by decide +kernel, by decide +kernel⟩,
    ⟨11, grouped 11 { Og.off with st := .training, tgt := 3 } false, by decide +kernel, by decide +kernel⟩,
    ⟨11, grouped 11 { Og.off with st := .mapping } false, by decide +kernel⟩,
    ⟨11, 1, grouped 11 { Og.off with pers := 3 } false, by decide +kernel, by decide +kernel, by decide +kernel, by decide +kernel, by decide +kernel⟩,
    ⟨11, 1, grouped 11 { Og.off with pers := 3, downLinks := [1] } false, by decide +kernel, by decide +kernel, by decide +kernel, by decide +kernel, by decide +kernel⟩,
    ⟨11, 1023, grouped 11 Og.off false, by decide +kernel⟩,
    ⟨11, 3, 1023, 60, 4, [1, 2, 3, 4], grouped 11 { Og.off with pers := 4, lanes := 0x8000, filter := { Filter.none with accels := [7, 1023] } } false, by decide +kernel, by decide +kernel, by decide, by decide +kernel,
      by decide +kernel, by decide, by decide,
      by decide +kernel, by decide +kernel, by decide, by decide, by decide⟩⟩

/-! The host. -/

/-- The last cell page before the carve-out of home 15. -/
def lastPage : Nat := 0x1FFFEFFF

@[irreducible] def flipping (toHost : Bool) : State := { State.reset with flip := some { toHost := toHost, pages := [lastPage] } }

/-- Obligations.BiasEvents. -/
theorem witness_BiasEvents :
    (∃ s : State, s.flip.isSome = true ∧ s.mgmt.recov = false) ∧ (∃ s : State, s.flip = none ∧ s.mgmt.recov = false) ∧ (∃ x : W64, flipBad x = true) ∧ (∃ x : W64, flipBad x = false) ∧
    (∃ (page : Nat) (s : State) (f : Flip), s.flip = some f ∧ f.pages.head? = some page ∧ f.toHost = true ∧ (s.flushPage page).pageBusy page = false) ∧
    (∃ (page : Nat) (s : State) (f : Flip), s.flip = some f ∧ f.pages.head? = some page ∧ f.toHost = false ∧ (∀ x ∈ s.snoops, x.line / 64 ≠ page) ∧ s.pageBusy page = false) ∧
    (∃ (line page : Nat) (rest : List Nat) (s : State), s.flip = some { toHost := false, pages := page :: rest } ∧ (∃ x ∈ s.snoops, x.line = line ∧ x.flip = true) ∧ s.held = []) := by
  refine ⟨⟨flipping true, by decide +kernel, by decide +kernel⟩, ⟨State.reset, rfl, rfl⟩, ⟨0x0010000000000000#64, by decide +kernel⟩, ⟨0x3F0001FFFEFFF000#64, ?_⟩, ?_, ?_, ?_⟩
  · decide +kernel
  · exact ⟨lastPage, flipping true, { toHost := true, pages := [lastPage] }, by decide +kernel, rfl, rfl, by decide +kernel⟩
  · exact ⟨lastPage, flipping false, { toHost := false, pages := [lastPage] }, by decide +kernel, rfl, rfl, by decide +kernel, by decide +kernel⟩
  · exact ⟨64 * lastPage + 63, lastPage, [], { flipping false with snoops := [{ line := 64 * lastPage + 63, inv := true, flip := true }] }, by decide +kernel,
      ⟨_, List.mem_singleton_self _, rfl, rfl⟩, by decide +kernel⟩

/-- The first HBM page in a bias state, with a snoop of its first line. -/
@[irreducible] def biased (b : Byte) (snoops : List Snoop) : State := { State.reset with bias := if b = 0 then [] else [(0, b)], snoops := snoops }

/-- A shared pool window of group 11, and a line of it in die 7. -/
@[irreducible] def pooled (m : Bool) : State :=
  { State.reset with
    ogs := [(11, pool11)], dies := [(7, { Die.reset with pool := [(0x44000000000, { st := if m then .m else .s, data := List.replicate 64 1, poison := false, age := 0 })] })]
    dca := [(0x44000000000, { st := if m then .m else .s, data := none, poison := false, age := 0 })] }

/-- Obligations.HostEvents. -/
theorem witness_HostEvents :
    (∃ (pa : Nat) (s : State), s.hostSees pa = false) ∧
    (∃ (pa : Nat) (s : State), s.hostSees pa = true ∧ s.biasState (64 * s.hostLine (cellOf pa / 64)) = 2) ∧
    (∃ (pa : Nat) (s : State), s.hostSees pa = true ∧ ∃ x ∈ s.snoops, x.line = s.hostLine (cellOf pa / 64) ∧ x.inv = true ∧ x.applied = false) ∧
    (∃ (pa : Nat) (s : State), s.hostSees pa = true ∧ s.biasState (64 * s.hostLine (cellOf pa / 64)) = 0 ∧ s.snoops = [] ∧ s.held = []) ∧
    (∃ (pa : Nat) (data : List Byte), 64 < pa % 64 + data.length) ∧
    (∃ (pa : Nat) (data : List Byte) (s : State), pa % 64 + data.length ≤ 64 ∧ s.hostSees pa = false) ∧
    (∃ (pa : Nat) (data : List Byte) (s : State), s.hostSees pa = true ∧ pa % 64 + data.length ≤ 64 ∧ s.biasState (64 * s.hostLine (cellOf pa / 64)) = 2 ∧ ∀ x ∈ s.snoops, x.line ≠ s.hostLine (cellOf pa / 64)) ∧
    (∃ (pa : Nat) (data : List Byte) (s : State), s.hostSees pa = true ∧ pa % 64 + data.length ≤ 64 ∧ s.biasState (64 * s.hostLine (cellOf pa / 64)) = 0 ∧ s.biasState (64 * s.hostLine (cellOf pa / 64) + cellOf pa % 64) = 0 ∧ s.held = []) ∧
    (∃ (pa : Nat) (data : List Byte) (s : State), s.hostSees pa = true ∧ pa % 64 + data.length ≤ 64 ∧ s.biasState (64 * s.hostLine (cellOf pa / 64)) = 1 ∧ s.biasState (64 * s.hostLine (cellOf pa / 64) + cellOf pa % 64) = 1 ∧ s.held = []) ∧
    (∃ (line : Nat) (s : State) (x : Snoop), s.snoops.find? (fun x => x.line == line) = some x ∧ s.held = [] ∧ x.inv = false) ∧
    (∃ (line : Nat) (s : State) (x : Snoop), s.snoops.find? (fun x => x.line == line) = some x ∧ s.held = [] ∧ x.inv = true) ∧
    (∃ (line : Nat) (s : State) (m : Nat × Mon), Tab.look s.hostDir line = some { excl := true } ∧ m ∈ s.mons ∧ m.2.armed = true ∧ m.2.scr = false ∧ s.monLevel m.2 = 3 ∧
      m.2.key / 64 = line ∧ s.biasState (64 * line) = 1 ∧ s.snooped line = false) ∧
    (∃ (line : Nat) (l : DcaLine) (s : State), s.isPoolLine line = true ∧ Tab.look s.dca line = some l ∧ s.poolDirty line = false) ∧
    (∃ (line : Nat) (l : DcaLine) (s : State), s.isPoolLine line = true ∧ Tab.look s.dca line = some l ∧ s.poolDirty line = true) := by
  have z : cellOf 63 / 64 = 0x400000000 := by decide
  refine ⟨⟨2 ^ 40, State.reset, by decide +kernel⟩, ⟨63, biased 0x80 [], by decide +kernel, by decide +kernel⟩,
    ⟨63, biased 0 [{ line := 0x400000000, inv := true, flip := false }], by decide +kernel, by decide +kernel⟩,
    ⟨63, biased 0 [], by decide +kernel, by decide +kernel, by decide +kernel, by decide +kernel⟩, ⟨63, [1, 2], by decide⟩, ⟨2 ^ 40, [1], State.reset, by decide, by decide +kernel⟩,
    ⟨63, [1], biased 0x80 [], by decide +kernel, by decide, by decide +kernel, by decide +kernel⟩, ⟨63, [1], biased 0 [], by decide +kernel, by decide, by decide +kernel, by decide +kernel, by decide +kernel⟩,
    ⟨63, [1], biased 0x40 [], by decide +kernel, by decide, by decide +kernel, by decide +kernel, by decide +kernel⟩,
    ⟨0x400000000, biased 0x40 [{ line := 0x400000000, inv := false, flip := false }], { line := 0x400000000, inv := false, flip := false }, by decide +kernel, by decide +kernel, rfl⟩,
    ⟨0x400000000, biased 0x40 [{ line := 0x400000000, inv := true, flip := false }], { line := 0x400000000, inv := true, flip := false }, by decide +kernel, by decide +kernel, rfl⟩,
    ⟨0x400000000, { biased 0x40 [] with hostDir := [(0x400000000, { excl := true })], mons := [(5, mon0 false true [])] }, (5, mon0 false true []), rfl, List.mem_singleton_self _, rfl, rfl,
      by decide +kernel, by decide, by decide +kernel, by decide +kernel⟩,
    ⟨0x44000000000, { st := .s, data := none, poison := false, age := 0 }, pooled false, by decide +kernel, by decide +kernel, by decide +kernel⟩,
    ⟨0x44000000000, { st := .m, data := none, poison := false, age := 0 }, pooled true, by decide +kernel, by decide +kernel, by decide +kernel⟩⟩

/-! Failures. -/

/-- A die with one dirty sector. -/
def dirty : Sector := { data := List.replicate 64 2, twin := some (List.replicate 64 1), poison := false, age := 0, fresh := 0 }

@[irreducible] def holding : State := { State.reset with dies := [(7, { Die.reset with l2 := [(tagOf 63 (cellOf 0), dirty)] })] }

/-- A reduction of two participants. -/
def red0 (got : List Nat) : Reduction :=
  { slot := 0, fmt := 0, dst := 2 ^ 40, part := 0, group := none, need := [0, 4095], got := got, sum := 0, sat := false, status := [2 ^ 40 + 64], first := 0, res := 0 }

@[irreducible] def reducing (r : Reduction) : State := { State.reset with reductions := [(5, r)], clock := 0x200000000#64 }

/-- Obligations.FailureEvents. -/
theorem witness_FailureEvents :
    (∃ (s : State) (pa : Nat), cellOf pa / 64 ∉ s.memPoison) ∧
    (∃ (s : State) (warp reg lane : Nat) (w : Warp), Tab.look s.warps warp = some w ∧ reg < 254 ∧ lane < 32 ∧ 32 * reg + lane ∉ w.vPoison) ∧
    (∃ (s : State) (wg a : Nat) (w : Wg), Tab.look s.wgs wg = some w ∧ a / 8 ∉ w.scrPoison) ∧
    (∃ (s : State) (wg tile idx : Nat) (w : Wg), Tab.look s.wgs wg = some w ∧ idx < 4096 ∧ 4096 * tile + idx ∉ w.accPoison) ∧
    (∃ (s : State) (die ctx pa : Nat) (x : Sector), Tab.look (s.dieAt die).l2 (tagOf ctx (cellOf pa)) = some x) ∧
    (∃ (die : BitVec 3) (ctx pa : Nat) (s : State) (x : Sector) (tw : List Byte), Tab.look (s.dieAt die.toNat).l2 (tagOf ctx (cellOf pa)) = some x ∧ x.twin = some tw ∧ x.poison = false) ∧
    (∃ link : Nat, 60 ≤ link) ∧ (∃ (link : Nat) (s : State), link < 60 ∧ link ∉ s.meshDown) ∧
    (∃ (red who : Nat) (x : Contribution) (s : State) (r : Reduction), Tab.look s.reductions red = some r ∧ r.res = 0 ∧ who ∈ r.need ∧ who ∉ r.got ∧ x = .failed) ∧
    (∃ (red who : Nat) (x : Contribution) (s : State) (r : Reduction), Tab.look s.reductions red = some r ∧ r.res = 0 ∧ who ∈ r.need ∧ who ∉ r.got ∧ (∃ v fl, given (slotOf r.slot) x = some (v, fl)) ∧ ∃ w ∈ r.need, w ∉ insertNat who r.got) ∧
    (∃ (red who : Nat) (x : Contribution) (s : State) (r : Reduction), Tab.look s.reductions red = some r ∧ r.res = 0 ∧ who ∈ r.need ∧ who ∉ r.got ∧ (∃ v fl, given (slotOf r.slot) x = some (v, fl)) ∧ ∀ w ∈ r.need, w ∈ insertNat who r.got) ∧
    (∃ (red : Nat) (s : State) (r : Reduction), Tab.look s.reductions red = some r ∧ r.res ≠ 0) ∧
    (∃ (red who : Nat) (s : State) (r : Reduction), Tab.look s.reductions red = some r ∧ who ∈ r.got) ∧
    (∃ (red : Nat) (s : State) (r : Reduction), Tab.look s.reductions red = some r ∧ r.res = 0 ∧ (s.clock - r.first).toNat < (s.partAt r.part).rtmo.toNat * 2700000) ∧
    (∃ (red : Nat) (s : State) (r : Reduction), Tab.look s.reductions red = some r ∧ r.res = 0 ∧ r.got ≠ [] ∧ (s.partAt r.part).rtmo.toNat * 2700000 ≤ (s.clock - r.first).toNat) := by
  refine ⟨⟨State.reset, 0, List.not_mem_nil⟩, ⟨two, 0, 253, 31, (vk two).w, by decide +kernel, by decide, by decide, by decide +kernel⟩,
    ⟨two, 0, 8191, (vk two).wg, by decide +kernel, by decide +kernel⟩, ⟨two, 0, 7, 4095, (vk two).wg, by decide +kernel, by decide, by decide +kernel⟩,
    ⟨holding, 7, 63, 0, dirty, by decide +kernel⟩, ⟨7, 63, 0, holding, dirty, List.replicate 64 1, by decide +kernel, rfl, rfl⟩, ⟨60, by decide⟩,
    ⟨59, State.reset, by decide, List.not_mem_nil⟩,
    ⟨5, 4095, .failed, reducing (red0 [0]), red0 [0], by decide +kernel, rfl, by decide, by decide, rfl⟩,
    ⟨5, 4095, .fp32 0x3F800000, reducing (red0 []), red0 [], by decide +kernel, rfl, by decide, by decide, ⟨_, _, rfl⟩, by decide⟩,
    ⟨5, 4095, .fp64 0x3FF0000000000000, reducing (red0 [0]), red0 [0], by decide +kernel, rfl, by decide, by decide, ⟨_, _, rfl⟩, by decide⟩,
    ⟨5, reducing { red0 [] with res := 3 }, { red0 [] with res := 3 }, by decide +kernel, by decide⟩, ⟨5, 0, reducing (red0 [0]), red0 [0], by decide +kernel, by decide⟩,
    ⟨5, { reducing (red0 [0]) with clock := 0 }, red0 [0], by decide +kernel, rfl, by decide +kernel⟩,
    ⟨5, reducing (red0 [0]), red0 [0], by decide +kernel, rfl, by decide, by decide +kernel⟩⟩

/-- A policy that its checks refuse: two host links. -/
def badPolicy : Policy := { Policy.shipped with groups := [(0, GroupPolicy.hostLink), (1, GroupPolicy.hostLink)] }

/-- A module in recovery. -/
def recovered : State := { State.reset with mgmt := { Mgmt.reset with recov := true } }

/-- Obligations.ManagementEvents. -/
theorem witness_ManagementEvents :
    (∃ s : State, s.policy.valid = true) ∧ (∃ s : State, s.policy.valid = false) ∧
    (∃ k : BitVec 3, 1 ≤ k.toNat ∧ k.toNat ≤ 4) ∧ (∃ k : BitVec 3, 4 < k.toNat) ∧ (∃ s : State, s.mgmt.recov = true) ∧
    (∃ s : State, s.mgmt.ext.length < 5) ∧ (∃ s : State, s.mgmt.ext.length = 5) ∧ (∃ x : W64, x.toNat % 8 < 4) ∧ (∃ x : W64, 4 ≤ x.toNat % 8) ∧
    (∃ (x : W64) (s : State), x.getLsbD 0 = true ∧ s.mgmt.qbusy = true ∧ s.mgmt.recov = false) ∧ (∃ s : State, s.mgmt.qbusy = true ∧ s.mgmt.recov = true) ∧
    (∃ (x : W64) (s : State), x.getLsbD 0 = true ∧ s.mgmt.qbusy = false) ∧
    (∃ x : W64, x.toNat % 2 ^ 13 < 1000) ∧ (∃ x : W64, 1000 ≤ x.toNat % 2 ^ 13) ∧ (∃ (x : W64) (s : State), s.mgmt.recov = false ∧ (s.homeAt (x.toNat % 16)).fenced = false) :=
  ⟨⟨State.reset, by decide +kernel⟩, ⟨{ State.reset with policy := badPolicy }, by decide +kernel⟩, ⟨4, by decide⟩, ⟨5, by decide⟩, ⟨recovered, rfl⟩,
   ⟨State.reset, by decide⟩, ⟨{ State.reset with mgmt := { Mgmt.reset with ext := [1, 2, 3, 4, 5] } }, rfl⟩, ⟨3, by decide⟩, ⟨4, by decide⟩,
   ⟨1, { State.reset with mgmt := { Mgmt.reset with qbusy := true } }, by decide, rfl, rfl⟩, ⟨{ State.reset with mgmt := { Mgmt.reset with qbusy := true, recov := true } }, rfl, rfl⟩,
   ⟨1, State.reset, by decide, rfl⟩, ⟨999, by decide⟩, ⟨1000, by decide⟩, ⟨15, State.reset, rfl, by decide +kernel⟩⟩

/-! Words and steps. -/

/-- Obligations.DecodeEncode: the guard !P6, which is the last. -/
theorem witness_DecodeEncode :
    (∃ i : Instr, i.isWord = true ∧ i.wf = true) ∧ (∃ (w : W64) (i : Instr), decode w = some i) ∧ (∃ w : W64, isHeader w = true ∧ headerOk w = true) :=
  ⟨⟨.iadd ⟨7, 0xE⟩ 255 (.v 254) (.s 63), by decide, by decide⟩, ⟨0x320FFE0A08000000#64, .iadd ⟨0, 7⟩ 255 (.v 5) (.v 4), by decide +kernel⟩,
   ⟨encodeHeader ⟨9, 15, 0xFFF, true, 11, true, 10⟩, by decide, by decide⟩⟩

/-- The state after reset in which any word is placed where the next step fetches it. -/
@[irreducible] def atWord (w : W64) : State := State.reset.withFetchWord 64 w.toNat

def clause2 : ClauseCtx := placedClause 2

/-- The placed word, in a clause of another class. -/
@[irreducible] def inClass (w : W64) (cls : Nat) : State :=
  { atWord w with warps := (atWord w).warps.map (fun e => (e.1, { e.2 with threads := e.2.threads.map (fun t => { t with cl := some (placedClause cls) }) })) }

/-- The class of the clause the placed word stands in. -/
def clsAt (w : W64) : Nat := (opClass (wOp w)).getD 0

theorem word_of {x : Fetched} {w : W64} (h : (match x with | .word y => y == w | _ => false) = true) : x = .word w := by
  cases x with
  | word y => rw [eq_of_beq h]
  | _ => cases h

/-- Obligations.StepRunsDecoded: a word of a warp, one of a sequencer, an event. -/
theorem witness_StepRunsDecoded :
    (∃ (s : State) (v : View) (w : W64) (i : Instr) (c : ClauseCtx), s.agenda = [] ∧ s.cur = some (.warp v.key) ∧ s.view v.key = some v ∧ s.mayIssue v = true ∧
      s.fetchCode v.wg.core v.g.ctx (v.w.pcOf v.w.split) = .word w ∧ (v.w.thread (lowLane v.w.split)).cl = some c ∧ opClass (wOp w) = some c.cls ∧ decode w = some i) ∧
    (∃ (s : State) (r : SeqRun) (w : W64) (i : Instr) (c : ClauseCtx), s.agenda = [] ∧ s.cur = some (.seq r.key) ∧ s.curSeq = some r ∧ s.seqReady r = true ∧
      r.q.cl = some c ∧ s.fetchCode r.wg.core r.g.ctx r.q.pc = .word w ∧ opClass (wOp w) = some c.cls ∧ decode w = some i) ∧
    (∃ (s : State) (i : Instr) (rest : List Turn), s.agenda = .event i :: rest) := by
  have a : decode (encode (.iadd ⟨0, 7⟩ 3 (.v 5) (.v 4))) = some (.iadd ⟨0, 7⟩ 3 (.v 5) (.v 4)) := by decide +kernel
  have b : decode (encode .mend) = some .mend := by decide +kernel
  refine ⟨⟨at0 (.iadd ⟨0, 7⟩ 3 (.v 5) (.v 4)), vw (at0 (.iadd ⟨0, 7⟩ 3 (.v 5) (.v 4))), encode (.iadd ⟨0, 7⟩ 3 (.v 5) (.v 4)), _, placedClause 1, by decide +kernel, by decide +kernel,
      by decide +kernel, by decide +kernel, word_of (by decide +kernel), by decide +kernel, by decide +kernel, a⟩,
    ⟨at0 .mend, sq (at0 .mend), encode .mend, _, placedClause 8, by decide +kernel, by decide +kernel, sq_eq (by decide +kernel), by decide +kernel, by decide +kernel,
      word_of (by decide +kernel), by decide +kernel, b⟩,
    ⟨{ State.reset with agenda := [.event .quoteDone] }, _, _, rfl⟩⟩

/-! The whole machine. -/

def isNext : Host.Outcome State Fault Refusal → Bool
  | .next _ => true
  | _ => false

theorem next_of {x : Host.Outcome State Fault Refusal} (h : isNext x = true) : ∃ t, x = .next t := by
  cases x <;> first | exact ⟨_, rfl⟩ | cases h

/-- Obligations.StepKeepsMemWf: a step that runs a word, over memory with code in it. -/
theorem witness_StepKeepsMemWf : ∃ s t : State, Memory.wf s.mem = true ∧ step s = .next t ∧ s.mem ≠ [] := by
  obtain ⟨t, h⟩ := next_of (x := step (at0 (.iadd ⟨0, 7⟩ 3 (.v 5) (.v 4)))) (by decide +kernel)
  exact ⟨_, t, by decide +kernel, h, by decide +kernel⟩

/-- A word whose guard is false everywhere, with a budget. -/
@[irreducible] def spent (i : Instr) (b : Nat) : State := { at0 i with warps := (at0 i).warps.map (fun e => (e.1, { e.2 with budget := b })) }

theorem noHazards {s : State} {m : Mask} {n : Nat} (h : (vw s).w.hazards.isEmpty = true) : Settled n m (vw s).w.hazards := by
  rw [List.isEmpty_iff.mp h]; intro z hz; cases hz

/-- The last register of the quota, and the first beyond it. -/
def beyond : Instr := .iadd ⟨0, 7⟩ 248 (.v 5) (.v 4)

def unguarded : Instr := .iadd ⟨7, 0⟩ 3 (.v 5) (.v 4)

/-- Obligations.TrapTaken. -/
theorem witness_TrapTaken :
    (∃ (i : Instr) (row : ValueRow) (s : State) (v : View) (c : Nat) (d : W64), intRow i = some row ∧ s.curView = some v ∧ Settled row.head.dist.toNat v.w.split v.w.hazards ∧
      enabled v row.head ≠ 0 ∧ (valuePre none row.dst row.os).check v v.w.split (encode i) = some (c, d)) ∧
    (∃ (i : Instr) (row : ValueRow) (s : State) (v : View), intRow i = some row ∧ s.curView = some v ∧ Settled row.head.dist.toNat v.w.split v.w.hazards ∧
      enabled v row.head = 0 ∧ v.w.cost ≤ v.w.budget) ∧
    (∃ (i : Instr) (row : ValueRow) (s : State) (v : View), intRow i = some row ∧ s.curView = some v ∧ Settled row.head.dist.toNat v.w.split v.w.hazards ∧
      v.w.budget = 0 ∧ enabled v row.head = 0 ∧ v.w.cost = 1 ∧ v.w.split ≠ 0) ∧
    (∃ (s : State) (v : View) (w : W64) (c : ClauseCtx) (en : Mask), s.agenda = [] ∧ s.cur = some (.warp v.key) ∧ s.view v.key = some v ∧ s.mayIssue v = true ∧
      s.fetchCode v.wg.core v.g.ctx (v.w.pcOf v.w.split) = .word w ∧ (v.w.thread (lowLane v.w.split)).cl = some c ∧
      ({ v.w with hazards := age (wHead w).dist.toNat v.w.split v.w.hazards } : Warp).enabled s.draws (wHead w) v.w.split = en ∧ (wHead w).guard ≠ 0xF#4 ∧ en ≠ 0 ∧
      v.w.pair.map Pair.b = some 0 ∧ opClass (wOp w) = none) ∧
    (∃ (s : State) (v : View) (w : W64) (c : ClauseCtx) (en : Mask), s.agenda = [] ∧ s.cur = some (.warp v.key) ∧ s.view v.key = some v ∧ s.mayIssue v = true ∧
      s.fetchCode v.wg.core v.g.ctx (v.w.pcOf v.w.split) = .word w ∧ (v.w.thread (lowLane v.w.split)).cl = some c ∧
      ({ v.w with hazards := age (wHead w).dist.toNat v.w.split v.w.hazards } : Warp).enabled s.draws (wHead w) v.w.split = en ∧ (wHead w).guard ≠ 0xF#4 ∧ en ≠ 0 ∧
      v.w.pair.map Pair.b = some 0 ∧ opClass (wOp w) = some c.cls ∧ decode w = none) ∧
    (∃ (s : State) (v : View) (w : W64) (c : ClauseCtx) (en : Mask) (k : Nat), s.agenda = [] ∧ s.cur = some (.warp v.key) ∧ s.view v.key = some v ∧ s.mayIssue v = true ∧
      s.fetchCode v.wg.core v.g.ctx (v.w.pcOf v.w.split) = .word w ∧ (v.w.thread (lowLane v.w.split)).cl = some c ∧
      ({ v.w with hazards := age (wHead w).dist.toNat v.w.split v.w.hazards } : Warp).enabled s.draws (wHead w) v.w.split = en ∧ (wHead w).guard ≠ 0xF#4 ∧ en ≠ 0 ∧
      v.w.pair.map Pair.b = some 0 ∧ opClass (wOp w) = some k ∧ k ≠ c.cls) := by
  refine ⟨⟨beyond, _, at0 beyond, vw (at0 beyond), causeQuota, 248, rfl, vw_eq (by decide +kernel), noHazards (by decide +kernel), by decide +kernel, by decide +kernel⟩,
    ⟨unguarded, _, at0 unguarded, vw (at0 unguarded), rfl, vw_eq (by decide +kernel), noHazards (by decide +kernel), by decide +kernel, by decide +kernel⟩,
    ⟨unguarded, _, spent unguarded 0, vw (spent unguarded 0), rfl, vw_eq (by decide +kernel), noHazards (by decide +kernel), by decide +kernel, by decide +kernel, by decide +kernel, by decide +kernel⟩,
    ?_, ?_, ?_⟩
  · exact ⟨atWord 0xFA0E000000000000#64, vw (atWord 0xFA0E000000000000#64), 0xFA0E000000000000#64, placedClause 0, _, by decide +kernel, by decide +kernel, by decide +kernel, by decide +kernel,
      word_of (by decide +kernel), by decide +kernel, rfl, by decide, by decide +kernel, by decide +kernel, by decide +kernel⟩
  · exact ⟨atWord 0x320FFC0A08000000#64, vw (atWord 0x320FFC0A08000000#64), 0x320FFC0A08000000#64, placedClause 1, _, by decide +kernel, by decide +kernel, by decide +kernel, by decide +kernel,
      word_of (by decide +kernel), by decide +kernel, rfl, by decide, by decide +kernel, by decide +kernel, by decide +kernel, by decide +kernel⟩
  · exact ⟨inClass 0x320E060A08000000#64 9, vw (inClass 0x320E060A08000000#64 9), 0x320E060A08000000#64, placedClause 9, _, 1, by decide +kernel, by decide +kernel, by decide +kernel,
      by decide +kernel, word_of (by decide +kernel), by decide +kernel, rfl, by decide, by decide +kernel, by decide +kernel, by decide +kernel, by decide⟩

/-- Obligations.NopPasses, and Obligations.QstatCounts with the first CMP that raises. -/
theorem witness_NopPasses : (∃ (s : State) (v : View), s.curView = some v ∧ v.w.cost ≤ v.w.budget) ∧ (∃ (w : W64) (h : Head), decode w = some (.nop h)) :=
  ⟨⟨at0 (.nop ⟨7, 0⟩), vw (at0 (.nop ⟨7, 0⟩)), vw_eq (by decide +kernel), by decide +kernel⟩, ⟨0x000E000000000000#64, ⟨0, 7⟩, by decide +kernel⟩⟩

theorem witness_QstatCounts :
    (∃ h sd qm s v, Ready (.qstat h sd qm) h Pre.none s v) ∧ (∃ (w : W64) (i : Instr), wOp w = 0xF9 ∧ decode w = some i) ∧
    (∃ (w : W64) (x : Warp) (n : Nat) (sp : Mask) (c : ClauseCtx), wOp w = 0xF9 ∧ 1 < w.toNat / 2 ^ 26 % 2 ^ 4 ∧ (x.thread (lowLane sp)).cl = some c ∧ c.cls = 9 ∧ (wHead w).guard ≠ 0xF#4 ∧
      ({ x with hazards := age (wHead w).dist.toNat sp x.hazards } : Warp).enabled n (wHead w) sp ≠ 0) :=
  ⟨⟨⟨1, 7⟩, 63, true, at0 (.qstat ⟨1, 7⟩ 63 true), _, ready_of (by decide +kernel)⟩, ⟨encode (.qstat ⟨1, 7⟩ 63 true), .qstat ⟨1, 7⟩ 63 true, by decide, by decide +kernel⟩,
   ⟨0xF90E000008000000#64, (vw (at0 (.qstat ⟨1, 7⟩ 63 true))).w, 0, 0xFFFFFFFF#32, placedClause 9, by decide, by decide, by decide +kernel, rfl, by decide, by decide +kernel⟩⟩

end Sys2Proof.Tests
end

namespace Sys2Proof.Machine

open Sys2Proof.Claims

/-! PROOFS. Completion of vector results (R28, R80, R139): what a lane of a load or of a word that has computed its results receives, the same for all lanes of a completion, and what the event leaves of the warp and of the operations in flight. -/

/-! Lanes, and blocks of registers. -/

theorem inMask_lane {l : Nat} (hl : l < 32) (j : Nat) : inMask (1#32 <<< l) j = true ↔ j = l := by
  simp only [inMask, BitVec.getLsbD_shiftLeft, BitVec.getLsbD_one, Bool.and_eq_true, Bool.not_eq_true', decide_eq_true_eq, decide_eq_false_iff_not]
  omega

theorem lane_ne_zero {l : Nat} (hl : l < 32) : 1#32 <<< l ≠ 0#32 := fun h => by
  have := (inMask_lane hl l).2 rfl
  rw [h, inMask_zero] at this
  cases this

/-- Lanes m of the n registers from d on, and of no other. -/
def regBlock (d n : Nat) (m : Mask) (r : Nat) : Mask := if d ≤ r ∧ r < d + n then m else 0#32

theorem inMask_regBlock (d n : Nat) (m : Mask) (r l : Nat) :
    inMask (regBlock d n m r) l = true ↔ inMask m l = true ∧ d ≤ r ∧ r < d + n := by
  unfold regBlock
  split <;> simp_all

theorem regBlock_or (d n : Nat) (a b : Mask) : (fun r => regBlock d n a r ||| regBlock d n b r) = regBlock d n (a ||| b) := by
  funext r
  unfold regBlock
  split <;> simp

/-- A block of n + 1 registers is its first register and the n after it. -/
theorem regBlock_succ (d n : Nat) (m : Mask) : (fun r => regBlock d 1 m r ||| regBlock (d + 1) n m r) = regBlock d (n + 1) m := by
  funext r
  unfold regBlock
  by_cases h : r = d
  · rw [if_pos (by omega), if_neg (by omega), if_pos (by omega), BitVec.or_zero]
  · rw [if_neg (by omega), BitVec.zero_or]
    exact ite_congr (propext (by omega)) (fun _ => rfl) (fun _ => rfl)

theorem regBlock_empty (d : Nat) (m : Mask) : regBlock d 0 m = fun _ => 0#32 := by
  funext r
  exact if_neg (by omega)

theorem regBlock_no_lanes (d n : Nat) : regBlock d n 0#32 = fun _ => 0#32 := by
  funext r
  exact ite_self _

/-! Values hidden by younger results, once newer values stand over them (R82). -/

/-- What is left of a hazard when lanes `c r` of every vector register r hold a newer value. -/
def Hazard.without (c : Nat → Mask) (z : Hazard) : Option Hazard :=
  match z.reg with
  | .v r => if c r = 0#32 then some z else if z.lanes &&& ~~~c r = 0#32 then none else some { z with lanes := z.lanes &&& ~~~c r }
  | _ => some z

theorem Hazard.without_nothing : Hazard.without (fun _ => 0#32) = some := by
  funext z
  unfold Hazard.without
  split <;> rfl

/-- Lanes removed one set after another are removed together. -/
theorem Hazard.without_without (a b : Nat → Mask) (z : Hazard) :
    (z.without a).bind (Hazard.without b) = z.without (fun r => a r ||| b r) := by
  obtain ⟨reg, lanes, old, left⟩ := z
  cases reg with
  | s r => rfl
  | p r => rfl
  | v r =>
    have hor : lanes &&& ~~~(a r ||| b r) = lanes &&& ~~~a r &&& ~~~b r := by
      rw [BitVec.not_or, BitVec.and_assoc]
    by_cases ha : a r = 0#32
    · simp [Hazard.without, ha]
    · have hab : a r ||| b r ≠ 0#32 := fun h => ha (BitVec.or_eq_zero_iff.1 h).1
      by_cases hb : b r = 0#32
      · by_cases h1 : lanes &&& ~~~a r = 0#32 <;> simp [Hazard.without, ha, hb, h1]
      · by_cases h1 : lanes &&& ~~~a r = 0#32 <;> simp [Hazard.without, ha, hb, hab, hor, h1]

/-- Entries that each give at most one entry. -/
theorem flatMap_eq_filterMap {α β : Type} {f : α → List β} {g : α → Option β} (h : ∀ a, f a = (g a).toList) (l : List α) :
    l.flatMap f = l.filterMap g := by
  induction l with
  | nil => rfl
  | cons a l ih =>
    rw [List.flatMap_cons, List.filterMap_cons, ih, h a]
    cases g a <;> rfl

/-- A write without latency of lanes m of vector register r leaves no value before it in these lanes. -/
theorem hazardsAfter_now (r : Nat) {m : Mask} (hm : m ≠ 0#32) (old : Nat → W64) (hs : List Hazard) :
    hazardsAfter (.v r) m 0 old hs = hs.filterMap (Hazard.without (regBlock r 1 m)) := by
  unfold hazardsAfter overwritten
  rw [if_pos rfl, List.append_nil]
  refine flatMap_eq_filterMap (fun z => ?_) hs
  obtain ⟨reg, lanes, old, left⟩ := z
  cases reg with
  | s q => simp [Hazard.without]
  | p q => simp [Hazard.without]
  | v q =>
    by_cases hq : q = r
    · subst hq
      by_cases h1 : lanes &&& ~~~m = 0#32 <;> simp [Hazard.without, regBlock, hm, h1]
    · have h2 : regBlock r 1 m q = 0 := if_neg (by omega)
      simp [Hazard.without, hq, h2]

theorem notHidden_eq (hs : List Hazard) {m : Mask} (hm : m ≠ 0#32) (d n : Nat) :
    notHidden hs m d n = hs.filterMap (Hazard.without (regBlock d n m)) := by
  unfold notHidden
  congr 1
  funext z
  obtain ⟨reg, lanes, old, left⟩ := z
  cases reg with
  | s q => rfl
  | p q => rfl
  | v q => by_cases hq : d ≤ q ∧ q < d + n <;> simp [Hazard.without, regBlock, hq, hm]

/-! Results written. -/

/-- Lanes `c r` of every vector register r have received `x r` and are not poisoned, no hazard hides an older value of theirs, the flags f are set, and nothing else of the warp has changed. -/
structure Received (w w' : Warp) (c : Nat → Mask) (x : Nat → Nat → W32) (f : Fl) : Prop where
  frame : w' = { w with v := w'.v, vPoison := w'.vPoison, fpflags := w.fpflags ||| f, hazards := w.hazards.filterMap (Hazard.without c) }
  vreg : ∀ r l, l < 32 → w'.vreg r l = if inMask (c r) l then x r l else w.vreg r l
  poison : ∀ r l, l < 32 → (32 * r + l ∈ w'.vPoison ↔ 32 * r + l ∈ w.vPoison ∧ ¬ inMask (c r) l = true)

theorem Received.flags (w : Warp) (x : Nat → Nat → W32) (f : Fl) : Received w { w with fpflags := w.fpflags ||| f } (fun _ => 0#32) x f where
  frame := by rw [Hazard.without_nothing, List.filterMap_some]
  vreg r l _ := by simp [Warp.vreg]
  poison r l _ := by simp

theorem Received.refl (w : Warp) (x : Nat → Nat → W32) : Received w w (fun _ => 0#32) x 0#6 := by
  simpa using Received.flags w x 0

theorem Received.trans {w w₁ w₂ : Warp} {a b : Nat → Mask} {x : Nat → Nat → W32} {f g : Fl} (h : Received w w₁ a x f) (k : Received w₁ w₂ b x g) :
    Received w w₂ (fun r => a r ||| b r) x (f ||| g) where
  frame := by
    rw [k.frame, h.frame]
    simp only [List.filterMap_filterMap, Hazard.without_without, BitVec.or_assoc]
  vreg r l hl := by
    rw [k.vreg r l hl, h.vreg r l hl, inMask_or]
    cases inMask (a r) l <;> cases inMask (b r) l <;> rfl
  poison r l hl := by
    rw [k.poison r l hl, h.poison r l hl, inMask_or, Bool.or_eq_true, not_or, and_assoc]

/-- One register of one lane is written. -/
theorem Received.writeV (w : Warp) (d : Nat) {l : Nat} (hl : l < 32) {x : Nat → Nat → W32} {a : W32} (ha : a = x d l) :
    Received w (w.writeV 0 d (1#32 <<< l) (fun _ => a)) (regBlock d 1 (1#32 <<< l)) x 0#6 where
  frame := by
    rw [BitVec.or_zero, ← hazardsAfter_now d (lane_ne_zero hl) (fun l => (w.vreg d l).setWidth 64)]
    rfl
  vreg r j hj := by
    rw [vreg_writeV _ _ _ _ _ _ _ hj]
    refine ite_congr ?_ (fun h => ?_) (fun _ => rfl)
    · rw [inMask_regBlock, eq_iff_iff, and_comm]
      exact and_congr_right fun _ => by omega
    · obtain ⟨h, hr⟩ := (inMask_regBlock ..).1 h
      rw [ha, (inMask_lane hl j).1 h, show r = d by omega]
  poison r j hj := by
    rw [mem_vPoison_writeV, inMask_regBlock, show (32 * r + j) / 32 = r by omega, show (32 * r + j) % 32 = j by omega, and_comm (a := r = d)]
    exact and_congr_right fun _ => not_congr (and_congr_right fun _ => by omega)

/-! The words of a lane. -/

theorem writeWords_cons (w : Warp) (d l : Nat) (a : W32) (ws : List W32) :
    writeWords w d l (a :: ws) = writeWords (w.writeV 0 d (1#32 <<< l) (fun _ => a)) (d + 1) l ws := by
  unfold writeWords
  rw [List.zipIdx_cons, List.foldl_cons, List.zipIdx_succ, List.foldl_map]
  simp only [Nat.add_zero, Nat.add_assoc, Nat.add_comm 1]

/-- A lane receives words in consecutive registers. -/
theorem Received.writeWords {l : Nat} (hl : l < 32) {x : Nat → Nat → W32} (ws : List W32) (w : Warp) (d : Nat)
    (hx : ∀ k a, ws[k]? = some a → a = x (d + k) l) :
    Received w (writeWords w d l ws) (regBlock d ws.length (1#32 <<< l)) x 0#6 := by
  induction ws generalizing w d with
  | nil =>
    rw [List.length_nil, regBlock_empty]
    exact Received.refl w x
  | cons a ws ih =>
    rw [writeWords_cons, List.length_cons, ← regBlock_succ]
    have first := Received.writeV w d hl (hx 0 a rfl)
    have rest := ih (w.writeV 0 d (1#32 <<< l) (fun _ => a)) (d + 1) (fun k b hb => by
      rw [Nat.add_assoc, Nat.add_comm 1 k]; exact hx (k + 1) b hb)
    exact first.trans rest

/-- What a lane of an operation with vector results receives: words x in the n registers from d on, and flags. -/
def LaneResults (o : Op) (d n : Nat) (x : Nat → Nat → W32) (fl : Nat → Fl) : Prop :=
  ∀ (w : Warp) (l : Nat), l < 32 → Received w (o.writeLane w l) (regBlock d n (1#32 <<< l)) (fun r l => x (r - d) l) (fl l)

/-- The words of a class-3 or class-4 result, the lowest first. -/
def resultWords (wide : Bool) (x : W64) : List W32 := if wide then [x.setWidth 32, (x >>> 32).setWidth 32] else [x.setWidth 32]

theorem length_resultWords (wide : Bool) (x : W64) : (resultWords wide x).length = if wide then 2 else 1 := by
  cases wide <;> rfl

theorem getElem?_resultWords {wide : Bool} {x : W64} {k : Nat} {a : W32} (h : (resultWords wide x)[k]? = some a) :
    a = (x >>> (32 * k)).setWidth 32 := by
  cases wide <;> rcases k with _ | _ | k <;> simp_all [resultWords]

theorem laneResults_regs {o : Op} {d : Nat} {wide : Bool} {vals : Tab W64} {fl : Tab Fl} (hk : o.kind = .regs (.v d) wide vals fl) :
    LaneResults o d (if wide then 2 else 1) (fun k l => ((Tab.get 0 vals l) >>> (32 * k)).setWidth 32) (fun l => Tab.get 0 fl l) := by
  intro w l hl
  have hw : o.writeLane w l = { writeWords w d l (resultWords wide (Tab.get 0 vals l)) with
      fpflags := (writeWords w d l (resultWords wide (Tab.get 0 vals l))).fpflags ||| Tab.get 0 fl l } := by
    unfold Op.writeLane
    rw [hk]
    rfl
  have words := Received.writeWords hl (x := fun r l => ((Tab.get 0 vals l) >>> (32 * (r - d))).setWidth 32)
    (resultWords wide (Tab.get 0 vals l)) w d (fun k a ha => by
      rw [Nat.add_sub_cancel_left]; exact getElem?_resultWords ha)
  rw [hw, ← length_resultWords wide (Tab.get 0 vals l)]
  simpa using words.trans (Received.flags _ _ (Tab.get 0 fl l))

theorem length_loadWords {width : Width} (h : width ≠ .w256) (bs : List Byte) : (loadWords width bs).length = width.regs := by
  cases width with
  | w256 => exact absurd rfl h
  | _ => rfl

theorem getElem?_loadWords {width : Width} {bs : List Byte} {k : Nat} {a : W32} (h : (loadWords width bs)[k]? = some a) :
    a = loadedWord width bs k := by
  cases width with
  | w64 => rcases k with _ | _ | k <;> simp_all [loadWords, loadedWord]
  | w128 | w256 =>
    simp only [loadWords, List.getElem?_map, Option.map_eq_some_iff] at h
    obtain ⟨j, hj, rfl⟩ := h
    obtain ⟨_, rfl⟩ := List.getElem?_eq_some_iff.1 hj
    rw [List.getElem_range]
    rfl
  | u8 | u16 | w32 => rcases k with _ | k <;> simp_all [loadWords, loadedWord]
  | s8 | s16 => rcases k with _ | k <;> simp_all [loadWords, loadedWord, BitVec.signExtend]

theorem laneResults_load {o : Op} {d : Nat} {width : Width} (hk : o.kind = .load width d) (h : width ≠ .w256) :
    LaneResults o d width.regs (fun k l => loadedWord width (o.bytesOf l) k) (fun _ => 0) := by
  intro w l hl
  have hw : o.writeLane w l = writeWords w d l (loadWords width (o.bytesOf l)) := by
    unfold Op.writeLane
    rw [hk]
  rw [hw, ← length_loadWords h (o.bytesOf l)]
  refine Received.writeWords hl _ w d (fun k a ha => ?_)
  rw [Nat.add_sub_cancel_left]
  exact getElem?_loadWords ha

/-! All lanes. -/

/-- The flags of lanes, together. -/
def joinFlags (fl : Nat → Fl) (ls : List Nat) : Fl := ls.foldr (fun l f => fl l ||| f) 0#6

theorem getLsbD_joinFlags (fl : Nat → Fl) (ls : List Nat) (b : Nat) :
    (joinFlags fl ls).getLsbD b = true ↔ ∃ l ∈ ls, (fl l).getLsbD b = true := by
  induction ls with
  | nil => simp [joinFlags]
  | cons l ls ih =>
    rw [joinFlags, List.foldr_cons, BitVec.getLsbD_or, Bool.or_eq_true]
    simp only [List.mem_cons, exists_eq_or_imp]
    exact or_congr_right ih

theorem maskOf_mem_nil : maskOf (fun l => decide (l ∈ ([] : List Nat))) = 0#32 := mask_ext fun l => by simp

theorem maskOf_mem_cons {l : Nat} (hl : l < 32) (ls : List Nat) :
    maskOf (fun j => decide (j ∈ l :: ls)) = 1#32 <<< l ||| maskOf (fun j => decide (j ∈ ls)) := mask_ext fun j => by
  rw [Bool.eq_iff_iff, inMask_or, Bool.or_eq_true, inMask_lane hl]
  simp only [inMask_maskOf, Bool.and_eq_true, decide_eq_true_eq, List.mem_cons]
  constructor
  · rintro ⟨h, rfl | hj⟩
    · exact .inl rfl
    · exact .inr ⟨h, hj⟩
  · rintro (rfl | ⟨h, hj⟩)
    · exact ⟨hl, .inl rfl⟩
    · exact ⟨h, .inr hj⟩

theorem maskOf_mem_maskLanes (m : Mask) : maskOf (fun l => decide (l ∈ maskLanes m)) = m := mask_ext fun l => by
  rw [Bool.eq_iff_iff]
  simp only [inMask_maskOf, Bool.and_eq_true, decide_eq_true_eq, mem_maskLanes]
  exact ⟨And.right, fun h => ⟨inMask_lt h, h⟩⟩

/-- Lanes of an operation receive their results one after another. -/
theorem LaneResults.foldl {o : Op} {d n : Nat} {x : Nat → Nat → W32} {fl : Nat → Fl} (h : LaneResults o d n x fl) (ls : List Nat) (hls : ∀ l ∈ ls, l < 32) (w : Warp) :
    Received w (ls.foldl o.writeLane w) (regBlock d n (maskOf (fun l => decide (l ∈ ls)))) (fun r l => x (r - d) l) (joinFlags fl ls) := by
  induction ls generalizing w with
  | nil =>
    rw [maskOf_mem_nil, regBlock_no_lanes]
    exact Received.refl w _
  | cons l ls ih =>
    rw [maskOf_mem_cons (hls l List.mem_cons_self), ← regBlock_or]
    exact (h w l (hls l List.mem_cons_self)).trans (ih (fun j hj => hls j (List.mem_cons_of_mem _ hj)) (o.writeLane w l))

theorem LaneResults.received {o : Op} {d n : Nat} {x : Nat → Nat → W32} {fl : Nat → Fl} (h : LaneResults o d n x fl) (m : Mask) (w : Warp) :
    Received w ((maskLanes m).foldl o.writeLane w) (regBlock d n m) (fun r l => x (r - d) l) (joinFlags fl (maskLanes m)) := by
  have := h.foldl (maskLanes m) (fun l hl => inMask_lt (mem_maskLanes.1 hl)) w
  rwa [maskOf_mem_maskLanes] at this

/-! Counters. -/

theorem flag_lowerFlag (w : Warp) (f : Option Nat) (g : Nat) : (w.lowerFlag f).flag g = w.flag g - (if f = some g then 1 else 0) := by
  cases f with
  | none => rfl
  | some f =>
    simp only [Warp.lowerFlag, Warp.flag, Tab.get_set, Option.some.injEq, @eq_comm _ f g]
    split
    · next h => rw [h]
    · rfl

/-- A warp once lanes m of an operation have completed: with the last lane of one that counts, its counter falls. -/
def lowered (o : Op) (m : Mask) (w : Warp) : Warp := if o.left &&& ~~~m = 0 ∧ o.counted = true then w.lowerFlag o.flag else w

theorem flag_lowered (o : Op) (m : Mask) (w : Warp) (f : Nat) :
    (lowered o m w).flag f = w.flag f - (if o.left &&& ~~~m = 0 ∧ o.counted = true ∧ o.flag = some f then 1 else 0) := by
  unfold lowered
  split
  · next h =>
    obtain ⟨hl, hc⟩ := h
    simp only [flag_lowerFlag, hl, hc, true_and]
  · next h => rw [if_neg (fun k => h ⟨k.1, k.2.1⟩), Nat.sub_zero]

theorem lowered_frame (o : Op) (m : Mask) (w : Warp) : lowered o m w = { w with flags := (lowered o m w).flags } := by
  unfold lowered
  split
  · cases o.flag <;> rfl
  · rfl

/-- Operations in flight once lanes m of one have completed whose accesses are all performed: with its last lane, it is gone. -/
def opsLeft (ops : Tab Op) (op : Nat) (o : Op) (m : Mask) : Tab Op :=
  if o.left &&& ~~~m = 0 then Tab.del ops op else Tab.put ops op { o with left := o.left &&& ~~~m }

theorem modWarp_put (s : State) (k : Nat) (w : Warp) (f : Warp → Warp) :
    State.modWarp { s with warps := Tab.put s.warps k w } k f = { s with warps := Tab.put s.warps k (f w) } := by
  simp only [State.modWarp, Tab.mod, Tab.look_put_self, Tab.put_put]

theorem modWarp_of_look {s : State} {k : Nat} {w : Warp} (h : Tab.look s.warps k = some w) (f : Warp → Warp) :
    s.modWarp k f = { s with warps := Tab.put s.warps k (f w) } := by
  simp only [State.modWarp, Tab.mod, h]

/-- Words that compute vector results at issue, and loads. -/
def VectorResult (k : OpKind) : Prop := (∃ d wide vals fl, k = .regs (.v d) wide vals fl) ∨ ∃ width d, k = .load width d

theorem laneDone_of_performed {o : Op} (hk : VectorResult o.kind) (hd : o.accs.all Access.done = true) (l : Nat) : o.laneDone l = true := by
  unfold Op.laneDone
  obtain ⟨d, wide, vals, fl, h⟩ | ⟨width, d, h⟩ := hk
  · rw [h]
  · rw [h]
    exact List.all_eq_true.2 fun a ha => by rw [List.all_eq_true.1 hd a ha, Bool.true_or]

/-! Threads held by the operation. -/

theorem those_none {w : Warp} {f : Thread → Bool} (h : ∀ l, l < 32 → f (w.thread l) = false) : w.those f = 0#32 := mask_ext fun l => by
  rw [Warp.those, inMask_maskOf, inMask_zero, Bool.and_eq_false_imp]
  exact fun hl => h l (of_decide_eq_true hl)

theorem modThreads_none (w : Warp) (f : Thread → Thread) : w.modThreads 0#32 f = w := by
  have h : w.threads.mapIdx (fun l t => if inMask 0#32 l then f t else t) = w.threads := List.ext_getElem (by simp) (by simp)
  unfold Warp.modThreads
  rw [h]

/-- A warp with no thread held by the operation stays as it is when held threads go on. -/
theorem modThreads_held_none {w : Warp} {op : Nat} (hh : ∀ l, l < 32 → (w.thread l).st ≠ .parked (.held op)) (f : Thread → Thread) :
    w.modThreads (w.those (fun t => t.st == .parked (.held op))) f = w := by
  rw [those_none (f := fun t => t.st == .parked (.held op)) (fun l hl => beq_eq_false_iff_ne.2 (hh l hl)), modThreads_none]

/-- The end of a completion: threads held by the operation go on once it is gone. -/
def unholdGone (s : State) (op warp : Nat) : State := if (Tab.look s.ops op).isNone then s.unholdAll op warp else s

section
variable {s : State} {op : Nat} {o : Op} (ho : Tab.look s.ops op = some o) (hd : o.accs.all Access.done = true)
include ho hd

theorem countDown_put (w : Warp) (m : Mask) :
    State.countDown { s with warps := Tab.put s.warps o.warp w } op m =
      { s with warps := Tab.put s.warps o.warp (lowered o m w), ops := opsLeft s.ops op o m } := by
  have hw : (if o.left &&& ~~~m = 0 ∧ o.counted = true then State.modWarp { s with warps := Tab.put s.warps o.warp w } o.warp (fun w => w.lowerFlag o.flag)
      else { s with warps := Tab.put s.warps o.warp w }) = { s with warps := Tab.put s.warps o.warp (lowered o m w) } := by
    unfold lowered
    split
    · exact modWarp_put s o.warp w _
    · rfl
  unfold State.countDown
  simp only [ho, hd, hw, and_true]
  unfold opsLeft
  split
  · rfl
  · next h => rw [bne_iff_ne.2 h, Bool.and_true]

/-- A completion writes the lanes asked for that are still to come, and counts them down. -/
theorem completeLanes_eq {w : Warp} (hw : Tab.look s.warps o.warp = some w) (hk : VectorResult o.kind) {lanes : Mask} (hm : lanes &&& o.left ≠ 0) :
    s.completeLanes op o lanes = { s with
      warps := Tab.put s.warps o.warp (lowered o (lanes &&& o.left) ((maskLanes (lanes &&& o.left)).foldl o.writeLane w))
      ops := opsLeft s.ops op o (lanes &&& o.left) } := by
  have hr : maskOf (fun l => inMask (lanes &&& o.left) l && o.laneDone l) = lanes &&& o.left := mask_ext fun l => by
    rw [inMask_maskOf, laneDone_of_performed hk hd, Bool.and_true]
    exact Bool.and_eq_right_iff_imp.2 fun h => decide_eq_true (inMask_lt h)
  unfold State.completeLanes
  simp only [hr, if_neg hm, modWarp_of_look hw]
  obtain ⟨d, wide, vals, fl, h⟩ | ⟨width, d, h⟩ := hk <;> simp only [h] <;> exact countDown_put ho hd _ _

theorem exec_completion (hk : VectorResult o.kind) (lanes : Mask) :
    exec (.longLatencyCompletion op lanes) s = .next (State.settleWg (unholdGone (s.completeLanes op o lanes) op o.warp) (o.warp / 32)) := by
  have hc : o.accs.any s.mayCancel = false := by
    rw [List.any_eq_false]
    intro a ha
    simp [State.mayCancel, List.all_eq_true.1 hd a ha]
  unfold unholdGone
  rw [exec_longLatencyCompletion]
  unfold execLongLatencyCompletion
  obtain ⟨d, wide, vals, fl, h⟩ | ⟨width, d, h⟩ := hk <;> simp [ho, h, hc]

end

/-- Without a thread held by the operation nothing goes on when it is gone. -/
theorem unholdGone_put (s : State) (op k : Nat) (w : Warp) (ops : Tab Op) (hh : ∀ l, l < 32 → (w.thread l).st ≠ .parked (.held op)) :
    unholdGone { s with warps := Tab.put s.warps k w, ops := ops } op k = { s with warps := Tab.put s.warps k w, ops := ops } := by
  unfold unholdGone
  split
  · have h := modWarp_put { s with ops := ops } k w (fun w => w.modThreads (w.those (fun t => t.st == .parked (.held op))) (fun t => t.pass.wake))
    rw [modThreads_held_none hh] at h
    exact h
  · rfl

section
variable {s : State} {op : Nat} {o : Op} {w : Warp} {d n : Nat} {x : Nat → Nat → W32} {fl : Nat → Fl} {lanes : Mask}

/-- Lanes of a word with vector results complete as the statements say. -/
theorem lanesDone_of_results (ho : Tab.look s.ops op = some o) (hd : o.accs.all Access.done = true) (hk : VectorResult o.kind)
    (hw : Tab.look s.warps o.warp = some w) (hm : lanes &&& o.left ≠ 0) (hh : ∀ l, l < 32 → (w.thread l).st ≠ .parked (.held op))
    (results : LaneResults o d n x fl) : LanesDone (exec (.longLatencyCompletion op lanes) s) s op o w (lanes &&& o.left) d n x fl := by
  have got := results.received (lanes &&& o.left) w
  have e := exec_completion ho hd hk lanes
  rw [completeLanes_eq ho hd hw hk hm] at e
  generalize lanes &&& o.left = m at *
  generalize (maskLanes m).foldl o.writeLane w = w₁ at *
  have hf := lowered_frame o m w₁
  have threads : (lowered o m w₁).threads = w.threads := by rw [hf, got.frame]
  have flags : ∀ f, w₁.flag f = w.flag f := fun f => by rw [got.frame]; rfl
  rw [unholdGone_put _ _ _ _ _ (fun l hl => by unfold Warp.thread; rw [threads]; exact hh l hl)] at e
  refine ⟨lowered o m w₁, opsLeft s.ops op o m, e, ?_, ?_, ?_, ?_, ?_, rfl⟩
  · rw [notHidden_eq _ hm, hf, got.frame]
  · intro r l hl
    rw [show (lowered o m w₁).vreg r l = w₁.vreg r l by rw [hf]; rfl, got.vreg r l hl]
    exact ite_congr (propext (inMask_regBlock ..)) (fun _ => rfl) (fun _ => rfl)
  · intro r l hl
    rw [show (lowered o m w₁).vPoison = w₁.vPoison by rw [hf], got.poison r l hl, inMask_regBlock]
  · intro b
    rw [show (lowered o m w₁).fpflags = w.fpflags ||| joinFlags fl (maskLanes m) by rw [hf, got.frame],
      BitVec.getLsbD_or, Bool.or_eq_true, getLsbD_joinFlags]
    simp only [mem_maskLanes]
  · intro f
    rw [flag_lowered, flags]

end

/-- Settles O30: both kinds of word give each lane its results in one block of registers, and completion writes the lanes one after another. -/
theorem resultEvents : Obligations.ResultEvents := by
  unfold Obligations.ResultEvents
  refine ⟨?_, ?_⟩
  · intro op d wide vals fl lanes s o w ho hk ha hw hm hh
    exact lanesDone_of_results ho (by rw [ha]; rfl) (.inl ⟨d, wide, vals, fl, hk⟩) hw hm hh (laneResults_regs hk)
  · intro op d width lanes s o w ho hk hwidth hd hw hm hh
    exact lanesDone_of_results ho (List.all_eq_true.2 hd) (.inr ⟨width, d, hk⟩) hw hm hh (laneResults_load hk hwidth)

end Sys2Proof.Machine

namespace Sys2Proof.Laws.RoundTrip

open Sys2Proof.Laws.Fields

/-! PROOFS. The decoder as the inverse of the encoder (R74, R75, R81, R84-R93): what decoding gives, by the round trip of each row; no event has a word, and no word that decodes has the guard 1111. -/

/-! The decoder. -/

theorem decode_encode (i : Instr) : Statement i :=
  i.casesOn (motive := Statement)
    nop bra bnz bz call ret exit tcall tcallW tret tquit tstat tstatCancel tbar sMov movh sIadd sIsub sMul sMulhu sAnd sOr sXor sShl sShr sSar sMin
    sMax sset sPopc sClz mov movImm iadd iaddImm isub isubImm mul mulImm mulhu mulhuImm mulhi mulhiImm imad and andImm or orImm xor xorImm shl shlImm
    shr shrImm sar sarImm min max sel popc clz brev fadd fsub fmul ffma fmin fmax faddF64 fsubF64 fmulF64 ffmaF64 fminF64 fmaxF64 hadd2 hsub2 hmul2
    hfma2 hmin2 hmax2 rcp rsqrt sqrt ex2 lg2 sin cos frnd cvt pack4 unpack4 icmp icmpImm fcmp fcmpF64 pcomb shflXor shflUp shflDown shflIdx shflIdxReg
    voteAll voteAny voteBallot scan redux ld ldScr ldCon ldPrv st copyStart stScr stPrv lds atomAdd atomMin atomMax atomMinu atomMaxu atomAnd atomOr
    atomXor atomExch atomCas atomFadd redAdd redMin redMax redFadd redOr fence acq rel relN bar barArrive barWait pbarArrive pbarWait mwait cwait
    cwaitTile ctest ctestTile publish tdef twait tfree mldb mmaP mclr mscl accst accld accq mbarArrive mbarWait mloop mend packp unpackp mfsr mtsr
    yield syscall trap brk ipf regq cctlWb cctlInv cctlWbinv qstat clauseStart longLatencyCompletion accessPerform icacheMissFill watchdogFault
    quotaTransferApply workgroupDeadlock sequencerTaskLoad monitorWake monitorEntryArm monitorSwapOut clusterRequeue diffApply diffAck
    lockHandoffReceive bteChunkStart chunkComplete copyFault tileDrainDone publishSwitch pageRetire rtailWrite ringEntryAdmit haltClear gridEligible
    clusterPull starvationPreempt gridComplete preRequest clusterSave clusterRestore trapRecordEnqueue replay skip jump endRecord answer singleStep
    growFaultService farPageFault swapComplete ctmigBringNear ctmigMoveFar ctmigOffline ctmigReserved tlbinv tlbinvComplete contextEnable
    contextDisable ogctlGo drainingMarkAck ogDrainDone ogDrainTimeout ogDarkTimer ogTrainUp ogTrainTimeout ogMappingDone moduleReset registerWrite
    scarabWrite bflipSetCtx bflipToHost bflipToDev bflipReserved d2hDrainComplete h2dDrainComplete biasSnoopTimeout memrd memwr birsp bisnpdataMonitor
    poolBisnpinv poolBisnpdata linkDown meshLinkFail cdieFence poisonErrorEvict reductionContribution reductionTimeout measext meassel attcmdGo
    quoteDone pwrreq powerCapThrottle fireflyBeacon retm uncorrectableError linkRetrain peerTransaction

theorem decode_eq_some {w : W64} {i : Instr} : decode w = some i ↔ parse w = some i ∧ encode i = w ∧ i.wf = true := by
  unfold decode
  cases parse w with
  | none => simp
  | some j => grind

theorem decode_eq_none {w : W64} {i : Instr} (h : parse w = some i) (k : encode i = w → i.wf = false) : decode w = none :=
  Option.eq_none_iff_forall_ne_some.2 fun j hj => by
    obtain ⟨hp, he, hw⟩ := decode_eq_some.1 hj
    obtain rfl : i = j := Option.some.inj (h.symm.trans hp)
    rw [k he] at hw
    cases hw

theorem decode_of_encode {w : W64} {i : Instr} (hi : i.isWord = true) (hw : i.wf = true) (h : encode i = w) : decode w = some i :=
  h ▸ decode_encode i hi hw

theorem encode_event {i : Instr} (h : i.isWord = false) : encode i = 0 := by
  cases i <;> cases h <;> rfl

/-- The encoder gives an event the word 0, and that word is NOP's. -/
theorem isWord_of_decode {w : W64} {i : Instr} (h : decode w = some i) : i.isWord = true := by
  cases hi : i.isWord with
  | true => rfl
  | false =>
    have h0 : w = 0 := (decode_eq_some.1 h).2.1.symm.trans (encode_event hi)
    have nop : decode 0 = some (.nop ⟨0, 0⟩) := decode_of_encode rfl rfl (by decide)
    rw [h0, nop] at h
    cases h
    cases hi

/-! Clause headers. -/

theorem isHeader_encodeHeader (x : Header) : isHeader (encodeHeader x) = true := by
  show (BitVec.extractLsb' (n := 6 + 4 + 4 + 12 + 1 + 4 + 1 + 4 + 28) 58 6 _ == 0x3F#6) = true
  simp (disch := decide) only [encodeHeader, BitVec.extractLsb'_append_eq_of_le]
  rfl

theorem parseHeader_encodeHeader (x : Header) : parseHeader (encodeHeader x) = x := by
  unfold encodeHeader parseHeader
  simp (disch := decide) only [BitVec.extractLsb'_append_eq_of_le, BitVec.extractLsb'_append_eq_of_add_le, BitVec.getLsbD_append, b1]
  simp

theorem b1_getLsbD (w : W64) (n : Nat) : b1 (w.getLsbD n) = w.extractLsb' n 1 := by
  apply BitVec.eq_of_getLsbD_eq
  intro k hk
  obtain rfl : k = 0 := by omega
  simp [b1]

/-- The nine fields of a header make up its word: R75's check and the leading ones fix those that the parser drops. -/
theorem encodeHeader_parseHeader {w : W64} (h : isHeader w = true) (k : headerOk w = true) : encodeHeader (parseHeader w) = w := by
  have ones : w.extractLsb' 58 6 = 0x3F#6 := eq_of_beq h
  have zeros : w.extractLsb' 0 28 = 0#28 := by
    simp only [headerOk, Bool.and_eq_true, beq_iff_eq] at k
    obtain ⟨⟨⟨⟨⟨-, zeros⟩, -⟩, -⟩, -⟩, -⟩ := k
    exact zeros
  calc encodeHeader (parseHeader w)
      = w.extractLsb' 58 6 ++ w.extractLsb' 54 4 ++ w.extractLsb' 50 4 ++ w.extractLsb' 38 12 ++ w.extractLsb' 37 1 ++ w.extractLsb' 33 4 ++
          w.extractLsb' 32 1 ++ w.extractLsb' 28 4 ++ w.extractLsb' 0 28 := by
        rw [ones, zeros]
        simp only [encodeHeader, parseHeader, b1_getLsbD]
    _ = w.extractLsb' 0 64 := by simp (disch := decide) only [BitVec.extractLsb'_append_extractLsb'_eq_extractLsb']
    _ = w := BitVec.extractLsb'_eq_self

/-! Guards. -/

theorem packSOp_49_4 (op : BitVec 8) (h : Head) (sd sa : BitVec 6) (y : SSrc) : (packSOp op h sd sa y).extractLsb' 49 4 = h.guard := by
  cases y <;> exact packS_49_4 ..

theorem mfsr_49_4 (h : Head) (d : MDst) (sel : BitVec 8) : (encode (.mfsr h d sel)).extractLsb' 49 4 = h.guard := by
  cases d <;> exact packV3_49_4 ..

/-- Stream words carry the guard 0111 (R84, format X). -/
theorem packX_49_4 (op : BitVec 8) (acc : BitVec 3) (ta tb : BitVec 6) (fs fl : BitVec 3) (cnt : BitVec 8) (ss : BitVec 6) (imm : BitVec 14) :
    (packX op acc ta tb fs fl cnt ss imm).extractLsb' 49 4 = 7#4 := by
  unfold packX
  show BitVec.extractLsb' (n := 8 + 3 + 4 + 3 + 6 + 6 + 3 + 3 + 8 + 6 + 14) 49 4 _ = _
  simp (disch := decide) only [BitVec.extractLsb'_append_eq_of_le, BitVec.extractLsb'_append_eq_of_add_le]
  rfl

theorem eq_of_guard {h : Head} {g : BitVec 4} (e : h.guard = g) : h = ⟨h.dist, g⟩ := by
  cases e
  rfl

/-- GUARD 1111 is in no word of a well-formed instruction (R81); the instructions go by format (R84). -/
theorem guard_encode {i : Instr} (hi : i.isWord = true) (hw : i.wf = true) : (wHead (encode i)).guard ≠ 0xF#4 := by
  intro hg
  cases i with
  | sel | cvt | pack4 | unpack4 | pcomb | shflXor | shflUp | shflDown | shflIdx | shflIdxReg | voteAll | voteAny
    | voteBallot | scan | redux | packp | unpackp | mtsr | iadd | isub | mul | mulhu | mulhi | and | or | xor | shl
    | shr | sar | min | max | fadd | fsub | fmul | fmin | fmax | faddF64 | fsubF64 | fmulF64 | fminF64 | fmaxF64 | hadd2
    | hsub2 | hmul2 | hmin2 | hmax2 | icmp | fcmp | fcmpF64 | imad | ffma | ffmaF64 | hfma2 | mov | popc | clz | brev
    | rcp | rsqrt | sqrt | ex2 | lg2 | sin | cos | frnd =>
    rw [eq_of_guard ((packV3_49_4 ..).symm.trans hg)] at hw
    cases hw
  | movImm | iaddImm | isubImm | mulImm | mulhuImm | mulhiImm | andImm | orImm | xorImm | shlImm | shrImm | sarImm | icmpImm
    | yield | syscall | trap | brk =>
    rw [eq_of_guard ((packVI_49_4 ..).symm.trans hg)] at hw
    cases hw
  | nop | movh | sset | sPopc | sClz | regq | qstat =>
    rw [eq_of_guard ((packS_49_4 ..).symm.trans hg)] at hw
    cases hw
  | sMov | sIadd | sIsub | sMul | sMulhu | sAnd | sOr | sXor | sShl | sShr | sSar | sMin | sMax =>
    rw [eq_of_guard ((packSOp_49_4 ..).symm.trans hg)] at hw
    cases hw
  | copyStart | lds | fence | acq | rel | relN | bar | barArrive | barWait | pbarArrive | pbarWait | mwait | ipf | cctlWb
    | cctlInv | cctlWbinv | ld | ldScr | ldCon | ldPrv | st | stScr | stPrv | atomAdd | atomMin | atomMax | atomMinu
    | atomMaxu | atomAnd | atomOr | atomXor | atomExch | atomCas | atomFadd | redAdd | redMin | redMax | redFadd | redOr =>
    rw [eq_of_guard ((packM_49_4 ..).symm.trans hg)] at hw
    cases hw
  | bra | bnz | bz | call | ret | exit =>
    rw [eq_of_guard ((packB_49_4 ..).symm.trans hg)] at hw
    cases hw
  | tcall | tcallW | tret | tquit | tstat | tstatCancel | tbar =>
    rw [eq_of_guard ((packT_49_4 ..).symm.trans hg)] at hw
    cases hw
  | cwait | cwaitTile | ctest | ctestTile | publish | tdef | twait | tfree =>
    rw [eq_of_guard ((packC_49_4 ..).symm.trans hg)] at hw
    cases hw
  | mldb | mmaP | mclr | mscl | accst | accld | accq | mbarArrive | mbarWait | mloop | mend =>
    cases (packX_49_4 ..).symm.trans hg
  | mfsr =>
    rw [eq_of_guard ((mfsr_49_4 ..).symm.trans hg)] at hw
    cases hw
  | _ => cases hi

theorem guard_of_decode {w : W64} {i : Instr} (h : decode w = some i) : (wHead w).guard ≠ 0xF#4 := by
  obtain ⟨-, rfl, hw⟩ := decode_eq_some.1 h
  exact guard_encode (isWord_of_decode h) hw

/-- Settles O51: the round trip of every row, and the checks that the decoder itself makes. -/
theorem decodeEncode : Obligations.DecodeEncode := by
  unfold Obligations.DecodeEncode
  refine ⟨decode_encode, fun w i h => ?_, fun x => ⟨isHeader_encodeHeader x, parseHeader_encodeHeader x⟩, fun w => encodeHeader_parseHeader⟩
  obtain ⟨-, he, hw⟩ := decode_eq_some.1 h
  exact ⟨isWord_of_decode h, hw, he⟩

/-- Settles O52: four words are encodings; of the others three name an instruction that fails a check (its guard, its destination, its first accumulator tile), one differs from the encoding of its fields, and one has an OP that R93 does not assign. -/
theorem decodeWords : Obligations.DecodeWords := by
  unfold Obligations.DecodeWords
  refine ⟨?_, ?_, ?_, ?_, ?_, ?_, ?_, ?_, ?_⟩
  · exact decode_of_encode rfl rfl (by decide)
  · exact decode_eq_none (i := .nop ⟨0, 0xF⟩) rfl (fun _ => rfl)
  · exact decode_of_encode rfl rfl (by decide)
  · exact decode_of_encode rfl rfl (by decide)
  · exact decode_eq_none (i := .iadd ⟨0, 7⟩ 254 (.v 5) (.v 4)) rfl (fun _ => rfl)
  · exact decode_eq_none (i := .mmaP 2 10 0 3) rfl (fun _ => rfl)
  · exact decode_of_encode rfl rfl (by decide)
  · exact decode_eq_none (i := .mend) rfl (by decide)
  · rfl

end Sys2Proof.Laws.RoundTrip

namespace Sys2Proof.Machine

open Sys2Proof.Claims Sys2Proof.Laws

/-! PROOFS. What a turn of an issuer runs (R95, R98, R183, R300), and what a word that fails a check leaves (R95-R97, R304, R343-R345). -/

/-! Turns of an issuer. -/

/-- With an empty agenda the issuer that holds the issue takes the turn. -/
theorem step_issue {s : State} {who : Issuer} (ha : s.agenda = []) (hc : s.cur = some who) : step s = issue who s := by
  simp only [step, State.nextTurn, ha, hc, turn]

/-- Before a word only the warps change. -/
theorem beforeWord_frame (s : State) (v : View) : s.beforeWord v = { s with warps := (s.beforeWord v).warps } := by
  unfold State.beforeWord
  split
  · split <;> rfl
  · rfl

/-- A split without a co-issue changes nothing before its word. -/
theorem beforeWord_alone {s : State} {v : View} (h : v.w.pair.map Pair.b = some 0) : s.beforeWord v = s := by
  obtain ⟨p, hp, hb⟩ := Option.map_eq_some_iff.1 h
  simp [State.beforeWord, hp, hb]

theorem nextWord_frame (s : State) (ws : Tab Warp) (who : Option Issuer) (v : View) :
    State.nextWord { s with warps := ws, cur := who } v = s.nextWord v := rfl

theorem nextWord_beforeWord (s : State) (v : View) (who : Option Issuer) : State.nextWord { s.beforeWord v with cur := who } v = s.nextWord v := by
  rw [beforeWord_frame]
  exact nextWord_frame ..

section
variable {s : State} {v : View} (hv : s.view v.key = some v) (hm : s.mayIssue v = true)
include hv hm

theorem issueWarp_run {i : Instr} (h : s.nextWord v = .run i) :
    issueWarp v.key s = mapNext (exec i { s.beforeWord v with cur := some (.warp v.key) }) (fun t => t.issued v) := by
  simp [issueWarp, hv, hm, nextWord_beforeWord, h]

theorem issueWarp_bad {c : Nat} {m : Mask} {d : W64} (h : s.nextWord v = .bad c m d) :
    issueWarp v.key s = .next (({ s.beforeWord v with cur := some (.warp v.key) }.raise v v.w.split [(c, m)] d).issued v) := by
  simp [issueWarp, hv, hm, nextWord_beforeWord, h]
end

/-- A fetched word that fails a check raises it, where the pair has one split. -/
theorem step_refused {s : State} {v : View} {c : Nat} {m : Mask} {d : W64} (ha : s.agenda = []) (hc : s.cur = some (.warp v.key)) (hv : s.view v.key = some v)
    (hm : s.mayIssue v = true) (hp : v.w.pair.map Pair.b = some 0) (h : s.nextWord v = .bad c m d) :
    step s = .next ((s.raise v v.w.split [(c, m)] d).issued v) := by
  have hcur : { s with cur := some (.warp v.key) } = s := by rw [← hc]
  have hw := issueWarp_bad hv hm h
  rw [beforeWord_alone hp, hcur] at hw
  exact (step_issue ha hc).trans hw

theorem nextWord_of_fetch {s : State} {v : View} {w : W64} (h : s.fetchCode v.wg.core v.g.ctx (v.w.pcOf v.w.split) = .word w) :
    s.nextWord v = v.w.checkWord s.draws v.w.split w := by
  simp only [State.nextWord, h]

section
variable {x : Warp} {n : Nat} {sp : Mask} {w : W64} {c : ClauseCtx} (hc : (x.thread (lowLane sp)).cl = some c)
include hc

theorem checkWord_run {i : Instr} (hk : opClass (wOp w) = some c.cls) (hd : decode w = some i) : x.checkWord n sp w = .run i := by
  simp [Warp.checkWord, RoundTrip.guard_of_decode hd, hc, hk, hd]

variable {en : Mask} (hen : ({ x with hazards := age (wHead w).dist.toNat sp x.hazards } : Warp).enabled n (wHead w) sp = en)
  (hg : (wHead w).guard ≠ 0xF#4) (h0 : en ≠ 0#32)
include hen hg h0

theorem checkWord_illegal (h : opClass (wOp w) = none ∨ (opClass (wOp w) = some c.cls ∧ decode w = none)) :
    x.checkWord n sp w = .bad causeIllegal en w := by
  obtain h | ⟨hk, hd⟩ := h
  · simp [Warp.checkWord, hg, hen, h0, h]
  · simp [Warp.checkWord, hg, hen, h0, hk, hd, hc]

theorem checkWord_class {k : Nat} (hk : opClass (wOp w) = some k) (hne : k ≠ c.cls) : x.checkWord n sp w = .bad causeClass en w := by
  simp [Warp.checkWord, hg, hen, h0, hk, hne, hc]
end

/-! Turns of a sequencer. -/

theorem streamLine_of_word {s : State} {core c va : Nat} {w : W64} (h : s.fetchCode core c va = .word w) : s.streamLine core c va = s := by
  simp only [State.streamLine, h]

theorem issueSeq_run {s : State} {r : SeqRun} {w : W64} {i : Instr} {c : ClauseCtx} (hs : s.cur = some (.seq r.key)) (hr : s.curSeq = some r) (hq : s.seqReady r = true)
    (hc : r.q.cl = some c) (hf : s.fetchCode r.wg.core r.g.ctx r.q.pc = .word w) (hk : opClass (wOp w) = some c.cls) (hd : decode w = some i) :
    issueSeq r.key s = mapNext (exec i (s.modSeq r.key (fun _ => r.q))) (fun t => { t with cur := none }) := by
  have hcur : { s with cur := some (.seq r.key) } = s := by rw [← hs]
  have hfill : s.seqFill r = s := by simp only [State.seqFill, hc, streamLine_of_word hf]
  have hnext : s.seqNext r = (some c, r.q.pc, .run i) := by
    simp [State.seqNext, hc, hf, RoundTrip.guard_of_decode hd, hk, hd]
  have hsame : { r.q with cl := some c, pc := r.q.pc } = r.q := by rw [← hc]
  simp [issueSeq, hcur, hr, hq, hfill, hnext, hsame]

/-- Settles O53: the fetched word passes the checks of R95's orders 1 to 5, for no word that decodes has the guard 1111. -/
theorem stepRunsDecoded : Obligations.StepRunsDecoded := by
  unfold Obligations.StepRunsDecoded
  refine ⟨?_, ?_, ?_⟩
  · intro s v w i c ha hc hv hm hf hcl hk hd
    rw [step_issue ha hc]
    exact issueWarp_run hv hm ((nextWord_of_fetch hf).trans (checkWord_run hcl hk hd))
  · intro s r w i c ha hc hr hq hcl hf hk hd
    rw [step_issue ha hc]
    exact issueSeq_run hc hr hq hcl hf hk hd
  · intro s i rest ha
    simp only [step, State.nextTurn, ha, turn]

/-! Records. -/

/-- A record enters its core's queue where there is room, or waits (R345). -/
theorem addRec_filed (s : State) (r : TrapRec) : Filed (s.addRec r) s r := by
  have room : (decide ((s.coreAt r.core).queue.length < 64) && !s.recs.any (fun e => e.2.core == r.core && !e.2.queued)) = true ↔ Room s r.core := by
    simp [Room]
  unfold State.addRec
  dsimp only
  generalize (decide ((s.coreAt r.core).queue.length < 64) && !s.recs.any (fun e => e.2.core == r.core && !e.2.queued)) = q at room
  cases q with
  | false => exact ⟨false, s.cores, room, rfl, fun k => rfl⟩
  | true =>
    refine ⟨true, _, room, rfl, fun k => ?_⟩
    rw [Tab.get_put]
    by_cases h : k = r.core
    · subst h; simp
    · simp [h]; rfl

theorem flatMap_range_ite {α : Type} (c n : Nat) (y : List α) :
    (List.range n).flatMap (fun x => if x = c then y else []) = if c < n then y else [] := by
  induction n with
  | zero => rfl
  | succ n ih =>
    rw [List.range_succ, List.flatMap_append, ih, List.flatMap_singleton]
    by_cases h : n = c
    · simp [h]
    · simp [h, show c < n + 1 ↔ c < n by omega]

/-- One cause in some threads is in order. -/
theorem sortCauses_single {c : Nat} {m : Mask} (hc : c < 44) (hm : m ≠ 0) : sortCauses [(c, m)] = [(c, m)] := by
  have h (x : Nat) : (let a := ([(c, m)].filter (fun e => e.1 == x)).foldl (fun a e => a ||| e.2) 0#32; if a = 0 then [] else [(x, a)]) =
      if x = c then [(c, m)] else [] := by
    by_cases hx : x = c
    · subst hx; simpa using hm
    · simp [hx, Ne.symm hx]
  unfold sortCauses
  rw [funext h, flatMap_range_ite, if_pos hc]

/-- An exception with one cause: a record is filed and the split parks on it (R97, R345). -/
theorem raise_filed {s : State} {v : View} {sp m : Mask} {c : Nat} {d : W64} (hc : c < 44) (hm : m ≠ 0) :
    ∃ t, Filed t s (recordOf s v (v.w.pcOf sp) sp [(c, m)] d 0) ∧
      s.raise v sp [(c, m)] d = t.modWarp v.key (fun w => w.park sp (.record s.nextId)) := by
  have e : v.record s (v.w.pcOf sp) sp [(c, m)] d 0 = recordOf s v (v.w.pcOf sp) sp [(c, m)] d 0 := by
    rw [View.record, sortCauses_single hc hm]
    rfl
  exact ⟨_, addRec_filed s _, by rw [State.raise, e]⟩

/-- The watchdog fault of a word that is no co-issue's first. -/
theorem watchdog_single {s : State} {v : View} (h : v.w.cost = 1) :
    s.watchdog v = s.raise v v.w.split [(causeWatchdog, v.w.split)] (BitVec.ofNat 64 v.g.ceiling) := by
  unfold State.watchdog
  split
  · rw [if_neg (by omega)]
  · rfl

/-! Guards and checks of value words. -/

/-- Once its latencies are settled, a split's guard reads the predicate as it stands (R81, R82). -/
theorem enabled_of_settled {s : State} {v : View} {h : Head} (hs : Settled h.dist.toNat v.w.split v.w.hazards) : (Run.of s v h).en = enabled v h := by
  refine mask_ext fun l => ?_
  simp only [Run.of, Warp.enabled, enabled, inMask_maskOf]
  cases hl : inMask v.w.split l with
  | false => simp
  | true =>
    rw [readP_settled hs rfl _ _ hl]
    rfl

theorem queueReg_iff (a : BitVec 8) : (a = 254#8 ∨ a = 255#8) ↔ ¬ a.toNat < 254 := by bv_omega

theorem dstRegs_eq (d : VDst) : dstRegs d = d.regs := by
  cases d with
  | r32 d => simp only [dstRegs, VDst.regs, queueReg_iff, ite_not]
  | r64 d => rfl
  | pred p => rfl

theorem opndRegs_eq (o : Opnd) : opndRegs o = o.regs := by
  cases o with
  | r32 a => cases a with
    | v a => simp only [opndRegs, Opnd.regs, queueReg_iff, ite_not]
    | s a => rfl
  | r64 a => cases a <;> rfl
  | imm x => rfl
  | pred p => rfl

theorem decide_qa (o : Opnd) : decide (o = .r32 (.v 254#8)) = o.isQa := by
  cases o with
  | r32 a => cases a with
    | v a => rw [Bool.eq_iff_iff]; simp [Opnd.isQa]
    | s a => simp [Opnd.isQa]
  | r64 a => simp [Opnd.isQa]
  | imm x => simp [Opnd.isQa]
  | pred p => simp [Opnd.isQa]

theorem pushes_eq (d : VDst) : pushes d = d.isQm := by
  cases d with
  | r32 d => rw [Bool.eq_iff_iff]; simp [pushes, VDst.isQm]
  | r64 d => simp [pushes, VDst.isQm]
  | pred p => simp [pushes, VDst.isQm]

theorem valuePre_eq (fsel : Option Bool) (d : VDst) (os : List Opnd) : valuePre fsel d os = preOf fsel d os := by
  have hr : opndRegs = Opnd.regs := funext opndRegs_eq
  have hq : pops os = os.any Opnd.isQa := by rw [pops, funext decide_qa]
  rw [valuePre, preOf, dstRegs_eq, hr, hq, pushes_eq]

/-- The only check that a value word of classes 1 and 2 can fail is that of the quota (R92). -/
theorem valuePre_check_cause {d : VDst} {os : List Opnd} {v : View} {sp : Mask} {w : W64} {c : Nat} {x : W64}
    (h : (valuePre none d os).check v sp w = some (c, x)) : c = causeQuota := by
  simp only [Pre.check, valuePre, Option.none_beq_some, Bool.false_and, Bool.or_self, Bool.false_eq_true, if_false, List.find?_nil] at h
  split at h
  · cases h
    rfl
  · cases h

/-- The instruction runs as the value operation of the row's operands. -/
def RunsAs (i : Instr) (row : ValueRow) : Prop := ∃ f, ∀ s, exec i s = valueOp i row.head row.lat row.dst row.os f s

theorem runsAs_intRow {i : Instr} {row : ValueRow} (h : intRow i = some row) : RunsAs i row := by
  cases i with
  | mov | movImm | iadd | iaddImm | isub | isubImm | mul | mulImm | mulhu | mulhuImm | mulhi | mulhiImm | imad | and | andImm | or | orImm | xor | xorImm
    | shl | shlImm | shr | shrImm | sar | sarImm | min | max | sel | popc | clz | brev =>
    cases h
    exact ⟨_, fun _ => rfl⟩
  | _ => cases h

theorem runsAs_fp32Row {i : Instr} {row : ValueRow} (h : fp32Row i = some row) : RunsAs i row := by
  cases i with
  | fadd | fsub | fmul | ffma | fmin | fmax =>
    cases h
    exact ⟨_, fun _ => rfl⟩
  | _ => cases h

theorem runsAs_fp64Row {i : Instr} {row : ValueRow} (h : fp64Row i = some row) : RunsAs i row := by
  cases i with
  | faddF64 | fsubF64 | fmulF64 | ffmaF64 | fminF64 | fmaxF64 =>
    cases h
    exact ⟨_, fun _ => rfl⟩
  | _ => cases h

theorem runsAs_packedRow {i : Instr} {row : ValueRow} (h : packedRow i = some row) : RunsAs i row := by
  cases i with
  | hadd2 | hsub2 | hmul2 | hfma2 | hmin2 | hmax2 =>
    cases h
    exact ⟨_, fun _ => rfl⟩
  | _ => cases h

theorem runsAs_predRow {i : Instr} {row : ValueRow} (h : predRow i = some row) : RunsAs i row := by
  cases i with
  | icmp | icmpImm | fcmp | fcmpF64 | pcomb =>
    cases h
    exact ⟨_, fun _ => rfl⟩
  | _ => cases h

/-- A value word of classes 1 and 2 issues with the checks that the statements give it. -/
theorem RunsAs.issues {i : Instr} {row : ValueRow} (h : RunsAs i row) : ∃ f, ∀ s, exec i s = runWarp i row.head (valuePre none row.dst row.os) s f := by
  obtain ⟨f, hf⟩ := h
  exact ⟨_, fun s => by rw [hf, valuePre_eq]; rfl⟩

/-! Value words that do not have their effect. -/

section
variable {i : Instr} {row : ValueRow} {s : State} {v : View} (hr : RunsAs i row) (hc : s.curView = some v)
  (hs : Settled row.head.dist.toNat v.w.split v.w.hazards)
include hr hc hs

/-- A value word that fails a check parks its split on a record of it, with no other effect (R97). -/
theorem exec_failing {c : Nat} {d : W64} (hen : enabled v row.head ≠ 0) (hk : (valuePre none row.dst row.os).check v v.w.split (encode i) = some (c, d)) :
    ∃ t, Filed t s (recordOf s v (v.w.pcOf v.w.split) v.w.split [(c, enabled v row.head)] d 0) ∧
      exec i s = .next (t.modWarp v.key (fun w => w.park v.w.split (.record s.nextId))) := by
  obtain ⟨f, hf⟩ := hr.issues
  have he := enabled_of_settled (s := s) hs
  obtain ⟨t, ht, hp⟩ := raise_filed (s := s) (v := v) (sp := v.w.split) (d := d) (valuePre_check_cause hk ▸ (by decide : causeQuota < 44)) hen
  exact ⟨t, ht, by rw [hf, runWarp_check hc (he ▸ hen) hk, he, hp]⟩

/-- A value word whose guard is false in every thread passes (R96). -/
theorem exec_guarded (hen : enabled v row.head = 0) (hb : v.w.cost ≤ v.w.budget) : exec i s = .next (after s v (passed v row.head)) := by
  obtain ⟨f, hf⟩ := hr.issues
  rw [hf, runWarp_guarded hc ((enabled_of_settled hs).trans hen) hb, Run.of_put]
  rfl

/-- A value word past the budget raises the watchdog fault in its split (R304). -/
theorem exec_spent (hb : v.w.budget = 0) (hen : enabled v row.head = 0) (h1 : v.w.cost = 1) (hsp : v.w.split ≠ 0) :
    ∃ t, Filed t s (recordOf s v (v.w.pcOf v.w.split) v.w.split [(causeWatchdog, v.w.split)] (BitVec.ofNat 64 v.g.ceiling) 0) ∧
      exec i s = .next (t.modWarp v.key (fun w => w.park v.w.split (.record s.nextId))) := by
  obtain ⟨f, hf⟩ := hr.issues
  have he := (enabled_of_settled (s := s) hs).trans hen
  obtain ⟨t, ht, hp⟩ := raise_filed (s := s) (v := v) (sp := v.w.split) (d := BitVec.ofNat 64 v.g.ceiling) (by decide : causeWatchdog < 44) hsp
  exact ⟨t, ht, by rw [hf, runWarp_watchdog hc (.inl he) (.inl he) (by omega), watchdog_single h1, hp]⟩

end

/-- Settles O57: the value words of five tables issue alike, and a fetched word that does not decode is refused by the checks of R95's orders 2 to 5. -/
theorem trapTaken : Obligations.TrapTaken := by
  unfold Obligations.TrapTaken
  refine ⟨?_, ?_⟩
  · intro i row s v c d hi hc hs
    have hr : RunsAs i row := by
      obtain h | h | h | h | h := hi
      · exact runsAs_intRow h
      · exact runsAs_fp32Row h
      · exact runsAs_fp64Row h
      · exact runsAs_packedRow h
      · exact runsAs_predRow h
    exact ⟨exec_failing hr hc hs, exec_guarded hr hc hs, exec_spent hr hc hs⟩
  · intro s v w c en ha hc hv hm hf hcl hen hg h0 hp
    refine ⟨fun h => ?_, fun k hk hne => ?_⟩
    · exact step_refused ha hc hv hm hp ((nextWord_of_fetch hf).trans (checkWord_illegal hcl hen hg h0 h))
    · exact step_refused ha hc hv hm hp ((nextWord_of_fetch hf).trans (checkWord_class hcl hen hg h0 hk hne))

end Sys2Proof.Machine

namespace Sys2Proof.Machine

/-! PROOFS. Diff packets at their home and at their die (R153, R256, R259, R365), and what a die that receives a handoff holds after its list (R156, R261). -/

/-! Packets. -/

/-- The first packet of its die at its home is applied when its event runs. -/
theorem exec_diffApply_first {s : State} {pkt : Nat} {p : Packet} (hp : Tab.look s.pkts pkt = some p) (ha : p.applied = false) (hf : s.packetFirst pkt p = true) :
    exec (.diffApply pkt) s = .next (s.applyPacket pkt p) := by
  simp [execDiffApply, hp, ha, hf]

/-- The notice log of a retired stack is fenced. -/
theorem notice_retired {s : State} {key : Nat} (h : s.isRetired key = true) (ctx kind die seq : Nat) : s.notice key ctx kind die seq = s := by
  have hf : (s.homeAt (homeOf key)).fenced = true := (Bool.and_eq_true_iff.1 h).2
  simp [State.notice, hf]

theorem applyPacket_retired {s : State} {p : Packet} (pkt : Nat) (h : s.isRetired (s.packetCell p) = true) :
    s.applyPacket pkt p = { s with pkts := Tab.put s.pkts pkt { p with applied := true } } := by
  simp [State.applyPacket, h, notice_retired h]

theorem applyPacket_runs {s : State} {p : Packet} (pkt : Nat) (h : s.isRetired (s.packetCell p) = false) (hz : p.pz = false) :
    s.applyPacket pkt p = { ((s.writeRuns (p.runs.map (fun r => (s.packetCell p + r.1, r.2)))).notice (s.packetCell p) p.ctx (if p.kind = 0 then 0 else 1) p.die p.seq)
      with pkts := Tab.put s.pkts pkt { p with applied := true } } := by
  have hk : (s.writeRuns (p.runs.map (fun r => (s.packetCell p + r.1, r.2)))).pkts = s.pkts := by rw [writeRuns_eq]
  simp [State.applyPacket, h, hz, hk]

theorem exec_diffAck_applied {s : State} {pkt : Nat} {p : Packet} (hp : Tab.look s.pkts pkt = some p) (ha : p.applied = true) (hd : p.drop = false) :
    exec (.diffAck pkt) s = .next { s with pkts := Tab.del s.pkts pkt } := by
  simp [execDiffAck, hp, ha, State.ackPacket, hd]

/-! Sectors after a list of packets. -/

/-- The tag of the sector that a packet names. -/
def Packet.tag (p : Packet) : Nat := p.ctx * 2 ^ 52 + p.sector

/-- The sector takes no patch of a handoff with this stamp: it has a twin, or its bytes have changed since the release (log 36). -/
def Sector.kept (stamp : Nat) (x : Sector) : Bool := x.twin.isSome || decide (stamp ≤ x.fresh)

/-- The bytes of a sector after every run that the packets of a list have for it. -/
def patchedBy (l : List Packet) (tag : Nat) (b : List Byte) : List Byte :=
  (l.filter (fun p => p.tag == tag && !p.pz)).foldl (fun b p => p.runs.foldl (fun b r => patch b r.1 r.2) b) b

/-- A sector of the die after the packets of a handoff's list. -/
def Sector.after (stamp : Nat) (l : List Packet) (tag : Nat) (x : Sector) : Sector :=
  if x.kept stamp then x else { x with data := patchedBy l tag x.data }

theorem Sector.after_of_kept {stamp : Nat} {x : Sector} (h : x.kept stamp = true) (l : List Packet) (tag : Nat) : x.after stamp l tag = x := if_pos h

theorem Sector.after_of_not_kept {stamp : Nat} {x : Sector} (h : x.kept stamp = false) (l : List Packet) (tag : Nat) :
    x.after stamp l tag = { x with data := patchedBy l tag x.data } := if_neg (by simp [h])

/-- Patches leave a sector's twin and stamp. -/
theorem Sector.kept_after (stamp : Nat) (l : List Packet) (tag : Nat) (x : Sector) : (x.after stamp l tag).kept stamp = x.kept stamp := by
  unfold Sector.after
  split <;> rfl

theorem patchedBy_append (l m : List Packet) (tag : Nat) (b : List Byte) : patchedBy (l ++ m) tag b = patchedBy m tag (patchedBy l tag b) := by
  simp only [patchedBy, List.filter_append, List.foldl_append]

/-- Packets that are for other sectors or poison theirs change no byte. -/
theorem Sector.after_unchanged {stamp tag : Nat} {l : List Packet} (h : ∀ p ∈ l, p.tag = tag → p.pz = true) (x : Sector) : x.after stamp l tag = x := by
  have hl : l.filter (fun p => p.tag == tag && !p.pz) = [] := by simpa [List.filter_eq_nil_iff] using h
  unfold Sector.after patchedBy
  rw [hl]
  split <;> rfl

theorem Sector.after_append (stamp : Nat) (l m : List Packet) (tag : Nat) (x : Sector) : x.after stamp (l ++ m) tag = (x.after stamp l tag).after stamp m tag := by
  cases h : x.kept stamp with
  | true => simp only [Sector.after_of_kept h]
  | false => rw [Sector.after_of_not_kept ((Sector.kept_after ..).trans h), Sector.after_of_not_kept h, Sector.after_of_not_kept h, patchedBy_append]

/-! What a list of packets leaves of the die that receives it. -/

/-- What the packets of a list, of a handoff with this stamp, make of a die: the sectors that it holds are patched, and those that a packet names but cannot patch are to leave at its next acquire. -/
structure Die.Received (stamp : Nat) (l : List Packet) (d e : Die) : Prop where
  frame : e = { d with l2 := e.l2, left := e.left }
  l2 : ∀ tag, Tab.look e.l2 tag = (Tab.look d.l2 tag).map (Sector.after stamp l tag)
  left_mono : ∀ tag ∈ d.left, tag ∈ e.left
  kept_left : ∀ tag x, Tab.look d.l2 tag = some x → x.kept stamp = true → (∃ p ∈ l, p.tag = tag) → tag ∈ e.left

section
variable {stamp tag : Nat} {l : List Packet} {d e : Die} {x : Sector} (h : Die.Received stamp l d e) (hx : Tab.look d.l2 tag = some x)
include h hx

theorem Die.Received.look_kept (hk : x.kept stamp = true) : Tab.look e.l2 tag = some x := by
  rw [h.l2, hx, Option.map_some, Sector.after_of_kept hk]

theorem Die.Received.look_patched (hk : x.kept stamp = false) : Tab.look e.l2 tag = some { x with data := patchedBy l tag x.data } := by
  rw [h.l2, hx, Option.map_some, Sector.after_of_not_kept hk]

end

theorem Die.Received.refl (stamp : Nat) (d : Die) : Die.Received stamp [] d d where
  frame := rfl
  l2 tag := by simp [funext (Sector.after_unchanged (stamp := stamp) (tag := tag) (l := []) (by simp))]
  left_mono _ h := h
  kept_left _ _ _ _ h := by simp at h

theorem Die.Received.trans {stamp : Nat} {l m : List Packet} {c d e : Die} (h : Die.Received stamp l c d) (k : Die.Received stamp m d e) :
    Die.Received stamp (l ++ m) c e where
  frame := by rw [k.frame, h.frame]
  l2 tag := by rw [k.l2, h.l2, Option.map_map, funext (Sector.after_append stamp l m tag)]; rfl
  left_mono tag ht := k.left_mono tag (h.left_mono tag ht)
  kept_left tag x hx hk hp := by
    obtain ⟨p, hp, rfl⟩ := hp
    obtain hp | hp := List.mem_append.1 hp
    · exact k.left_mono _ (h.kept_left _ x hx hk ⟨p, hp, rfl⟩)
    · exact k.kept_left _ x (h.look_kept hx hk) hk ⟨p, hp, rfl⟩

/-- Packets for one sector that cannot patch it mark it to leave at the next acquire. -/
theorem Die.Received.mark {stamp tag : Nat} {l : List Packet} {d : Die} (hl : ∀ p ∈ l, p.tag = tag)
    (hx : ∀ x, Tab.look d.l2 tag = some x → x.kept stamp = true ∨ ∀ p ∈ l, p.pz = true) :
    Die.Received stamp l d { d with left := tag :: d.left.filter (· != tag) } where
  frame := rfl
  l2 j := by
    cases hj : Tab.look d.l2 j with
    | none => rfl
    | some x =>
      have hu : x.after stamp l j = x := by
        cases hk : x.kept stamp with
        | true => exact Sector.after_of_kept hk ..
        | false =>
          refine Sector.after_unchanged (fun p hp hpj => ?_) x
          obtain rfl : j = tag := hpj.symm.trans (hl p hp)
          exact (hx x hj).resolve_left (by simp [hk]) p hp
      rw [Option.map_some, hu]
  left_mono j hj := by
    by_cases h : j = tag
    · exact h ▸ List.mem_cons_self
    · exact List.mem_cons_of_mem _ (List.mem_filter.2 ⟨hj, by simpa using h⟩)
  kept_left j _ _ _ hp := by
    obtain ⟨p, hp, rfl⟩ := hp
    exact hl p hp ▸ List.mem_cons_self

/-- A packet for a sector that the die does not hold changes nothing there. -/
theorem Die.Received.absent {d : Die} {p : Packet} (stamp : Nat) (h : Tab.look d.l2 p.tag = none) : Die.Received stamp [p] d d where
  frame := rfl
  l2 j := by
    cases hj : Tab.look d.l2 j with
    | none => rfl
    | some x =>
      have hne : p.tag ≠ j := fun e => by rw [e, hj] at h; cases h
      rw [Option.map_some, Sector.after_unchanged (by simp [hne])]
  left_mono _ ht := ht
  kept_left j x hj _ hp := by
    obtain ⟨q, hq, rfl⟩ := hp
    rw [List.mem_singleton.1 hq, h] at hj
    cases hj

/-- A packet patches its sector where the die holds it clean. -/
theorem Die.Received.patch {stamp : Nat} {d : Die} {p : Packet} {x : Sector} (hx : Tab.look d.l2 p.tag = some x) (hk : x.kept stamp = false) (hz : p.pz = false) :
    Die.Received stamp [p] d { d with l2 := Tab.put d.l2 p.tag { x with data := p.runs.foldl (fun b r => Machine.patch b r.1 r.2) x.data } } where
  frame := rfl
  l2 j := by
    rw [Tab.look_put]
    split
    · next h => subst h; simp [hx, Sector.after_of_not_kept hk, patchedBy, hz]
    · next h =>
      cases Tab.look d.l2 j with
      | none => rfl
      | some y => rw [Option.map_some, Sector.after_unchanged (by simp [Ne.symm h])]
  left_mono _ ht := ht
  kept_left j y hj hky hp := by
    obtain ⟨q, hq, rfl⟩ := hp
    rw [List.mem_singleton.1 hq, hx] at hj
    rw [← Option.some.inj hj, hk] at hky
    cases hky

/-! The state's operations on the die that receives. -/

/-- Only the die that receives the list differs, as the list makes it. -/
structure ListReceived (die stamp : Nat) (l : List Packet) (s t : State) : Prop where
  frame : t = { s with dies := t.dies }
  others : ∀ j, j ≠ die → t.dieAt j = s.dieAt j
  die : Die.Received stamp l (s.dieAt die) (t.dieAt die)

theorem ListReceived.refl (die stamp : Nat) (s : State) : ListReceived die stamp [] s s := ⟨rfl, fun _ _ => rfl, .refl ..⟩

theorem ListReceived.trans {die stamp : Nat} {l m : List Packet} {s t u : State} (h : ListReceived die stamp l s t) (k : ListReceived die stamp m t u) :
    ListReceived die stamp (l ++ m) s u where
  frame := by rw [k.frame, h.frame]
  others j hj := (k.others j hj).trans (h.others j hj)
  die := h.die.trans k.die

theorem State.dieAt_setDie (s : State) (k j : Nat) (d : Die) : (s.setDie k d).dieAt j = if j = k then d else s.dieAt j := Tab.get_put ..

theorem ListReceived.setDie {die stamp : Nat} {l : List Packet} {s : State} {d : Die} (h : Die.Received stamp l (s.dieAt die) d) :
    ListReceived die stamp l s (s.setDie die d) where
  frame := rfl
  others j hj := by rw [State.dieAt_setDie, if_neg hj]
  die := by rwa [State.dieAt_setDie, if_pos rfl]

/-- A fold over a list, each of whose steps receives the packets that its element stands for. -/
theorem ListReceived.foldl {α : Type} {die stamp : Nat} {f : State → α → State} {ps : α → List Packet} (hf : ∀ s a, ListReceived die stamp (ps a) s (f s a)) (as : List α) :
    ∀ s, ListReceived die stamp (as.flatMap ps) s (as.foldl f s) := by
  induction as with
  | nil => exact fun s => .refl die stamp s
  | cons a as ih => exact fun s => (hf s a).trans (ih _)

theorem sweepLater_held {s : State} {die tag : Nat} {x : Sector} (h : Tab.look (s.dieAt die).l2 tag = some x) :
    s.sweepLater die tag = s.setDie die { s.dieAt die with left := tag :: (s.dieAt die).left.filter (· != tag) } := by
  simp [State.sweepLater, h]

/-- Marking a sector for the next acquire patches nothing. -/
theorem sweepLater_received (die stamp : Nat) (s : State) (tag : Nat) : ListReceived die stamp [] s (s.sweepLater die tag) := by
  cases h : Tab.look (s.dieAt die).l2 tag with
  | none => simpa [State.sweepLater, h] using ListReceived.refl die stamp s
  | some x =>
    rw [sweepLater_held h]
    exact .setDie (.mark (by simp) (by simp))

section
variable {s : State} {die stamp : Nat} {p : Packet}

theorem patchC_absent (h : Tab.look (s.dieAt die).l2 p.tag = none) : s.patchC die stamp p = s := by
  unfold Packet.tag at h
  simp only [State.patchC, h]

theorem patchC_refused {x : Sector} (h : Tab.look (s.dieAt die).l2 p.tag = some x) (hc : x.kept stamp = true ∨ p.pz = true) :
    s.patchC die stamp p = s.sweepLater die p.tag := by
  unfold Packet.tag at *
  simp only [State.patchC, h]
  exact if_pos (Bool.or_eq_true_iff.2 hc)

theorem patchC_patched {x : Sector} (h : Tab.look (s.dieAt die).l2 p.tag = some x) (hk : x.kept stamp = false) (hz : p.pz = false) :
    s.patchC die stamp p = s.setL2 die p.tag { x with data := p.runs.foldl (fun d r => patch d r.1 r.2) x.data } := by
  unfold Packet.tag at *
  simp only [State.patchC, h]
  exact if_neg (by simpa [hz, Sector.kept] using hk)

end

theorem patchC_received (die stamp : Nat) (s : State) (p : Packet) : ListReceived die stamp [p] s (s.patchC die stamp p) := by
  cases h : Tab.look (s.dieAt die).l2 p.tag with
  | none => rw [patchC_absent h]; exact ⟨rfl, fun _ _ => rfl, .absent stamp h⟩
  | some x =>
    by_cases hc : x.kept stamp = true ∨ p.pz = true
    · rw [patchC_refused h hc, sweepLater_held h]
      refine .setDie (.mark (by simp) (fun y hy => ?_))
      rw [h] at hy
      simpa [← Option.some.inj hy] using hc
    · obtain ⟨hk, hz⟩ : x.kept stamp = false ∧ p.pz = false := by simpa using hc
      rw [patchC_patched h hk hz]
      exact .setDie (.patch h hk hz)

/-! The handoff. -/

/-- The sectors that a handoff names beyond its list are marked for the next acquire. -/
def State.sweepMore (s : State) (h : Handoff) (l : List Packet) : State :=
  match l with
  | [] => s
  | p :: _ => h.more.foldl (fun s x => s.sweepLater h.die (p.ctx * 2 ^ 52 + x)) s

theorem sweepMore_received (stamp : Nat) (s : State) (h : Handoff) (l : List Packet) : ListReceived h.die stamp [] s (s.sweepMore h l) := by
  cases l with
  | nil => exact .refl ..
  | cons p _ =>
    have hm := ListReceived.foldl (fun s x => sweepLater_received h.die stamp s (p.ctx * 2 ^ 52 + x)) h.more s
    rwa [List.flatMap_eq_nil_iff.2 (fun _ _ => rfl)] at hm

/-- A handoff's list received, before its notices are to be skipped and its monitors are told. -/
def State.receiveList (s : State) (h : Handoff) (l : List Packet) : State := (l.foldl (fun s p => s.patchC h.die h.stamp p) s).sweepMore h l

theorem receiveList_received (s : State) (h : Handoff) (l : List Packet) : ListReceived h.die h.stamp l s (s.receiveList h l) := by
  have hl := ListReceived.foldl (patchC_received h.die h.stamp) l s
  have ht := hl.trans (sweepMore_received h.stamp _ h l)
  rwa [List.flatMap_singleton', List.append_nil] at ht

/-- The next acquire of the die skips the notices of the list. -/
def Die.skipping (d : Die) (l : List Packet) : Die := { d with skips := d.skips ++ l.map (fun p => (p.ctx, p.die, p.seq)) }

theorem exec_lockHandoffReceive_list {s : State} {msg : Nat} {h : Handoff} {l : List Packet} (hh : Tab.look s.handoffs msg = some h) (hl : h.list = some l) :
    let t := State.receiveList { s with handoffs := Tab.del s.handoffs msg } h l
    exec (.lockHandoffReceive msg) s = .next { t with
      dies := Tab.put t.dies h.die ((t.dieAt h.die).skipping l)
      mons := t.mons.map (fun e => if h.mons.contains e.1 then (e.1, { e.2 with seen := e.2.seen ++ [h.value] }) else e) } := by
  rw [exec_lockHandoffReceive]
  unfold execLockHandoffReceive
  simp only [hh, hl, Option.getD_some]
  cases l <;> rfl

/-- Settles O36: a packet by whether its stack has retired; a handoff by what each packet of its list makes of a die, through the list. -/
theorem diffEvents : Obligations.DiffEvents := by
  unfold Obligations.DiffEvents
  refine ⟨?_, ?_, ?_⟩
  · intro pkt s p hp ha hf hz
    rw [exec_diffApply_first hp ha hf]
    exact ⟨fun h => by rw [applyPacket_retired pkt h], fun h => by rw [applyPacket_runs pkt h hz]⟩
  · exact fun _ _ _ => exec_diffAck_applied
  · intro msg s h l hh hl
    have hr := receiveList_received { s with handoffs := Tab.del s.handoffs msg } h l
    have he := exec_lockHandoffReceive_list hh hl
    generalize State.receiveList { s with handoffs := Tab.del s.handoffs msg } h l = t at hr he
    obtain ⟨hframe, hothers, hd⟩ := hr
    dsimp only at he
    refine ⟨Tab.put t.dies h.die ((t.dieAt h.die).skipping l), (t.dieAt h.die).skipping l, ?_, ?_, ?_, ?_, ?_⟩
    · rw [he, hframe]
    · intro j
      rw [Tab.get_put]
      split
      · rfl
      · next hj => exact hothers j hj
    · unfold Die.skipping
      rw [hd.frame]
      rfl
    · intro tag hn
      exact (hd.l2 tag).trans (congrArg _ hn)
    · intro tag x hx
      refine ⟨fun hk => ?_, fun ht hf => hd.look_patched hx (by simp [Sector.kept, ht, hf])⟩
      have hk : x.kept h.stamp = true := by simpa [Sector.kept] using hk
      exact ⟨hd.look_kept hx hk, hd.kept_left tag x hx hk⟩

end Sys2Proof.Machine

namespace Sys2Proof.Machine

/-! PROOFS. The host (R267-R275): the bias table under BFLIP and its drains, the requests that are held or served at the homes, the answers to snoops, and the lines of a shared pool window that are given up. -/

/-! The bias table. -/

theorem biasByte_setBias (s : State) (k state ctx j : Nat) :
    (s.setBias k state ctx).biasByte j = if biasKey j = biasKey k then BitVec.ofNat 8 (64 * state + ctx) else s.biasByte j := Tab.get_set ..

theorem biasByte_congr (s : State) {j k : Nat} (h : biasKey j = biasKey k) : s.biasByte j = s.biasByte k := congrArg (Tab.get 0 s.bias) h

theorem biasState_lt (s : State) (k : Nat) : s.biasState k < 4 := by
  unfold State.biasState
  omega

/-- The CTX of an entry changes, its state stays. -/
def State.setBiasCtx (s : State) (ctx k : Nat) : State := s.setBias k (s.biasState k) ctx

section
variable (s : State) {ctx : Nat} (hctx : ctx < 64) (k j : Nat)
include hctx

/-- An entry's byte holds both of its fields. -/
theorem toNat_biasByte_setBiasCtx : ((s.setBiasCtx ctx k).biasByte j).toNat = if biasKey j = biasKey k then 64 * s.biasState k + ctx else (s.biasByte j).toNat := by
  have hs := biasState_lt s k
  rw [State.setBiasCtx, biasByte_setBias, apply_ite BitVec.toNat, BitVec.toNat_ofNat, Nat.mod_eq_of_lt (by omega)]

theorem biasState_setBiasCtx : (s.setBiasCtx ctx k).biasState j = s.biasState j := by
  rw [State.biasState, toNat_biasByte_setBiasCtx s hctx]
  split
  · next h =>
    rw [State.biasState, State.biasState, biasByte_congr s h]
    omega
  · rfl

theorem biasCtx_setBiasCtx : (s.setBiasCtx ctx k).biasCtx j = if biasKey j = biasKey k then ctx else s.biasCtx j := by
  rw [State.biasCtx, toNat_biasByte_setBiasCtx s hctx]
  split
  · omega
  · rfl

end

/-- CTX is written to the entries of a list of cells. -/
def State.setBiasCtxs (s : State) (ctx : Nat) (keys : List Nat) : State := keys.foldl (fun s k => s.setBiasCtx ctx k) s

theorem setBiasCtxs_frame (ctx : Nat) (keys : List Nat) (s : State) : s.setBiasCtxs ctx keys = { s with bias := (s.setBiasCtxs ctx keys).bias } := by
  induction keys generalizing s with
  | nil => rfl
  | cons k ks ih => exact ih (s.setBiasCtx ctx k)

theorem biasState_setBiasCtxs {ctx : Nat} (hctx : ctx < 64) (keys : List Nat) (s : State) (j : Nat) : (s.setBiasCtxs ctx keys).biasState j = s.biasState j := by
  induction keys generalizing s with
  | nil => rfl
  | cons k ks ih => exact (ih (s.setBiasCtx ctx k)).trans (biasState_setBiasCtx s hctx k j)

/-- An entry that is named, or that has the CTX already, has it afterwards. -/
theorem biasCtx_setBiasCtxs {ctx : Nat} (hctx : ctx < 64) (keys : List Nat) (s : State) {j : Nat} (h : j ∈ keys ∨ s.biasCtx j = ctx) : (s.setBiasCtxs ctx keys).biasCtx j = ctx := by
  induction keys generalizing s with
  | nil => exact h.resolve_left List.not_mem_nil
  | cons k ks ih =>
    refine ih (s.setBiasCtx ctx k) (Classical.or_iff_not_imp_left.2 fun hj => ?_)
    rw [biasCtx_setBiasCtx s hctx]
    split
    · rfl
    · next hk =>
      refine h.resolve_left fun hm => ?_
      obtain rfl | hm := List.mem_cons.1 hm
      · exact hk rfl
      · exact hj hm

/-! Writes of BFLIP (R269). -/

section
variable {s : State} {x : W64}

theorem bflip_busy (h : s.flip.isSome = true) (f : State → List Nat → State) : s.bflip x f = { s with bfRej := true } := if_pos h

theorem bflip_bad (h : s.flip = none) (hb : flipBad x = true) (f : State → List Nat → State) : s.bflip x f = { s with bfErr := true } := by
  simp [State.bflip, h, hb]

/-- A command without an error condition writes CTX to every entry before it does anything else. -/
theorem bflip_good (h : s.flip = none) (hb : flipBad x = false) (f : State → List Nat → State) :
    s.bflip x f = f (s.setBiasCtxs (x.toNat / 2 ^ 56 % 64) ((flipPages x).map cellOf)) (((flipPages x).map cellOf).map (· / 4096)) := by
  simp [State.bflip, h, hb, State.setBiasCtxs, State.setBiasCtx]

variable (hr : s.mgmt.recov = false)
include hr

theorem exec_bflipSetCtx_eq : exec (.bflipSetCtx x) s = .next (s.bflip x (fun s _ => s)) := by
  simp [execBflipSetCtx, hr]

theorem exec_bflipToHost_eq : exec (.bflipToHost x) s = .next (s.bflip x (fun s ps => s.startFlip { toHost := true, pages := ps.filter (fun p => s.biasState (4096 * p) != 1) })) := by
  simp [execBflipToHost, hr]

theorem exec_bflipToDev_eq : exec (.bflipToDev x) s = .next (s.bflip x (fun s ps => s.startFlip { toHost := false, pages := ps.filter (fun p => s.biasState (4096 * p) != 0) })) := by
  simp [execBflipToDev, hr]

theorem exec_bflipReserved_busy (h : s.flip.isSome = true) : exec (.bflipReserved x) s = .next { s with bfRej := true } := by
  simp [execBflipReserved, hr, h]

theorem exec_bflipReserved_free (h : s.flip = none) : exec (.bflipReserved x) s = .next { s with bfErr := true } := by
  simp [execBflipReserved, hr, h]

end

/-! Held requests (R270, R274). -/

theorem retryHeld_none {s : State} (h : s.held = []) (f : HostReq → Bool) : s.retryHeld f = s := by
  unfold State.retryHeld
  rw [h]
  exact congrArg (fun l => { s with held := l }) h.symm

/-- A read is held while its page flips to host, or while its line is called back and not yet written back. -/
theorem mustHold_rd (s : State) (line : Nat) (cache : Bool) (ask : Nat) :
    s.mustHold (.rd line cache ask) = true ↔ s.biasState (64 * line) = 2 ∨ ∃ x ∈ s.snoops, x.line = line ∧ x.inv = true ∧ x.applied = false := by
  simp [State.mustHold, State.invOut, HostReq.line, HostReq.isWrite, and_assoc]

/-- A write is held while its page flips to host. -/
theorem mustHold_wr (s : State) (key : Nat) (data : List Byte) : s.mustHold (.wr key data) = true ↔ s.biasState (64 * (key / 64)) = 2 := by
  simp [State.mustHold, HostReq.line, HostReq.isWrite]

section
variable {s : State} {cache : Bool} {ask key : Nat} {data : List Byte}

/-- A read asks for the line that stands behind the one it names (R180). -/
theorem arrive_rd_held (h : s.mustHold (.rd (s.hostLine ask) cache ask) = true) :
    s.arrive (.rd (s.hostLine ask) cache ask) = { s with held := s.held ++ [.rd (s.hostLine ask) cache ask] } :=
  if_pos (Bool.or_eq_true_iff.2 (.inl h))

theorem arrive_rd_served (h : s.mustHold (.rd (s.hostLine ask) cache ask) = false) (hh : s.held = []) :
    s.arrive (.rd (s.hostLine ask) cache ask) = s.serve (.rd (s.hostLine ask) cache ask) :=
  if_neg (by rw [h, hh]; exact Bool.false_ne_true)

theorem request_wr_held (h : s.mustHold (.wr key data) = true) : s.request (.wr key data) = { s with held := s.held ++ [.wr key data] } :=
  if_pos (Bool.or_eq_true_iff.2 (.inl h))

theorem request_wr_served (h : s.mustHold (.wr key data) = false) (hh : s.held = []) : s.request (.wr key data) = s.serve (.wr key data) :=
  if_neg (by rw [h, hh]; exact Bool.false_ne_true)

theorem arrive_wr_held (h : s.mustHold (.wr key data) = true) (hs : ∀ x ∈ s.snoops, x.line ≠ key / 64) :
    s.arrive (.wr key data) = { s with held := s.held ++ [.wr key data] } := by
  have hn : s.snoops.any (fun x => x.line == key / 64) = false := by simpa using hs
  unfold State.arrive
  rw [request_wr_held h]
  exact if_neg (Bool.eq_false_iff.1 hn)

theorem serve_rd_dev {line : Nat} (h : s.biasState (64 * line) = 0) :
    s.serve (.rd line cache ask) = { s with hostResp := s.hostResp ++ [(ask, if line ∈ s.memPoison then none else some (readBytes s.mem (64 * line) 64))] } := by
  have hb : ∀ l, State.biasState { s with hostResp := l } (64 * line) = 0 := fun _ => h
  simp [State.serve, hb]

/-- The home once it has a host's write; where its line is snooped, the write is the line's writeback (R272). -/
def State.hostWritten (s : State) (key : Nat) (data : List Byte) : State :=
  { s.writeHome key data with snoops := s.snoops.map (fun x => if x.line = key / 64 then { x with applied := true } else x) }

theorem serve_wr_dev (h : s.biasState key = 0) : s.serve (.wr key data) = (s.hostWritten key data).notice key (s.biasCtx key) 2 0 0 :=
  if_pos (beq_iff_eq.2 h)

theorem serve_wr_nonzero (h : s.biasState key ≠ 0) : s.serve (.wr key data) = s.hostWritten key data :=
  if_neg (fun e => h (beq_iff_eq.1 e))

theorem held_serve_wr : (s.serve (.wr key data)).held = s.held := by
  by_cases h : s.biasState key = 0
  · rw [serve_wr_dev h, notice_eq]
    rfl
  · rw [serve_wr_nonzero h]
    rfl

theorem arrive_wr_served (h : s.biasState (64 * (key / 64)) ≠ 2) (hh : s.held = []) : s.arrive (.wr key data) = s.serve (.wr key data) := by
  have hm : s.mustHold (.wr key data) = false := by rwa [← Bool.not_eq_true, mustHold_wr]
  unfold State.arrive
  dsimp only
  rw [request_wr_served hm hh, retryHeld_none (held_serve_wr.trans hh), ite_self]

end

/-! What the host sees (R267). -/

section
variable {s : State} {pa : Nat}

theorem exec_memrd_refused (h : s.hostSees pa = false) (cache : Bool) :
    exec (.memrd pa cache) s = .next { s with hostResp := s.hostResp ++ [(cellOf pa / 64, none)] } := by
  simp [execMemrd, h, State.refuseHost]

theorem exec_memrd_arrives (h : s.hostSees pa = true) (cache : Bool) :
    exec (.memrd pa cache) s = .next (s.arrive (.rd (s.hostLine (cellOf pa / 64)) cache (cellOf pa / 64))) := by
  simp [execMemrd, h]

theorem exec_memwr_crossing {data : List Byte} (h : 64 < pa % 64 + data.length) : exec (.memwr pa data) s = .next s := by
  simp [execMemwr, h]

theorem exec_memwr_refused {data : List Byte} (hl : pa % 64 + data.length ≤ 64) (h : s.hostSees pa = false) :
    exec (.memwr pa data) s = .next { s with hostResp := s.hostResp ++ [(cellOf pa / 64, none)] } := by
  simp [execMemwr, Nat.not_lt.2 hl, h, State.refuseHost]

theorem exec_memwr_arrives {data : List Byte} (hl : pa % 64 + data.length ≤ 64) (h : s.hostSees pa = true) :
    exec (.memwr pa data) s = .next (s.arrive (.wr (64 * s.hostLine (cellOf pa / 64) + cellOf pa % 64) data)) := by
  simp [execMemwr, Nat.not_lt.2 hl, h]

end

/-! Drains and the snoop that times out (R271). -/

section
variable {s : State} {f : Flip} {page : Nat} (hf : s.flip = some f)
include hf

theorem exec_d2hDrainComplete_drained (hp : f.pages.head? = some page) (hh : f.toHost = true) (hb : (s.flushPage page).pageBusy page = false) :
    exec (.d2hDrainComplete page) s = .next ((s.flushPage page).flipped f page 1) := by
  simp [execD2hDrainComplete, hf, hp, hh, hb]

theorem exec_h2dDrainComplete_answered (hp : f.pages.head? = some page) (hh : f.toHost = false) (hs : ∀ x ∈ s.snoops, x.line / 64 ≠ page)
    (hb : s.pageBusy page = false) : exec (.h2dDrainComplete page) s = .next (s.flipped f page 0) := by
  have hn : s.snoops.any (fun x => x.line / 64 == page) = false := by simpa using hs
  simp [execH2dDrainComplete, hf, hp, hh, hn, hb]

theorem exec_biasSnoopTimeout_ends (hp : f.pages.head? = some page) (hh : f.toHost = false) {line : Nat} (hs : ∃ x ∈ s.snoops, x.line = line ∧ x.flip = true) :
    exec (.biasSnoopTimeout line) s = .next (State.retryHeld { s.setBiasState page 1 with
      flip := none, bfErr := true, snoops := s.snoops.map (fun (x : Snoop) => { x with flip := false }) } (fun _ => true)) := by
  obtain ⟨rest, hr⟩ := List.head?_eq_some_iff.1 hp
  have hany : s.snoops.any (fun x => x.line == line && x.flip) = true := by simpa using hs
  rw [exec_biasSnoopTimeout]
  unfold execBiasSnoopTimeout
  simp only [hf, hh, hany, hr]
  rfl

end

/-- Settles O47: every command but the reserved one goes through `State.bflip`, whose CTX writes keep each entry's state. -/
theorem biasEvents : Obligations.BiasEvents := by
  unfold Obligations.BiasEvents
  refine ⟨?busy, ?bad, ?good, ?drain, ?timeout⟩
  case busy =>
    intro x s h hr
    rw [exec_bflipSetCtx_eq hr, exec_bflipToHost_eq hr, exec_bflipToDev_eq hr]
    simp only [bflip_busy h, exec_bflipReserved_busy hr h, and_self]
  case bad =>
    intro x s h hr
    rw [exec_bflipSetCtx_eq hr, exec_bflipToHost_eq hr, exec_bflipToDev_eq hr]
    refine ⟨exec_bflipReserved_free hr h, fun hb => ?_⟩
    simp only [bflip_bad h hb, and_self]
  case good =>
    intro x s h hr hb
    have hc : x.toNat / 2 ^ 56 % 64 < 64 := Nat.mod_lt _ (by decide)
    rw [exec_bflipSetCtx_eq hr, exec_bflipToHost_eq hr, exec_bflipToDev_eq hr]
    simp only [bflip_good h hb, List.map_map]
    exact ⟨_, rfl, setBiasCtxs_frame .., fun key hk => ⟨biasCtx_setBiasCtxs hc _ s (.inl hk), biasState_setBiasCtxs hc _ s key⟩, rfl, rfl⟩
  case drain =>
    intro page s f hf hp
    exact ⟨fun hh hb => exec_d2hDrainComplete_drained hf hp hh hb, fun hh hs hb => exec_h2dDrainComplete_answered hf hp hh hs hb⟩
  case timeout =>
    intro line page rest s hf hs hh
    exact (exec_biasSnoopTimeout_ends hf rfl rfl hs).trans (congrArg Host.Outcome.next (retryHeld_none (by exact hh) _))

/-! Answers to snoops, and the snoop that a monitor needs (R271, R272). -/

section
variable {s : State} {line : Nat}

theorem exec_birsp_refused {x : Snoop} (hx : s.snoops.find? (fun x => x.line == line) = some x) (hi : x.inv = true) (d : Option (List Byte)) :
    exec (.birsp line true d) s = .next s := by
  simp [execBirsp, hx, hi]

/-- The home once an answer's writeback is applied. -/
def State.wroteBack (s : State) (line : Nat) (d : Option (List Byte)) : State :=
  match d with
  | some d => s.writeHome (64 * line) (d.take 64)
  | none => s

/-- An answer that its snoop allows ends the snoop; with no request held, nothing else follows. -/
theorem exec_birsp_answered {x : Snoop} (hx : s.snoops.find? (fun x => x.line == line) = some x) (hh : s.held = []) {shared : Bool} (hi : (x.inv && shared) = false)
    (d : Option (List Byte)) : exec (.birsp line shared d) s = .next { s.wroteBack line d with
      snoops := s.snoops.erase x
      hostDir := if shared then Tab.mod s.hostDir line (fun _ => { excl := false }) else Tab.del s.hostDir line } := by
  rw [exec_birsp]
  unfold execBirsp
  simp only [hx, hi]
  cases d <;> exact congrArg Host.Outcome.next (retryHeld_none (by exact hh) _)

theorem exec_bisnpdataMonitor_watched (hd : Tab.look s.hostDir line = some { excl := true })
    (hw : ∃ m ∈ s.mons, m.2.armed = true ∧ m.2.scr = false ∧ s.monLevel m.2 = 3 ∧ m.2.key / 64 = line) (hb : s.biasState (64 * line) = 1) (hn : s.snooped line = false) :
    exec (.bisnpdataMonitor line) s = .next { s with snoops := s.snoops ++ [{ line := line, inv := false, flip := false }] } := by
  have hany : s.mons.any (fun m => m.2.armed && !m.2.scr && s.monLevel m.2 == 3 && m.2.key / 64 == line) = true := by
    simpa [and_assoc] using hw
  simp [execBisnpdataMonitor, hd, hany, hb, hn]

end

/-! Lines of a shared pool window (R275). -/

theorem poolWriteBack_homeOnly (s : State) (line : Nat) : HomeOnly s (s.poolWriteBack line) := by
  unfold State.poolWriteBack State.poolOut
  split
  · dsimp only
    split <;> rfl
  · exact .refl s

theorem poolWriteBack_clean_mem {s : State} {line : Nat} (h : s.poolDirty line = false) : (s.poolWriteBack line).mem = s.mem := by
  rw [State.poolWriteBack, if_neg (by simp [h])]

theorem poolWriteBack_dirty_mem {s : State} {line : Nat} (h : s.poolDirty line = true) :
    (s.poolWriteBack line).mem = (s.writeHome (64 * line) (s.poolData line)).mem := by
  unfold State.poolWriteBack State.poolOut
  rw [if_pos h]
  dsimp only
  split <;> rfl

/-- A die's copy of the line that is left is one that the change gave. -/
theorem pool_mapPool {s : State} {line : Nat} {f : Nat → PoolLine → Option PoolLine} {e : Nat × Die} (he : e ∈ (s.mapPool line f).dies) {x : Nat × PoolLine}
    (hx : x ∈ e.2.pool) (hl : x.1 = line) : ∃ k y, f k y = some x.2 := by
  obtain ⟨d, _, rfl⟩ := List.mem_map.1 he
  obtain ⟨z, _, hz⟩ := List.mem_filterMap.1 hx
  split at hz
  · obtain ⟨y, hy, rfl⟩ := Option.map_eq_some_iff.1 hz
    exact ⟨d.1, z.2, hy⟩
  · next hne =>
    cases hz
    exact absurd hl hne

theorem exec_poolBisnpinv_pool {s : State} {line : Nat} (h : s.isPoolLine line = true) :
    exec (.poolBisnpinv line) s = .next { (s.poolWriteBack line).mapPool line (fun _ _ => none) with dca := Tab.del (s.poolWriteBack line).dca line } := by
  simp [execPoolBisnpinv, h, State.mapPool]

theorem exec_poolBisnpdata_pool {s : State} {line : Nat} {l : DcaLine} (h : s.isPoolLine line = true) (hl : Tab.look s.dca line = some l) :
    exec (.poolBisnpdata line) s = .next { (s.poolWriteBack line).mapPool line (fun _ x => some { x with st := .s }) with
      dca := Tab.mod (s.poolWriteBack line).dca line (fun l => { l with st := .s, data := none, poison := false }) } := by
  simp [execPoolBisnpdata, h, hl, State.mapPool]

/-- Settles O48: a request is held or served by the tests of `State.mustHold`, with nothing held before it; an answer, and a snoop of the pool, write dirty data back first. -/
theorem hostEvents : Obligations.HostEvents := by
  unfold Obligations.HostEvents
  refine ⟨?read, ?write, ?answer, ?monitor, ?giveUp, ?share⟩
  case read =>
    intro pa cache s
    refine ⟨fun h => exec_memrd_refused h cache, fun h => ⟨fun hm => ?_, fun hb hs hh => ?_⟩⟩
    · rw [exec_memrd_arrives h, arrive_rd_held ((mustHold_rd ..).2 hm)]
    · have hm : s.mustHold (.rd (s.hostLine (cellOf pa / 64)) cache (cellOf pa / 64)) = false := by
        rw [← Bool.not_eq_true, mustHold_rd, hb, hs]
        simp
      rw [exec_memrd_arrives h, arrive_rd_served hm hh, serve_rd_dev hb]
  case write =>
    intro pa data s
    have hk : (64 * s.hostLine (cellOf pa / 64) + cellOf pa % 64) / 64 = s.hostLine (cellOf pa / 64) := by omega
    refine ⟨exec_memwr_crossing, exec_memwr_refused, fun h hl => ?_⟩
    rw [exec_memwr_arrives hl h]
    refine ⟨fun hb hs => ?flips, fun hb hd hh => ?dev, fun hb hd hh => ?host⟩
    case flips => rw [arrive_wr_held ((mustHold_wr ..).2 (by rw [hk, hb])) (by rwa [hk])]
    case dev => rw [arrive_wr_served (by rw [hk, hb]; decide) hh, serve_wr_dev hd, State.hostWritten, hk]
    case host => rw [arrive_wr_served (by rw [hk, hb]; decide) hh, serve_wr_nonzero (by rw [hd]; decide), State.hostWritten, hk]
  case answer =>
    intro line s x hx hh
    exact ⟨fun hi d => exec_birsp_refused hx hi d, exec_birsp_answered hx hh (Bool.and_false _) none, fun d => exec_birsp_answered hx hh (Bool.and_false _) (some d),
      fun hi => exec_birsp_answered hx hh (by rw [hi]; rfl) none⟩
  case monitor =>
    intro line s m hd hm ha hs hl hk hb hn
    exact exec_bisnpdataMonitor_watched hd ⟨m, hm, ha, hs, hl, hk⟩ hb hn
  case giveUp =>
    intro line s h
    refine ⟨_, exec_poolBisnpinv_pool h, ?_, ?_, ?_, poolWriteBack_dirty_mem, ?_⟩
    · exact (Tab.look_del ..).trans (if_pos rfl)
    · intro e he x hx hl
      obtain ⟨_, _, hn⟩ := pool_mapPool (s := s.poolWriteBack line) (f := fun _ _ => none) he hx hl
      cases hn
    · exact poolWriteBack_clean_mem
    · have hw := poolWriteBack_homeOnly s line
      generalize s.poolWriteBack line = t at hw ⊢
      rw [hw]
      rfl
  case share =>
    intro line l s h hl
    refine ⟨_, exec_poolBisnpdata_pool h hl, ?_, ?_, ?_, poolWriteBack_dirty_mem⟩
    · have hd : (s.poolWriteBack line).dca = s.dca := by rw [poolWriteBack_homeOnly s line]
      simp [hd, hl]
    · intro e he x hx hxl
      obtain ⟨_, y, hy⟩ := pool_mapPool (s := s.poolWriteBack line) (f := fun _ y => some { y with st := .s }) he hx hxl
      exact (congrArg PoolLine.st (Option.some.inj hy)).symm
    · exact poolWriteBack_clean_mem

end Sys2Proof.Machine

namespace Sys2Proof.Machine

open Sys2Proof.Claims

/-! PROOFS. Obper groups (R279-R290, R358): the checks of a GO in their order, the phases of a switch one by one, links that go down, and peers in device bias. -/

/-! The checks of a GO (R284). -/

section
variable {s : State} {g : Nat} {o : Og} {x : W64}

theorem goRefusal_busy (hb : o.busy = true) : s.goRefusal g o x = some 1 := if_pos hb

variable (hb : o.busy = false)
include hb

/-- A reserved bit is set, or the code names no personality. -/
theorem goRefusal_reserved (h : bitsSet x 63 8 = true ∨ bitsSet x 6 4 = true ∨ 6 ≤ x.toNat % 16) : s.goRefusal g o x = some 2 := by
  have hc : (bitsSet x 63 8 || bitsSet x 6 4 || decide (6 ≤ x.toNat % 16)) = true := by simpa [or_assoc] using h
  simp [State.goRefusal, hb, hc]

variable (h8 : bitsSet x 63 8 = false) (h4 : bitsSet x 6 4 = false) (hp : x.toNat % 16 < 6)
include h8 h4 hp

theorem goRefusal_pinned (hpin : o.pin = true) : s.goRefusal g o x = some 3 := by
  simp [State.goRefusal, hb, h8, h4, hp, hpin]

variable (hpin : o.pin = false)
include hpin

omit hp in
theorem goRefusal_host (h1 : x.toNat % 16 = 1) : s.goRefusal g o x = some 4 := by
  simp [State.goRefusal, hb, h8, h4, hpin, h1]

variable (h1 : x.toNat % 16 ≠ 1)
include h1

theorem goRefusal_disallowed (ha : o.allowed.getLsbD (x.toNat % 16) = false) : s.goRefusal g o x = some 5 := by
  simp [State.goRefusal, hb, h8, h4, hp, hpin, h1, ha]

variable (ha : o.allowed.getLsbD (x.toNat % 16) = true)
include ha

theorem goRefusal_tier (ht : s.tierBehind g = true) : s.goRefusal g o x = some 6 := by
  simp [State.goRefusal, hb, h8, h4, hp, hpin, h1, ha, ht]

/-- Past the first six checks only the personality that is already active is refused. -/
theorem goRefusal_last (ht : s.tierBehind g = false) : s.goRefusal g o x = if o.st = .active ∧ o.pers.toNat = x.toNat % 16 then some 7 else none := by
  simp [State.goRefusal, hb, h8, h4, hp, hpin, h1, ha, ht]

end

/-! A GO (R283, R285). -/

section
variable {s : State} {g : Nat} {x : W64} (hx : x.getLsbD 7 = true) (hg : g < 12) (hr : s.mgmt.recov = false)
include hx hg hr

theorem exec_ogctlGo_refused {r : Nat} (h : s.goRefusal g (s.ogAt g) x = some r) :
    exec (.ogctlGo g x) s = .next (s.setOg g { s.ogAt g with ref := true, reason := BitVec.ofNat 4 r }) := by
  rw [exec_ogctlGo]
  simp only [execOgctlGo, hx, Nat.not_le.2 hg, hr, h]
  rfl

theorem exec_ogctlGo_quiesces (h : s.goRefusal g (s.ogAt g) x = none) (hs : (s.ogAt g).st = .active) :
    exec (.ogctlGo g x) s = .next (s.setOg g { s.ogAt g with st := .quiescing, tgt := BitVec.ofNat 4 x.toNat, busy := true, acks := [] }) := by
  rw [exec_ogctlGo]
  simp only [execOgctlGo, hx, Nat.not_le.2 hg, hr, h, hs]
  rfl

theorem exec_ogctlGo_dark (h : s.goRefusal g (s.ogAt g) x = none) (hs : (s.ogAt g).st = .dark ∨ (s.ogAt g).st = .failed) (hp : x.toNat % 16 ≠ 0) :
    exec (.ogctlGo g x) s = .next (s.setOg g { s.ogAt g with st := .dark, tgt := BitVec.ofNat 4 x.toNat, busy := true }) := by
  have ht : (BitVec.ofNat 4 x.toNat != 0) = true := bne_iff_ne.2 fun e => hp (by simpa using congrArg BitVec.toNat e)
  rw [exec_ogctlGo]
  simp only [execOgctlGo, hx, Nat.not_le.2 hg, hr, h, hs, ht]
  rfl

end

/-! Quiescing and draining (R285, R287, R288). -/

theorem liveCores_all_contains (s : State) (acks : List Nat) :
    s.liveCores.all (fun c => acks.contains c) = true ↔ ∀ k < 192, (s.dieAt (k / 24)).fenced = false → k ∈ acks := by
  simp only [State.liveCores, List.all_eq_true, List.mem_filter, List.mem_range, List.contains_iff_mem, Bool.not_eq_true', and_imp]

theorem failReductions_none {s : State} {g : Nat} (h : ∀ e ∈ s.reductions, e.2.group ≠ some g) : s.failReductions g = s := by
  have hn : s.reductions.filter (fun e => e.2.group == some g && e.2.res == 0) = [] :=
    List.filter_eq_nil_iff.2 fun e he => by simp [h e he]
  rw [State.failReductions, hn]
  rfl

section
variable {s : State} {g : Nat}

theorem exec_drainingMarkAck_waits {core : Nat} (hs : (s.ogAt g).st = .quiescing) (hc : core < 192)
    (h : ∃ k < 192, (s.dieAt (k / 24)).fenced = false ∧ k ∉ insertNat core (s.ogAt g).acks) :
    exec (.drainingMarkAck g core) s = .next (s.setOg g { s.ogAt g with acks := insertNat core (s.ogAt g).acks }) := by
  obtain ⟨k, hk, hf, hn⟩ := h
  have hl := mt (liveCores_all_contains s (insertNat core (s.ogAt g).acks)).1 fun hall => hn (hall k hk hf)
  rw [exec_drainingMarkAck]
  simp only [execDrainingMarkAck, hs, Nat.not_le.2 hc, hl, ne_eq, not_true_eq_false, or_self, if_false]
  rfl

theorem exec_drainingMarkAck_drains {core : Nat} (hs : (s.ogAt g).st = .quiescing) (hc : core < 192)
    (h : ∀ k < 192, (s.dieAt (k / 24)).fenced = false → k ∈ insertNat core (s.ogAt g).acks) (hr : ∀ e ∈ s.reductions, e.2.group ≠ some g) :
    exec (.drainingMarkAck g core) s = .next (s.setOg g { s.ogAt g with st := .draining, acks := insertNat core (s.ogAt g).acks }) := by
  have hl := (liveCores_all_contains s (insertNat core (s.ogAt g).acks)).2 h
  rw [exec_drainingMarkAck]
  simp only [execDrainingMarkAck, hs, Nat.not_le.2 hc, hl, ne_eq, not_true_eq_false, or_self, if_false, if_true]
  rw [failReductions_none (by exact hr)]

theorem exec_ogDrainDone_darkens (hs : (s.ogAt g).st = .draining) (h : s.inFlight g = false) : exec (.ogDrainDone g) s = .next (s.enterDark g) := by
  simp [execOgDrainDone, hs, h]

theorem exec_ogDrainTimeout_darkens (hs : (s.ogAt g).st = .draining) :
    exec (.ogDrainTimeout g) s = .next (((s.resend g).cancelTo (s.ogAt g).carries).enterDark g) := by
  simp [execOgDrainTimeout, hs]

/-- Only a group that carries Ethernet sends anything again. -/
theorem resend_other (h : (s.ogAt g).pers ≠ 5) : s.resend g = s := if_pos h

theorem dropPoolLines_noPoolLines (hd : s.dies = []) (hc : s.dca = []) (f : Nat → Bool) (lost : Bool) : s.dropPoolLines f lost = s := by
  simp only [State.dropPoolLines, hd, hc, List.flatMap_nil, List.map_nil, List.filter_nil, List.append_nil, sortNats, List.foldr_nil, List.foldl_nil, ite_self]
  exact (congrArg (fun d => { s with dies := d, dca := [] }) hd.symm).trans (congrArg (fun c => { s with dca := c }) hc.symm)

theorem enterDark_noPoolLines (hd : s.dies = []) (hc : s.dca = []) : ∃ warps, s.enterDark g = { s.setOg g { s.ogAt g with
      st := .dark, pers := 0, lanes := 0, windows := [], acks := [], downLinks := [], filter := Filter.none, busy := (s.ogAt g).tgt != 0 } with
    warps := warps, mapGen := s.mapGen + 1, firefly := { s.firefly with narrow := s.firefly.narrow &&& ~~~(1#12 <<< g) } } := by
  unfold State.enterDark
  simp only [dropPoolLines_noPoolLines hd hc]
  exact ⟨_, rfl⟩

/-! Training and mapping (R280, R285, R286, R290, R364). -/

theorem exec_ogDarkTimer_trains (hs : (s.ogAt g).st = .dark) (ht : (s.ogAt g).tgt ≠ 0) (hb : (s.ogAt g).busy = true) (hr : s.mgmt.recov = false) :
    exec (.ogDarkTimer g) s = .next (s.setOg g { s.ogAt g with
      st := .training, failedLinks := [], filter := Tab.get Filter.none (s.ogAt g).filters (s.ogAt g).tgt.toNat }) := by
  rw [exec_ogDarkTimer]
  refine if_neg ?_
  simpa [hs, hb, hr] using ht

theorem exec_ogTrainTimeout_fails (hs : (s.ogAt g).st = .training) : exec (.ogTrainTimeout g) s = .next { s.setOg g { s.ogAt g with
      st := .failed, reason := 8, busy := false, tgt := 0, lanes := 0, filter := Filter.none } with
    firefly := { s.firefly with narrow := s.firefly.narrow &&& ~~~(1#12 <<< g) } } := by
  rw [exec_ogTrainTimeout]
  exact if_neg (not_not_intro hs)

theorem exec_ogMappingDone_maps (hs : (s.ogAt g).st = .mapping) : exec (.ogMappingDone g) s = .next { s.setOg g { s.ogAt g with
      st := .active, windows := (s.ogAt g).plan.filter (fun w => decide (w.pers = (s.ogAt g).pers.toNat) && !(s.ogAt g).downLinks.contains w.link)
      busy := false, joined := (s.mapGen + 1).toNat } with mapGen := s.mapGen + 1 } := by
  rw [exec_ogMappingDone]
  exact if_neg (not_not_intro hs)

/-- The links of a list that are down, by number. -/
def linksDown (up : List (BitVec 16)) : List Nat := (List.range up.length).filter (fun i => up.getD i 0 == 0)

/-- The group after its links have trained: what is up is in use, and Firefly shows the groups that run narrowed. -/
def State.trained (s : State) (g : Nat) (pers : BitVec 4) (used : BitVec 16) (down : List Nat) (narrow : BitVec 12) : State :=
  { s.setOg g { s.ogAt g with st := .mapping, pers := pers, lanes := used, downLinks := down } with
    firefly := { s.firefly with narrow := narrow, repl := s.firefly.repl || narrow != 0 } }

section
variable {pers : BitVec 4} {lanes used : BitVec 16} {up : List (BitVec 16)} (ht : (s.ogAt g).tgt = pers) (hu : linksUp pers.toNat lanes = up)
include ht hu

theorem exec_ogTrainUp_nothing (hz : up.all (· == 0) = true) : exec (.ogTrainUp g lanes) s = .next s := by
  subst ht hu
  exact if_pos (.inr hz)

theorem exec_ogTrainUp_up (hs : (s.ogAt g).st = .training) (hn : up.all (· == 0) = false) (hw : up.foldl (· ||| ·) 0 = used) :
    exec (.ogTrainUp g lanes) s = .next (s.trained g pers used (linksDown up)
      (if used = BitVec.allOnes 16 then s.firefly.narrow &&& ~~~(1#12 <<< g) else s.firefly.narrow ||| 1#12 <<< g)) := by
  subst ht hu hw
  exact if_neg (not_or.2 ⟨not_not_intro hs, Bool.eq_false_iff.1 hn⟩)

end

/-! Pool links (R286, R358). -/

section
variable {link : Nat} (hs : (s.ogAt g).st = .active) (hp : (s.ogAt g).isPool = true) (hf : link ∉ (s.ogAt g).failedLinks)
include hs hp hf

theorem exec_linkRetrain_up : exec (.linkRetrain g link) s = .next (s.setOg g { s.ogAt g with downLinks := (s.ogAt g).downLinks.filter (· != link) }) := by
  simp [execLinkRetrain, hs, hp, hf]

variable (hl : link < if (s.ogAt g).pers = 3 then 2 else 1)
include hl

/-- A link that goes down while it is down becomes FAILED. -/
theorem exec_linkDown_live : exec (.linkDown g link) s = .next
    (if link ∈ (s.ogAt g).downLinks then s.failLink g link else s.setOg g { s.ogAt g with downLinks := insertNat link (s.ogAt g).downLinks }) := by
  have hc : ¬ ((s.ogAt g).st ≠ .active ∨ (!(s.ogAt g).isPool) = true ∨ (if (s.ogAt g).pers = 3 then 2 else 1) ≤ link ∨ (s.ogAt g).failedLinks.contains link = true) := by
    simpa [hs, hp, hf] using hl
  refine (if_neg hc).trans ?_
  simp only [List.contains_iff_mem]
  exact (apply_ite Host.Outcome.next ..).symm

end

end

/-! Peers (R250, R279). -/

theorem natToBytes_eq_leBytes (z x : Nat) : natToBytes z x = leBytes z x := by
  induction z generalizing x with
  | zero => rfl
  | succ z ih =>
    rw [natToBytes, ih, leBytes, leBytes, List.range_succ_eq_map, List.map_cons, List.map_map]
    simp [Nat.pow_succ', Nat.div_div_eq_div_mul]

@[simp] theorem biasState_writeHome (s : State) (key : Nat) (bs : List Byte) (k : Nat) : (s.writeHome key bs).biasState k = s.biasState k := rfl
@[simp] theorem biasCtx_writeHome (s : State) (key : Nat) (bs : List Byte) (k : Nat) : (s.writeHome key bs).biasCtx k = s.biasCtx k := rfl

section
variable {s : State} {key : Nat} (h : s.biasState key = 0)
include h

theorem peerAccess_dev (write : Bool) (f : State → State) : s.peerAccess key write f = f s := by
  simp [State.peerAccess, h]

theorem peerWrite_dev (bs : List Byte) : s.peerWrite key bs = (s.writeHome key bs).notice key (s.biasCtx key) 2 0 0 := by
  simp [State.peerWrite, h]

end

section
variable {s : State} {g port who pa : Nat}

theorem exec_peerTransaction_filtered (h : who ∉ (s.ogAt g).filter.accels) (op : PeerOp) : exec (.peerTransaction g port pa ⟨who, op⟩) s = .next s := by
  simp [execPeerTransaction, h]

/-- A peer's access that its group answers and its home serves: the port is up, the filter admits the ID, and the cell is HBM in device bias. -/
structure PeerServed (s : State) (g port who pa : Nat) : Prop where
  active : (s.ogAt g).st = .active
  ualink : (s.ogAt g).pers = 4
  isPort : port < 4
  up : laneField (s.ogAt g).lanes (4 * port) 4 ≠ 0
  admitted : who ∈ (s.ogAt g).filter.accels
  hbm : isHbm (cellOf pa) = true
  carveOut : isCarveOut (cellOf pa) = false
  retired : s.isRetired (cellOf pa) = false
  bias : s.biasState (cellOf pa) = 0

variable (h : PeerServed s g port who pa)
include h

theorem PeerServed.linkLanes : (s.ogAt g).linkLanes port ≠ 0 := by
  simpa [Og.linkLanes, h.ualink] using h.up

/-- No test of the transaction refuses an access that stays in its line. -/
theorem PeerServed.not_refused {op : PeerOp} (hn : pa % 64 + peerSize op ≤ 64) :
    (!((s.ogAt g).st == .active && (s.ogAt g).pers == 4 && decide (port < 4) && (s.ogAt g).linkLanes port != 0 && (s.ogAt g).filter.accels.contains who) ||
      !isHbm (cellOf pa) || isCarveOut (cellOf pa) || s.isRetired (cellOf pa) || decide (64 < pa % 64 + peerSize op)) = false := by
  have hl : ¬ (s.ogAt g).linkLanes port = 0#16 := h.linkLanes
  simp [h.active, h.ualink, h.isPort, hl, h.admitted, h.hbm, h.carveOut, h.retired, hn]

theorem PeerServed.exec_read {n : Nat} (hn : pa % 64 + n ≤ 64) :
    exec (.peerTransaction g port pa ⟨who, .read n⟩) s = .next { s with peerResp := s.peerResp ++ [(pa, readBytes s.mem (cellOf pa) n)] } := by
  rw [exec_peerTransaction]
  simp only [execPeerTransaction, h.not_refused (op := .read n) hn, peerAccess_dev h.bias]
  rfl

theorem PeerServed.exec_write {d : List Byte} (hn : pa % 64 + d.length ≤ 64) :
    exec (.peerTransaction g port pa ⟨who, .write d⟩) s = .next ((s.writeHome (cellOf pa) d).notice (cellOf pa) (s.biasCtx (cellOf pa)) 2 0 0) := by
  rw [exec_peerTransaction]
  simp only [execPeerTransaction, h.not_refused (op := .write d) hn, peerAccess_dev h.bias, peerWrite_dev h.bias]
  rfl

/-- An atomic at a multiple of its size stays in its line. -/
theorem PeerServed.exec_atomic {wide : Bool} {z : Nat} {f : AtomOp} {x swp : W64} (hz : peerSize (.atomic f wide x swp) = z) (ha : pa % z = 0) :
    exec (.peerTransaction g port pa ⟨who, .atomic f wide x swp⟩) s = .next
      { (s.writeHome (cellOf pa) (leBytes z (atomNew f z (bytesToNat (readBytes s.mem (cellOf pa) z)) x.toNat swp.toNat))).notice
          (cellOf pa) (s.biasCtx (cellOf pa)) 2 0 0 with
        peerResp := s.peerResp ++ [(pa, readBytes s.mem (cellOf pa) z)] } := by
  have hn : pa % 64 + peerSize (.atomic f wide x swp) ≤ 64 := by
    rw [hz]
    obtain rfl | rfl : z = 4 ∨ z = 8 := by cases wide <;> simp [← hz, peerSize]
    · omega
    · omega
  subst hz
  rw [exec_peerTransaction]
  simp only [execPeerTransaction, h.not_refused hn, ha, peerAccess_dev h.bias, peerWrite_dev h.bias, natToBytes_eq_leBytes]
  rfl

end

/-- Settles O46: a GO runs `State.goRefusal`, which answers with the first check that fails; each phase of a switch is one event; a peer's access is served where no test of the transaction refuses it. -/
theorem obperEvents : Obligations.ObperEvents := by
  unfold Obligations.ObperEvents
  refine ⟨?go, ?quiesce, ?drain, ?train, ?links, ?filtered, ?served⟩
  case go =>
    intro g x s hx hg hr
    have no {r : Nat} := exec_ogctlGo_refused hx hg hr (r := r)
    refine ⟨fun hb => no (goRefusal_busy hb), fun hb => ⟨fun h => no (goRefusal_reserved hb h), fun h8 h4 hp => ?_⟩⟩
    refine ⟨fun hpin => no (goRefusal_pinned hb h8 h4 hp hpin), fun hpin h1 => no (goRefusal_host hb h8 h4 hpin h1),
      fun hpin h1 ha => no (goRefusal_disallowed hb h8 h4 hp hpin h1 ha), fun hpin h1 ha ht => no (goRefusal_tier hb h8 h4 hp hpin h1 ha ht),
      fun hpin h1 ha ht => ?_⟩
    have hlast := goRefusal_last hb h8 h4 hp hpin h1 ha ht
    refine ⟨fun hs hq => no (hlast.trans (if_pos ⟨hs, hq⟩)),
      fun hs hq => exec_ogctlGo_quiesces hx hg hr (hlast.trans (if_neg fun h => hq h.2)) hs, fun hs hz => ?_⟩
    have hna : (s.ogAt g).st ≠ .active := by
      obtain hs | hs := hs <;> rw [hs] <;> decide
    exact exec_ogctlGo_dark hx hg hr (hlast.trans (if_neg fun h => hna h.1)) hs hz
  case quiesce =>
    intro g core s hs hc
    exact ⟨exec_drainingMarkAck_waits hs hc, exec_drainingMarkAck_drains hs hc⟩
  case drain =>
    intro g s hs
    exact ⟨exec_ogDrainDone_darkens hs, exec_ogDrainTimeout_darkens hs, resend_other, enterDark_noPoolLines⟩
  case train =>
    intro g lanes s
    refine ⟨exec_ogDarkTimer_trains, exec_ogTrainTimeout_fails, ?whole, ?oneLink, ?narrow, ?nothing, exec_ogMappingDone_maps⟩
    case whole =>
      rintro hs ht rfl
      exact exec_ogTrainUp_up (up := [BitVec.allOnes 16]) ht (by decide) hs (by decide) (by decide)
    case oneLink =>
      rintro hs ht rfl
      exact exec_ogTrainUp_up (up := [0xFF#16, 0]) ht (by decide) hs (by decide) (by decide)
    case narrow =>
      rintro hs ht rfl
      exact exec_ogTrainUp_up (up := [0x0FF0#16]) ht (by decide) hs (by decide) (by decide)
    case nothing =>
      rintro hs ht rfl
      exact exec_ogTrainUp_nothing (up := [0]) ht (by decide) (by decide)
  case links =>
    intro g link s o hs hp hl hf
    rw [exec_linkDown_live hs hp hf hl]
    exact ⟨fun hd => congrArg Host.Outcome.next (if_neg hd), fun hd => congrArg Host.Outcome.next (if_pos hd), exec_linkRetrain_up hs hp hf⟩
  case filtered =>
    intro g port who pa op s h
    exact exec_peerTransaction_filtered h op
  case served =>
    intro g port who pa n d f wide x swp s o key z ha hp hport hup hwho hhbm hc hret hb
    have h : PeerServed s g port who pa := ⟨ha, hp, hport, hup, hwho, hhbm, hc, hret, hb⟩
    exact ⟨h.exec_read, h.exec_write, h.exec_atomic rfl⟩

end Sys2Proof.Machine

namespace Sys2Proof.Machine

/-! PROOFS. Management (R322, R324-R326, R364, R365): what a boot measures and where it ends, what a valid policy pins, the silence of recovery, and the management registers one write at a time. -/

/-! Measurements (R322). -/

theorem Mgmt.get_meas_extend (m : Mgmt) (k n : Nat) (d : List Byte) :
    Tab.get 0 (m.extend k d).meas n =
      if n = k then digestOf (sha384 (digestBytes (Tab.get 0 m.meas n) ++ d)) else Tab.get 0 m.meas n := by
  refine (Tab.get_set ..).trans ?_
  split
  · next h => rw [h]
  · rfl

/-- The item that the stage extending MEASn verifies. -/
def bootItem (serial n : Nat) : List Byte := digestBytes (if n = 3 then Config.policyDigest serial else Config.imageDigest n)

theorem Mgmt.boot_succ (m : Mgmt) (serial k : Nat) : m.boot serial (k + 1) = (m.boot serial k).extend k (bootItem serial k) := by
  unfold Mgmt.boot
  rw [List.range_succ, List.foldl_append]
  rfl

/-- Each stage that has run has extended its own register once, and no other. -/
theorem Mgmt.get_meas_boot (m : Mgmt) (serial k n : Nat) :
    Tab.get 0 (m.boot serial k).meas n =
      if n < k then digestOf (sha384 (digestBytes (Tab.get 0 m.meas n) ++ bootItem serial n)) else Tab.get 0 m.meas n := by
  induction k with
  | zero => rfl
  | succ k ih =>
    rw [Mgmt.boot_succ, Mgmt.get_meas_extend, ih]
    obtain hlt | rfl | hgt := Nat.lt_trichotomy n k
    · rw [if_neg (Nat.ne_of_lt hlt), if_pos hlt, if_pos (Nat.lt_succ_of_lt hlt)]
    · rw [if_pos rfl, if_neg (Nat.lt_irrefl n), if_pos (Nat.lt_succ_self n)]
    · rw [if_neg (Nat.ne_of_gt hgt), if_neg (Nat.lt_asymm hgt), if_neg (Nat.not_lt.2 hgt)]

/-! The policy (R324). -/

/-- A valid policy keeps the limits on power and partitions, and exactly one of its groups is pinned, as host link. -/
theorem Policy.valid_limits {p : Policy} (h : p.valid = true) :
    p.limit ≤ 4000 ∧ p.parts.length ≤ 4 ∧ ∃ g < 12, (p.group g).pin = true ∧ (p.group g).pers = 1 ∧ ∀ h < 12, (p.group h).pin = true → h = g := by
  simp only [Policy.valid, Bool.and_eq_true, decide_eq_true_eq, beq_iff_eq] at h
  obtain ⟨⟨⟨⟨hone, hcode⟩, hlimit⟩, hparts⟩, -⟩ := h
  obtain ⟨g, hg⟩ := List.length_eq_one_iff.1 hone
  have hpinned (n : Nat) : n < 12 ∧ (p.group n).pin = true ↔ n = g := by
    rw [← List.mem_singleton (a := n), ← hg, List.mem_filter, List.mem_range]
  obtain ⟨hlt, hpin⟩ := (hpinned g).2 rfl
  have hpers : (p.group g).pers = 1 := by
    have hgroup := List.all_eq_true.1 hcode _ (List.mem_map_of_mem (List.mem_range.2 hlt))
    rw [hpin, Bool.not_true, Bool.false_or] at hgroup
    exact eq_of_beq hgroup
  exact ⟨hlimit, hparts, g, hlt, hpin, hpers, fun n hn hp => (hpinned n).1 ⟨hn, hp⟩⟩

/-! Module reset (R322). -/

/-- What module reset keeps: memory with its poison marks and the policy in flash, with the model's own counters (log 71). -/
def State.afterReset (s : State) : State :=
  { State.reset with mem := s.mem, memPoison := s.memPoison, draws := s.draws, nextId := s.nextId, policy := s.policy }

section
variable {s : State}

theorem exec_moduleReset_ready (h : s.policy.valid = true) : exec (.moduleReset none) s = .next { s.afterReset with
    ogs := s.policy.groups.map (fun e => (e.1, Og.ofPolicy e.2))
    parts := s.policy.parts
    mgmt := { Mgmt.reset.boot s.policy.serial 4 with
      stage := 5, polok := true, idok := true, ready := true, limit := BitVec.ofNat 13 s.policy.limit } } :=
  if_neg (by rw [h]; decide)

theorem exec_moduleReset_badPolicy (h : s.policy.valid = false) : exec (.moduleReset none) s = .next (s.afterReset.recovery 3) :=
  if_pos (by rw [h]; rfl)

/-- No stage but 1 to 4 verifies anything that can fail. -/
theorem exec_moduleReset_noStage {k : BitVec 3} (h : k = 0 ∨ 4 < k.toNat) : exec (.moduleReset (some k)) s = .next s :=
  if_pos (h.imp_left (fun h => by rw [h]; rfl))

/-- A stage that fails before the policy is looked at, or on it, leaves the stages before it done. -/
theorem exec_moduleReset_failed {k : BitVec 3} (h1 : 1 ≤ k.toNat) (h4 : k.toNat ≤ 4) :
    exec (.moduleReset (some k)) s = .next (s.afterReset.recovery (k.toNat - 1)) := by
  have hmin : Nat.min (k.toNat - 1) 3 = k.toNat - 1 := Nat.min_eq_left (by omega)
  rw [exec_moduleReset]
  unfold execModuleReset
  dsimp only
  rw [if_neg (by omega), hmin, ite_self]
  rfl

end

/-! Recovery (R322). -/

theorem ctmig_recovery {s : State} (h : s.mgmt.recov = true) (c : Nat) (x : W64) (f : Nat → Option State) : s.ctmig c x f = s :=
  if_pos (by rw [h, Bool.or_true])

theorem exec_ogDarkTimer_recovery {s : State} (h : s.mgmt.recov = true) (g : Nat) : exec (.ogDarkTimer g) s = .next s :=
  if_pos (.inr (.inr (.inr h)))

/-! Measurement, attestation and power (R325, R326). -/

section
variable {s : State} {x : W64}

theorem exec_measext_collects (h : s.mgmt.ext.length < 5) :
    exec (.measext x) s = .next { s with mgmt := { s.mgmt with ext := s.mgmt.ext ++ [x] } } :=
  if_pos (by rw [List.length_append]; exact Nat.succ_lt_succ h)

theorem exec_measext_extends (h : s.mgmt.ext.length = 5) : exec (.measext x) s = .next { s with
    mgmt := { s.mgmt.extend s.mgmt.sel.toNat ((s.mgmt.ext ++ [x]).flatMap (fun w => natToBytes 8 w.toNat)) with ext := [] } } :=
  if_neg (by rw [List.length_append, List.length_singleton, h]; decide)

/-- A write to MEASSEL starts a new sequence, and selects a register where its value is 4 to 7. -/
theorem exec_meassel_eq : exec (.meassel x) s = .next { s with
    mgmt := { s.mgmt with ext := [], sel := if x.toNat % 8 < 4 then s.mgmt.sel else BitVec.ofNat 3 x.toNat } } := by
  have hx : (x.setWidth 3).toNat = x.toNat % 8 := BitVec.toNat_setWidth ..
  rw [← hx]
  rfl

theorem exec_attcmdGo_rejected (hx : x.getLsbD 0 = true) (hq : s.mgmt.qbusy = true) :
    exec (.attcmdGo x) s = .next { s with mgmt := { s.mgmt with qrej := true } } :=
  (if_neg (by rw [hx]; decide)).trans (if_pos hq)

/-- A quote takes the nonce and the measurements as they stand when it starts (R325). -/
theorem exec_attcmdGo_starts (hx : x.getLsbD 0 = true) (hq : s.mgmt.qbusy = false) : exec (.attcmdGo x) s = .next { s with mgmt := { s.mgmt with
    qbusy := true, qdst := x.toNat % 2 ^ 57 / 128 * 128, qnonce := digestOf s.mgmt.nonceBytes, quote := (List.range 8).map (fun i => Tab.get 0 s.mgmt.meas i) } } :=
  (if_neg (by rw [hx]; decide)).trans (if_neg (by rw [hq]; decide))

theorem exec_quoteDone_writes (hq : s.mgmt.qbusy = true) (hr : s.mgmt.recov = false) : exec .quoteDone s = .next
    { s.writeHome (hostCell s.mgmt.qdst) (s.mgmt.quoteBytes s.policy.serial) with mgmt := { s.mgmt with qbusy := false } } := by
  rw [exec_quoteDone]
  simp only [execQuoteDone, hq, hr, Bool.not_true, Bool.false_eq_true, if_false]

theorem exec_quoteDone_recovery (hq : s.mgmt.qbusy = true) (hr : s.mgmt.recov = true) :
    exec .quoteDone s = .next { s with mgmt := { s.mgmt with qbusy := false } } := by
  rw [exec_quoteDone]
  simp only [execQuoteDone, hq, hr, Bool.not_true, Bool.false_eq_true, if_false, if_true]

/-- A write to PWRREQ stands from 1,000 W on. -/
theorem exec_pwrreq_eq : exec (.pwrreq x) s =
    if x.toNat % 2 ^ 13 < 1000 then .next s else .next { s with mgmt := { s.mgmt with pwrreq := BitVec.ofNat 13 x.toNat } } := by
  have hx : (x.setWidth 13).toNat = x.toNat % 2 ^ 13 := BitVec.toNat_setWidth ..
  rw [← hx]
  rfl

/-- The retired stack's home slice and its notice log are fenced (R365). -/
theorem exec_retm_fences (hr : s.mgmt.recov = false) (hf : (s.homeAt (x.toNat % 16)).fenced = false) : exec (.retm x) s = .next
    { s.setHome (x.toNat % 16) { s.homeAt (x.toNat % 16) with fenced := true, ring := [] } with
      firefly := { s.firefly with
        retired := s.firefly.retired ||| 1#16 <<< (x.toNat % 16), repl := true
        overLoss := s.firefly.overLoss || decide (3 ≤ laneCount (s.firefly.retired ||| 1#16 <<< (x.toNat % 16))) } } :=
  (if_neg (by rw [hr]; decide)).trans (if_neg (by rw [hf]; decide))

end

/-- Settles O50: a boot by the stage that fails, its measurements by induction on the stages that ran; in recovery the test of RECOV in each command ends it; each management register by its own writes. -/
theorem managementEvents : Obligations.ManagementEvents := by
  unfold Obligations.ManagementEvents
  refine ⟨?reset, ?measured, ?policy, ?recovery, ?registers⟩
  case reset =>
    intro s bad
    refine ⟨?ready, ?badPolicy, ?failed, ?noStage⟩
    case ready =>
      rintro rfl hv
      exact exec_moduleReset_ready hv
    case badPolicy =>
      rintro rfl hv
      exact exec_moduleReset_badPolicy hv
    case failed =>
      rintro k rfl h1 h4
      exact exec_moduleReset_failed h1 h4
    case noStage =>
      rintro k rfl hk
      exact exec_moduleReset_noStage hk
  case measured =>
    intro serial k n _
    exact Mgmt.get_meas_boot Mgmt.reset serial k n
  case policy => exact fun p => Policy.valid_limits
  case recovery =>
    intro s c r t x g hr
    have hmig (f : Nat → Option State) : Host.Outcome.next (s.ctmig c.toNat x f) = (.next s : Host.Outcome State Fault Refusal) :=
      congrArg Host.Outcome.next (ctmig_recovery hr c.toNat x f)
    simp only [List.forall_mem_cons]
    exact ⟨if_pos hr, if_pos hr, if_pos hr, if_pos hr, if_pos hr, if_pos hr, hmig _, hmig _, hmig _, hmig _,
      if_pos hr, if_pos hr, if_pos hr, if_pos hr, if_pos hr, if_pos hr, exec_ogDarkTimer_recovery hr g, List.forall_mem_nil _⟩
  case registers =>
    intro x s
    refine ⟨exec_measext_collects, exec_measext_extends, ?keeps, ?selects, exec_attcmdGo_rejected, exec_attcmdGo_starts, exec_quoteDone_writes,
      exec_quoteDone_recovery, ?ignored, ?stands, rfl, rfl, exec_retm_fences⟩
    case keeps => exact fun h => by rw [exec_meassel_eq, if_pos h]
    case selects => exact fun h => by rw [exec_meassel_eq, if_neg (Nat.not_lt.2 h)]
    case ignored => exact fun h => exec_pwrreq_eq.trans (if_pos h)
    case stands => exact fun h => exec_pwrreq_eq.trans (if_neg (Nat.not_lt.2 h))

end Sys2Proof.Machine

namespace Sys2Proof.Machine

/-! PROOFS. Scarab (R342, R345, R346, R349): the queue of a core, and the actions on the record at its head. -/

section
variable {s : State} {core id k : Nat} {r : TrapRec} {w : Warp}

/-- With the record off its core's queue, the threads parked on it resume where f says. -/
theorem dropRec_resume (hk : r.warp = some k) (hw : Tab.look s.warps k = some w) (f : Thread → Thread) :
    (s.resume id r f).dropRec core id = { s with
      warps := Tab.put s.warps k (w.modThreads (w.onRecord id) (fun t => { f t with st := .ready })), recs := Tab.del s.recs id
      cores := Tab.put s.cores core { s.coreAt core with queue := (s.coreAt core).queue.filter (· != id) } } := by
  rw [State.resume, hk]
  dsimp only
  rw [modWarp_of_look hw]
  rfl

theorem debugRelease_of_dbg_false (hd : r.dbg = false) (s : State) : s.debugRelease r = s := by
  rw [State.debugRelease, hd]
  rfl

/-- An action that the cause of a warp's record accepts ends the record at the head of the queue (R346). -/
theorem endRec_of_resumable (hh : s.headRec core = some (id, r)) (hk : r.warp = some k) (hd : r.dbg = false) (hr : r.cause 0 ∉ [39, 40, 41, 43])
    (stream : Bool) (f : Thread → Thread) :
    s.endRec core stream f = ((s.resume id r f).dropRec core id).settleWg r.wgKey := by
  have hres : r.resumable = true := by
    simpa [TrapRec.resumable, causeWatchdog, causeCopyFault, causeDeadlock, causeSyscall, and_assoc] using hr
  simp [State.endRec, hh, hres, hk, debugRelease_of_dbg_false hd]

theorem endByRec_of_cluster {c : Cluster} (hc : Tab.look s.clusters (r.wgKey / 8) = some c) :
    s.endByRec core id r = s.endGrid c.grid 10 (r.cause 0) := by
  simp [State.endByRec, State.gridOfRec, hc]

theorem exec_endRecord_head (hh : s.headRec core = some (id, r)) : exec (.endRecord core) s = .next (s.endByRec core id r) := by
  simp only [exec_endRecord, execEndRecord, hh]

theorem exec_answer_syscall (hh : s.headRec core = some (id, r)) (hk : r.warp = some k) (hc : r.cause 0 = 43) :
    exec (.answer core) s = .next (((s.resume id r Thread.pass).dropRec core id).acquireWarp r.ctx k .dev) := by
  simp [execAnswer, hh, hk, hc, causeSyscall]

theorem exec_trapRecordEnqueue_enters (hf : s.recs.find? (fun e => e.2.core == core && !e.2.queued && s.recOnCore e.2) = some (id, r))
    (hq : (s.coreAt core).queue.length < 64) : exec (.trapRecordEnqueue core) s = .next { s with
      cores := Tab.put s.cores core { s.coreAt core with queue := (s.coreAt core).queue ++ [id] }, recs := Tab.put s.recs id { r with queued := true } } := by
  simp only [exec_trapRecordEnqueue, execTrapRecordEnqueue, hf]
  exact if_neg (Nat.not_le.2 hq)

/-! Scalars that Scarab writes (R342). -/

/-- A value that every thread may read at once leaves no older value of its register (R82). -/
theorem hazardsAfter_at_once (reg : RegName) (old : Nat → W64) (hs : List Hazard) :
    hazardsAfter reg (BitVec.allOnes 32) 0 old hs = hs.filter (fun z => z.reg != reg) := by
  have hnone : ∀ m : Mask, m &&& ~~~BitVec.allOnes 32 = 0 := fun m => by simp
  simp only [hazardsAfter, overwritten, if_true, List.append_nil, ne_eq, not_true, and_false, if_false, hnone]
  induction hs with
  | nil => rfl
  | cons z hs ih => by_cases hz : z.reg = reg <;> simp [hz, ih]

theorem writeS_at_once (w : Warp) (n : BitVec 6) (x : W64) : w.writeS 0 n.toNat (BitVec.allOnes 32) x =
    { w with s := (w.writeS 0 n.toNat (BitVec.allOnes 32) x).s, hazards := w.hazards.filter (fun z => n == 0 || z.reg != .s n.toNat) } := by
  by_cases h0 : n = 0
  · have hkeep : w.hazards.filter (fun z => n == 0 || z.reg != .s n.toNat) = w.hazards := List.filter_eq_self.2 fun z _ => by rw [h0]; rfl
    rw [hkeep, Warp.writeS, if_pos (by rw [h0]; rfl)]
  · have hn : n.toNat ≠ 0 := fun h => h0 (BitVec.eq_of_toNat_eq h)
    rw [Warp.writeS, if_neg hn, hazardsAfter_at_once]
    simp only [beq_false_of_ne h0, Bool.false_or]

theorem exec_scarabWrite_scalar (hr : Tab.look s.recs id = some r) (hq : r.queued = true) (hk : r.warp = some k) (hw : Tab.look s.warps k = some w)
    (hp : w.onRecord id ≠ 0) (n : BitVec 6) (x : W64) :
    exec (.scarabWrite id (.scalar n x)) s = .next (s.setWarp k (w.writeS 0 n.toNat (BitVec.allOnes 32) x)) := by
  simp only [exec_scarabWrite, execScarabWrite, hr, hq, hk, modWarp_of_look hw, if_neg hp]
  rfl

end

/-- Settles O42: an action that its cause accepts ends the record at the head of the queue, and its threads resume where the action says; a scalar written at once leaves no older value. -/
theorem scarabEvents : Obligations.ScarabEvents := by
  unfold Obligations.ScarabEvents
  refine ⟨?enqueue, ?action, ?ends, ?write⟩
  case enqueue => exact fun core id s r => exec_trapRecordEnqueue_enters
  case action =>
    intro core id k a s r w hh hk hd hw onRec cores ended
    have hend (f : Thread → Thread) : (s.resume id r f).dropRec core id = ended f := dropRec_resume hk hw f
    constructor
    · intro hc
      have hact (stream : Bool) (f : Thread → Thread) : s.endRec core stream f = (ended f).settleWg r.wgKey := by
        rw [endRec_of_resumable hh hk hd hc, hend]
      rw [exec_replay, execReplay, exec_skip, execSkip, exec_jump, execJump, hact, hact, hact]
      exact ⟨rfl, rfl, rfl⟩
    · intro hc
      rw [exec_answer_syscall hh hk hc, hend]
  case ends =>
    intro core id s r c hh hc
    rw [exec_endRecord_head hh, endByRec_of_cluster hc]
  case write =>
    intro id k n x s r w hr hq hk hw hp
    exact ⟨_, exec_scarabWrite_scalar hr hq hk hw hp n x, writeS_at_once w n x, fun q => sreg_writeS ..⟩

end Sys2Proof.Machine

namespace Sys2Proof.Machine

open Sys2Proof.Claims

/-! PROOFS. Failures (R14, R237, R355-R363): sites marked by errors, dirty sectors lost at eviction, mesh links and dies, reductions across devices. -/

/-! Errors (R356). -/

theorem mem_addOnce {x k : Nat} {l : List Nat} : k ∈ addOnce x l ↔ k = x ∨ k ∈ l := by
  rw [addOnce]
  split
  · next h =>
    have hx : x ∈ l := by simpa using h
    exact ⟨.inr, fun hk => hk.elim (fun e => e ▸ hx) id⟩
  · exact List.mem_cons

theorem modWg_of_look {s : State} {k : Nat} {w : Wg} (h : Tab.look s.wgs k = some w) (f : Wg → Wg) :
    s.modWg k f = { s with wgs := Tab.put s.wgs k (f w) } := by
  simp only [State.modWg, Tab.mod, h]

section
variable {s : State}

theorem exec_uncorrectableError_register {warp reg lane : Nat} {w : Warp} (hw : Tab.look s.warps warp = some w) (hr : reg < 254) (hl : lane < 32) :
    exec (.uncorrectableError (.register warp reg lane)) s = .next { s with
      warps := Tab.put s.warps warp { w with vPoison := addOnce (32 * reg + lane) w.vPoison } } := by
  rw [exec_uncorrectableError, execUncorrectableError, if_pos ⟨hr, hl⟩, modWarp_of_look hw]

theorem exec_uncorrectableError_scratch {wg : Nat} {w : Wg} (hw : Tab.look s.wgs wg = some w) (a : Nat) :
    exec (.uncorrectableError (.scratch wg a)) s = .next { s with wgs := Tab.put s.wgs wg { w with scrPoison := addOnce (a / 8) w.scrPoison } } := by
  rw [exec_uncorrectableError, execUncorrectableError, modWg_of_look hw]

theorem exec_uncorrectableError_accumulator {wg idx : Nat} {w : Wg} (hw : Tab.look s.wgs wg = some w) (tile : Nat) (hi : idx < 4096) :
    exec (.uncorrectableError (.accumulator wg tile idx)) s = .next { s with
      wgs := Tab.put s.wgs wg { w with accPoison := addOnce (4096 * tile + idx) w.accPoison } } := by
  rw [exec_uncorrectableError, execUncorrectableError, if_pos hi, modWg_of_look hw]

variable {die ctx pa : Nat}

theorem exec_uncorrectableError_dieCopy {x : Sector} (h : Tab.look (s.dieAt die).l2 (tagOf ctx (cellOf pa)) = some x) :
    exec (.uncorrectableError (.dieCopy die ctx pa)) s = .next (s.setL2 die (tagOf ctx (cellOf pa)) { x with poison := true }) := by
  simp only [exec_uncorrectableError, execUncorrectableError, h]

theorem exec_uncorrectableError_noCopy (h : Tab.look (s.dieAt die).l2 (tagOf ctx (cellOf pa)) = none) :
    exec (.uncorrectableError (.dieCopy die ctx pa)) s = .next s := by
  simp only [exec_uncorrectableError, execUncorrectableError, h]

end

/-! A dirty sector lost at eviction (R355). -/

theorem tagCtx_tagOf {key : Nat} (h : key < 2 ^ 58) (c : Nat) : tagCtx (tagOf c key) = c := by
  unfold tagCtx tagOf; omega

@[simp] theorem dieAt_setL2 (s : State) (die tag : Nat) (x : Sector) :
    (s.setL2 die tag x).dieAt die = { s.dieAt die with l2 := Tab.put (s.dieAt die).l2 tag x } :=
  (State.dieAt_setDie ..).trans (if_pos rfl)

/-- The diff of a dirty sector that is now poisoned has no bytes; under the SEQ of the next release it is remembered (R254, R258). -/
theorem takeDiff_poisoned (s : State) (die tag kind : Nat) {x : Sector} (ht : x.twin ≠ none) :
    ((s.setL2 die tag { x with poison := true }).takeDiff die tag kind (s.seqOf die (tagCtx tag)) true false).1 = { s with
      nextId := s.nextId + 1
      dies := Tab.put s.dies die { s.dieAt die with
        l2 := Tab.put (s.dieAt die).l2 tag { x with twin := none, age := s.nextId, poison := true }, early := (tagCtx tag, tagSector tag) :: (s.dieAt die).early }
      pkts := Tab.put s.pkts s.nextId {
        die := die, ctx := tagCtx tag, kind := kind, seq := (s.seqOf die (tagCtx tag)).toNat, sector := tagSector tag, runs := [], pz := true, drop := true
        applied := false } } := by
  obtain ⟨tw, htw⟩ := Option.ne_none_iff_exists'.1 ht
  simp only [State.takeDiff, dieAt_setL2, Tab.look_put_self, htw, State.seqOf]
  simp [State.setL2, State.setDie]

/-- A loss is charged to the context, and Firefly asks for the part (R355, R364). -/
def lossCharged (s : State) (ctx : Nat) : State :=
  { s.setCtx ctx { s.ctxAt ctx with errcnt := (s.ctxAt ctx).errcnt + 1 } with firefly := s.firefly.report }

/-- A die whose dirty sector has been sent: whole, or as a diff that is poisoned. -/
def lossDie (s : State) (d ctx tag : Nat) (x : Sector) (whole : Bool) : Die :=
  { s.dieAt d with
    l2 := Tab.put (s.dieAt d).l2 tag { x with twin := none, age := s.nextId, poison := !whole }
    early := if whole then (s.dieAt d).early else (ctx, tagSector tag) :: (s.dieAt d).early }

/-- An error in a dirty sector has been met at its eviction (R355): a packet carries what is left. -/
def lossSent (s : State) (d ctx tag : Nat) (x : Sector) (whole : Bool) : State :=
  { lossCharged s ctx with
    nextId := s.nextId + 1, dies := Tab.put s.dies d (lossDie s d ctx tag x whole)
    pkts := Tab.put s.pkts s.nextId {
      die := d, ctx := ctx, kind := 2, seq := (s.seqOf d ctx).toNat, sector := tagSector tag
      runs := if whole then [(0, x.data)] else [], pz := !whole, drop := true, applied := false } }

section
variable {s : State} {die : BitVec 3} {ctx pa : Nat} {twin : Bool} {x : Sector}

theorem exec_poisonErrorEvict_clean (h : ∀ x, Tab.look (s.dieAt die.toNat).l2 (tagOf ctx (cellOf pa)) = some x → x.twin = none) :
    exec (.poisonErrorEvict die ctx pa twin) s = .next s := by
  rw [exec_poisonErrorEvict, execPoisonErrorEvict]
  dsimp only
  split
  · rfl
  · next x hx => rw [h x hx]; rfl

variable (hx : Tab.look (s.dieAt die.toNat).l2 (tagOf ctx (cellOf pa)) = some x) (ht : x.twin ≠ none)
include hx ht

theorem exec_poisonErrorEvict_whole (hw : (twin && !x.poison) = true) :
    exec (.poisonErrorEvict die ctx pa twin) s = .next (lossSent s die.toNat ctx (tagOf ctx (cellOf pa)) x true) := by
  have hn : x.twin.isNone = false := Option.isNone_eq_false_iff.2 (Option.isSome_iff_ne_none.2 ht)
  have hp : x.poison = !true := by simpa using (Bool.and_eq_true_iff.1 hw).2
  have hs : { x with twin := none, age := s.nextId, poison := !true } = { x with twin := none, age := s.nextId } := by rw [← hp]
  rw [exec_poisonErrorEvict, execPoisonErrorEvict]
  simp only [hx, hn, hw, lossSent, lossDie, hs]
  rfl

theorem exec_poisonErrorEvict_poisoned (hw : (twin && !x.poison) = false) (hpa : cellOf pa < 2 ^ 58) :
    exec (.poisonErrorEvict die ctx pa twin) s = .next (lossSent s die.toNat ctx (tagOf ctx (cellOf pa)) x false) := by
  have hn : x.twin.isNone = false := Option.isNone_eq_false_iff.2 (Option.isSome_iff_ne_none.2 ht)
  have hd := takeDiff_poisoned (lossCharged s ctx) die.toNat (tagOf ctx (cellOf pa)) 2 ht
  rw [tagCtx_tagOf hpa] at hd
  rw [exec_poisonErrorEvict, execPoisonErrorEvict]
  simp only [hx, hn, hw]
  exact congrArg Host.Outcome.next hd

/-- The sector leaves whole with the error in its twin alone, and else its bytes are lost. -/
theorem exec_poisonErrorEvict_dirty (hpa : cellOf pa < 2 ^ 58) :
    exec (.poisonErrorEvict die ctx pa twin) s = .next (lossSent s die.toNat ctx (tagOf ctx (cellOf pa)) x (twin && !x.poison)) := by
  cases hw : twin && !x.poison
  · exact exec_poisonErrorEvict_poisoned hx ht hw hpa
  · exact exec_poisonErrorEvict_whole hx ht hw

end

/-! Mesh links and dies (R359-R362). -/

theorem abortCtx_eq_ctxEnded (s : State) (c : Nat) : s.abortCtx c = ctxEnded s c := by
  rw [State.abortCtx, ctxEnded, List.foldl_map]
  rfl

theorem abortPart_eq_partEnded (s : State) (n : Nat) : s.abortPart n = partEnded s n := by
  simp only [State.abortPart, partEnded, abortCtx_eq_ctxEnded, List.contains_eq_mem]
  rfl

@[simp] theorem removeClusters_clock (s : State) (p : Nat → Bool) : (s.removeClusters p).clock = s.clock := rfl

theorem rerun_eq_offeredAnew (s : State) (key : Nat) (cl : Cluster) : s.rerun key cl = offeredAnew s key cl := by
  have hframes (g : Grid) : g.frames.filter (fun f => f.1 != cl.frame) = g.frames.filter (fun f => decide (f.1 ≠ cl.frame)) :=
    List.filter_congr fun f _ => by rw [decide_not]; rfl
  simp only [State.rerun, offeredAnew, removeClusters_clock, hframes]
  rfl

/-- The DCA lines of which a die owns the modified copy (R275). -/
theorem contains_modified (pool : Tab PoolLine) (line : Nat) :
    ((pool.filter (fun e => e.2.st == .m)).map (·.1)).contains line = pool.any (fun x => x.1 == line && x.2.st == .m) := by
  rw [Bool.eq_iff_iff, List.contains_iff_mem, List.any_eq_true, List.mem_map]
  constructor
  · rintro ⟨e, he, rfl⟩
    obtain ⟨hm, hst⟩ := List.mem_filter.1 he
    exact ⟨e, hm, Bool.and_eq_true_iff.2 ⟨beq_self_eq_true _, hst⟩⟩
  · rintro ⟨e, hm, h⟩
    obtain ⟨hline, hst⟩ := Bool.and_eq_true_iff.1 h
    exact ⟨e, List.mem_filter.2 ⟨hm, hst⟩, eq_of_beq hline⟩

theorem fenceDie_eq_dieLost (s : State) (d : Nat) : s.fenceDie d = dieLost s d := by
  simp only [State.fenceDie, dieLost, abortCtx_eq_ctxEnded, rerun_eq_offeredAnew, contains_modified]
  rfl

theorem exec_cdieFence_eq (die : BitVec 3) (s : State) : exec (.cdieFence die) s = .next (dieLost s die.toNat) :=
  congrArg Host.Outcome.next (fenceDie_eq_dieLost ..)

section
variable {s : State} {link : Nat}

theorem exec_meshLinkFail_ignored (h : 60 ≤ link ∨ link ∈ s.meshDown) (parts : BitVec 4) : exec (.meshLinkFail link parts) s = .next s :=
  if_pos (by simpa using h)

theorem exec_meshLinkFail_lost (hl : link < 60) (hd : link ∉ s.meshDown) (parts : BitVec 4) :
    exec (.meshLinkFail link parts) s =
      let down := insertNat link s.meshDown
      let t := { s with meshDown := down, firefly := { s.firefly with linkdn := s.firefly.linkdn + 1, repl := true } }
      let hit := (s.parts.filter (fun e => parts.getLsbD e.1 || (cutDies down).any e.2.holdsDie)).map (·.1)
      .next ((lonelyDies down).foldl dieLost (hit.foldl partEnded t)) := by
  rw [exec_meshLinkFail, execMeshLinkFail, if_neg (by simpa using ⟨hl, hd⟩)]
  simp only [fenceDie_eq_dieLost, abortPart_eq_partEnded]

end

/-! Reductions (R237, R363). -/

@[simp] theorem portWrite_reductions (s : State) (key : Nat) (bs : List Byte) : (s.portWrite key bs).reductions = s.reductions := by
  unfold State.portWrite
  split
  · split <;> rfl
  · rfl

theorem contributed_eq_given (f : Slot) (x : Contribution) : contributed f x = given f x := by cases x <;> rfl

theorem finishReduction_eq_reduced (s : State) (red : Nat) (r : Reduction) : s.finishReduction red r = reduced s red r := by
  rw [State.finishReduction]
  simp only [portWrite_reductions]
  rfl

section
variable {s : State} {red who : Nat} {x : Contribution} {r : Reduction} (hr : Tab.look s.reductions red = some r)
include hr

theorem exec_reductionContribution_discarded (h : r.res ≠ 0 ∨ who ∈ r.got ∨ who ∉ r.need) : exec (.reductionContribution red who x) s = .next s := by
  simp only [exec_reductionContribution, execReductionContribution, hr]
  exact if_pos (by simpa [or_comm] using h)

theorem exec_reductionTimeout_ends (h0 : r.res = 0) (hg : r.got ≠ []) (hl : (s.partAt r.part).rtmo.toNat * 2700000 ≤ (s.clock - r.first).toNat) :
    exec (.reductionTimeout red) s = .next (told { s with reductions := Tab.put s.reductions red { r with res := 3, sum := 0 } } r 3) := by
  simp only [exec_reductionTimeout, execReductionTimeout, hr]
  exact if_neg (by simp [-BitVec.toNat_sub, msCycles, h0, hg, hl])

theorem exec_reductionTimeout_ignored (h : r.res ≠ 0 ∨ r.got = [] ∨ (s.clock - r.first).toNat < (s.partAt r.part).rtmo.toNat * 2700000) :
    exec (.reductionTimeout red) s = .next s := by
  simp only [exec_reductionTimeout, execReductionTimeout, hr]
  exact if_pos (h.imp_right (Or.imp List.isEmpty_iff.2 fun hl => congrArg not (decide_eq_false (Nat.not_le.2 hl))))

variable (h0 : r.res = 0) (hn : who ∈ r.need) (hg : who ∉ r.got)
include h0 hn hg

omit hr in
/-- The model's own test of a contribution that is late, twice, or of no participant. -/
theorem contribution_accepted : ¬(r.res ≠ 0 ∨ (!r.need.contains who) = true ∨ r.got.contains who = true) := by simpa using ⟨h0, hn, hg⟩

theorem exec_reductionContribution_failed : exec (.reductionContribution red who .failed) s =
    .next (told { s with reductions := Tab.put s.reductions red { r with res := 2, sum := 0 } } r 2) := by
  simp only [exec_reductionContribution, execReductionContribution, hr, if_neg (contribution_accepted h0 hn hg)]
  rfl

theorem exec_reductionContribution_added {v : Int} {fl : Fl} (hv : given (slotOf r.slot) x = some (v, fl)) :
    exec (.reductionContribution red who x) s =
      let y := if r.got = [] then (v, 0) else addWfx (wfxOfBits r.sum.toNat) v
      let r' := { r with
        sum := BitVec.ofNat 96 (wfxBits y.1), sat := r.sat || ((fl ||| y.2) &&& flSAT) != 0, got := insertNat who r.got, first := if r.got = [] then s.clock else r.first }
      if ∀ w ∈ r.need, w ∈ r'.got then .next (reduced s red r') else .next { s with reductions := Tab.put s.reductions red r' } := by
  rw [← contributed_eq_given] at hv
  simp only [exec_reductionContribution, execReductionContribution, hr, if_neg (contribution_accepted h0 hn hg), hv, finishReduction_eq_reduced]
  simp only [List.isEmpty_iff, List.all_eq_true, List.contains_iff_mem]

end

/-- Settles O49: an error adds its site to the sites marked; a lost sector leaves by `lossSent`; links and dies by the equations of `State.abortPart` and `State.fenceDie`; a reduction by whether its contribution is taken. -/
theorem failureEvents : Obligations.FailureEvents := by
  unfold Obligations.FailureEvents
  refine ⟨?errors, ?evicted, ?links, exec_cdieFence_eq, ?contributions, fun red s r hr => ⟨exec_reductionTimeout_ends hr, exec_reductionTimeout_ignored hr⟩⟩
  case errors =>
    intro s
    refine ⟨fun pa => ⟨_, rfl, fun k => mem_addOnce⟩, fun warp reg lane w hw hr hl => ?_, fun wg a w hw => ?_, fun wg tile idx w hw hi => ?_, fun die ctx pa => ?_⟩
    · exact ⟨_, exec_uncorrectableError_register hw hr hl, fun k => mem_addOnce⟩
    · exact ⟨_, exec_uncorrectableError_scratch hw a, fun k => mem_addOnce⟩
    · exact ⟨_, exec_uncorrectableError_accumulator hw tile hi, fun k => mem_addOnce⟩
    · exact ⟨fun x => exec_uncorrectableError_dieCopy, exec_uncorrectableError_noCopy⟩
  case evicted =>
    intro die ctx pa twin s d tag
    refine ⟨exec_poisonErrorEvict_clean, fun x hx ht hpa => ?_⟩
    exact ⟨_, lossDie s d ctx tag x (twin && !x.poison), exec_poisonErrorEvict_dirty hx ht hpa, fun j => Tab.get_put .., rfl, fun k => Tab.look_put ..⟩
  case links => exact fun link parts s => ⟨fun h => exec_meshLinkFail_ignored h parts, fun hl hd => exec_meshLinkFail_lost hl hd parts⟩
  case contributions =>
    intro red who x s r hr
    refine ⟨exec_reductionContribution_discarded hr, fun h0 hn hg => ⟨?fails, ?adds⟩⟩
    case fails =>
      rintro rfl
      exact exec_reductionContribution_failed hr h0 hn hg
    case adds =>
      intro v fl hv y r'
      rw [exec_reductionContribution_added hr h0 hn hg hv]
      exact ⟨fun h => if_neg (by simpa using h), fun h => if_pos h⟩

end Sys2Proof.Machine
